-- ==== Sys2Proof/Word.lean ====
section
/-! DEFINITION. The word types of the LN2400 and their plainest arithmetic. -/

namespace Sys2Proof

/-- One byte on the line, on the equipment port, in the image or of a voice sample. -/
abbrev Byte := BitVec 8

/-- A 16-bit counter (1.5, Counters). -/
abbrev Counter := BitVec 16

/-- A Line Time value, kept modulo 2^48 (R42). -/
abbrev LTime := BitVec 48

end Sys2Proof
end

