-- ==== Sys2Proof/Syntax.lean ====
section
/-! DEFINITION. The commands of the LN2400: one constructor per row of spec/opcode_table.json. The table gives its rows no
operands; the operands here are what the row's own rule needs from outside the part. -/

namespace Sys2Proof

/-- The two line ports (1.3). -/
inductive PortId where
  | east
  | west
  deriving DecidableEq, Repr

/-- The nine level lines (Figure 4-1). -/
inductive LevelLine where
  | hookA
  | hookB
  | contact (i : Fin 6)
  | powerWarn
  deriving DecidableEq, Repr

/-- The two pulse channels (Figure 4-1). -/
inductive PulseId where
  | wind
  | rain
  deriving DecidableEq, Repr

/-- The two phone ports (1.3). -/
inductive PhoneId where
  | phoneA
  | phoneB
  deriving DecidableEq, Repr

/-- A call reference: origin node and origin ref (Figure 5-1, section 12.2). -/
structure CallRef where
  origin : Byte
  num : Byte
  deriving DecidableEq, Repr

/-- One constructor per row of the table, in the table's order. -/
inductive Instr where
  /-- START, R201. -/
  | start
  /-- CONFIGURATION_IMAGE_READ_END, R199: the bytes read, or none when the memory does not answer. -/
  | configurationImageReadEnd (image : Option (List Byte))
  /-- LOADING_READ_TIMEOUT, R199. -/
  | loadingReadTimeout
  /-- START_SCAN_READ_END, R120. -/
  | startScanReadEnd
  /-- GENERATION_MARK_PROGRAM_END, R122. -/
  | generationMarkProgramEnd
  /-- GENERATION_MARK_PROGRAM_LIMIT, R122. -/
  | generationMarkProgramLimit
  /-- MARK_SECTOR_ERASE_END, R122: whether the sector checks erased. -/
  | markSectorEraseEnd (erased : Bool)
  /-- MARK_SECTOR_ERASE_LIMIT, R122: whether the sector checks erased. -/
  | markSectorEraseLimit (erased : Bool)
  /-- LIGHT_PRESENT, R4. -/
  | lightPresent (p : PortId)
  /-- LIGHT_LOST, R3. -/
  | lightLost (p : PortId)
  /-- PORT_SILENCE_TIMER_EXPIRY, R6. -/
  | portSilenceTimerExpiry (p : PortId)
  /-- FRAME_RECEIVED, R8: the port and the bytes taken in. -/
  | frameReceived (p : PortId) (bytes : List Byte)
  /-- FRAME_SEND_END, R23. -/
  | frameSendEnd (p : PortId)
  /-- BEAT_TIMER_EXPIRY, R27. -/
  | beatTimerExpiry
  /-- REACH_ENTRY_AGE_LIMIT, R33: the part and the node of the entry. -/
  | reachEntryAgeLimit (p : PortId) (node : Nat)
  /-- LT_CARRY, R45. -/
  | ltCarry
  /-- GRADE_TIMER_EXPIRY, R53. -/
  | gradeTimerExpiry
  /-- TIME, R54: the value V. -/
  | time (v : LTime)
  /-- TIME_VALUE_LAPSE, R54. -/
  | timeValueLapse
  /-- TIME_INPUT_PULSE, R55. -/
  | timeInputPulse
  /-- INPUT_LOCK_LAPSE, R56. -/
  | inputLockLapse
  /-- PIN_CHANGE, R60: the line and its new level, true for HIGH. -/
  | pinChange (line : LevelLine) (level : Bool)
  /-- FILTER_WAIT_END, R60. -/
  | filterWaitEnd (line : LevelLine)
  /-- PULSE_EDGE, R67: a rising edge at a pulse pin. -/
  | pulseEdge (ch : PulseId)
  /-- PULSE_WINDOW_END, R68. -/
  | pulseWindowEnd (ch : PulseId)
  /-- ATTEMPT_TIMER_EXPIRY, R77: the place of the entry in the call table. -/
  | attemptTimerExpiry (e : Fin 8)
  /-- RING_OUT_ATTEMPT_TIMER_EXPIRY, R90. -/
  | ringOutAttemptTimerExpiry (e : Fin 8)
  /-- ROADSIDE_SILENCE_TIMER_EXPIRY, R81. -/
  | roadsideSilenceTimerExpiry (e : Fin 8)
  /-- TERMINUS_SILENCE_TIMER_EXPIRY, R89. -/
  | terminusSilenceTimerExpiry (e : Fin 8)
  /-- ROADSIDE_KEEP_TIMER_EXPIRY, R82. -/
  | roadsideKeepTimerExpiry (e : Fin 8)
  /-- QUEUED_KEEP_TIMER_EXPIRY, R88. -/
  | queuedKeepTimerExpiry (e : Fin 8)
  /-- ROADSIDE_RING_TIMER_EXPIRY, R86. -/
  | roadsideRingTimerExpiry (e : Fin 8)
  /-- CALLING_RING_TIMER_EXPIRY, R91. -/
  | callingRingTimerExpiry (e : Fin 8)
  /-- RELEASE_TIMER_EXPIRY, R83: the place of the release in the release list, 0 the oldest. -/
  | releaseTimerExpiry (i : Fin 8)
  /-- PLAY_TIMER_EXPIRY, R95. -/
  | playTimerExpiry (e : Fin 8)
  /-- VOICE_SAMPLES_COMPLETE, R93: the phone port and its forty samples, earliest first. -/
  | voiceSamplesComplete (ph : PhoneId) (samples : List Byte)
  /-- TONE_CADENCE_STEP, R97. -/
  | toneCadenceStep (ph : PhoneId)
  /-- RING_CADENCE_STEP, R98. -/
  | ringCadenceStep (ph : PhoneId)
  /-- RING_OUT, R90: the node and the phone port code of the message. -/
  | ringOut (node phone : Byte)
  /-- HANGUP, R89. -/
  | hangup (ref : CallRef)
  /-- CONSOLE_VOICE, R93. -/
  | consoleVoice (ref : CallRef) (samples : List Byte)
  /-- PENDING_LIST_DRAIN, R92. -/
  | pendingListDrain
  /-- TOLL_SUBMIT, R105. -/
  | tollSubmit (tag : Byte) (gantry : BitVec 16) (lane : Byte) (body : List Byte)
  /-- ERASE_SUSPENSION_COMPLETE, R117. -/
  | eraseSuspensionComplete
  /-- RECORD_PROGRAM_END, R107. -/
  | recordProgramEnd
  /-- RECORD_PROGRAM_LIMIT, R108. -/
  | recordProgramLimit
  /-- ANSWER_PLACE_DRAIN, R107. -/
  | answerPlaceDrain
  /-- MARK_PROGRAM_END, R112. -/
  | markProgramEnd
  /-- MARK_PROGRAM_LIMIT, R112. -/
  | markProgramLimit
  /-- READ_END, R111. -/
  | readEnd
  /-- READ_LIMIT, R111. -/
  | readLimit
  /-- CLOSE_TIMER_EXPIRY, R114. -/
  | closeTimerExpiry
  /-- ERASE_DONE, R116: the sectors that do not check erased. -/
  | eraseDone (failed : List (Fin 63))
  /-- ERASE_LIMIT, R116: the sectors that do not check erased. -/
  | eraseLimit (failed : List (Fin 63))
  /-- RETRY_TIMER_EXPIRY, R130. -/
  | retryTimerExpiry
  /-- GO_BACK, R133. -/
  | goBack
  /-- LOAD_TIMER_EXPIRY, R151. -/
  | loadTimerExpiry (page : Fin 4)
  /-- FRAME_END, R171. -/
  | frameEnd
  /-- READING, R178. -/
  | reading (channel : Byte) (value : BitVec 16) (valid : Bool)
  /-- STALE_TIMER_EXPIRY, R179. -/
  | staleTimerExpiry (channel : Fin 8)
  /-- RENEWAL_TIMER_EXPIRY, R185. -/
  | renewalTimerExpiry (rule : Fin 8)
  /-- GATHERING_WINDOW_EXPIRY, R187. -/
  | gatheringWindowExpiry
  /-- REPORT_TIMER_EXPIRY, R188. -/
  | reportTimerExpiry
  /-- STATUS_ASK, R194: the origin, 0 for none. -/
  | statusAsk (origin : Byte)
  /-- SEND_SIGN, R193. -/
  | sendSign (kind target zone : Byte) (payload : List Byte)
  /-- OUTBOUND_TRANSFER_START, R195. -/
  | outboundTransferStart
  /-- OUTBOUND_TRANSFER_END, R195. -/
  | outboundTransferEnd
  /-- STATUS_TIMER_EXPIRY, R197. -/
  | statusTimerExpiry
  /-- BAD_MESSAGE, R191: the bytes received while SEND was high. -/
  | badMessage (bytes : List Byte)
  /-- RESET_HELD, R201. -/
  | resetHeld
  deriving DecidableEq, Repr

end Sys2Proof
end

