-- ==== Sys2Proof/Config.lean ====
section
/-! DEFINITION. What an accepted configuration image fixes (R199, R200), and the free values: constants with no body,
standing for what the manual leaves open. -/

namespace Sys2Proof

/-- The role of a node (1.1). -/
inductive Role where
  | roadside
  | terminus
  deriving DecidableEq, Repr

/-- The set of services fitted (R28). -/
structure Services where
  phone : Bool
  toll : Bool
  sign : Bool
  weather : Bool
  deriving DecidableEq, Repr

/-- The two declared reference frequencies (R44). -/
inductive Reference where
  | mhz25
  | mhz1944
  deriving DecidableEq, Repr

/-- The clock mode of the equipment port (R190). -/
inductive ClockMode where
  | master1
  | master2
  | master4
  | slave
  deriving DecidableEq, Repr

/-- The source a weather rule watches (R180). -/
inductive RuleSource where
  | wind
  | rain
  | channel (c : Fin 8)
  | contacts (mask : BitVec 6)
  deriving DecidableEq, Repr

/-- The sense of a weather rule (R180). -/
inductive Sense where
  | above
  | below
  deriving DecidableEq, Repr

/-- One configured weather rule (R180). Kind 0 means unused. -/
structure RuleConfig where
  kind : Nat
  source : RuleSource
  sense : Sense
  raiseAt : Int
  clearAt : Int
  persistence : Nat
  severity : Nat
  lifetime : Nat
  claim : Option (Fin 4 × Nat)
  deriving DecidableEq, Repr

/-- One entry of the sign rule table (R167). Kind 0 means unused. -/
structure SignRule where
  kind : Nat
  minSeverity : Nat
  page : Fin 4
  priority : Nat
  deriving DecidableEq, Repr

/-- One entry of the colour map: drive weight and LED string pattern, bit 0 for STRING-1 (R143). -/
structure ColourEntry where
  weight : Nat
  strings : BitVec 4
  deriving DecidableEq, Repr

/-- The brightness mode (R172). -/
inductive BrightnessMode where
  | fixed
  | mapped
  deriving DecidableEq, Repr

/-- One value for each pulse channel (R67). -/
structure PerPulse (α : Type) where
  wind : α
  rain : α
  deriving DecidableEq, Repr

/-- The values of an accepted image (R200, section 12.5). Lists that the image gives a fixed number of elements have that
number of elements. Times are in the units the image uses. -/
structure Config where
  number : Nat
  role : Role
  services : Services
  /-- ms (R27) -/
  beatInterval : Nat
  reference : Reference
  /-- parts per million (R44) -/
  trim : Int
  dhop : Nat
  slew : Nat
  window : Nat
  timeInput : Bool
  /-- bit 0 HOOK-A, 1 HOOK-B, 2..7 CONTACT-0..5, 8 POWER-WARN; set is HIGH (R59) -/
  resting : BitVec 9
  /-- same bits (R59) -/
  watch : BitVec 9
  /-- s (R68) -/
  pulseWindow : PerPulse Nat
  depth : PerPulse Nat
  scale : PerPulse Nat
  consoleChannels : Nat
  incidentZone : Nat
  /-- s (R80) -/
  incidentHold : Nat
  /-- set is slave, phone port A (R99) -/
  codecSlaveA : Bool
  codecSlaveB : Bool
  runLength : Nat
  clockMode : ClockMode
  eastZone : Nat
  westZone : Nat
  /-- s (R188) -/
  reportInterval : Nat
  /-- s (R197) -/
  nodeInterval : Nat
  /-- least and greatest of reading channels 0..7 (R178) -/
  ranges : List (Int × Int)
  /-- weather rules 0..7 (R180) -/
  rules : List RuleConfig
  signWidth : Nat
  signHeight : Nat
  /-- frames a second (R169) -/
  frameRate : Nat
  brightnessMode : BrightnessMode
  fixedLevel : Nat
  ambient : Fin 8
  /-- P1..P4 (R172) -/
  breakpoints : List Int
  /-- L0..L4 (R172) -/
  bandLevels : List Nat
  powerBudget : Nat
  /-- entries 0..15 (R167) -/
  signRules : List SignRule
  /-- entries 0..15 (R143) -/
  colours : List ColourEntry
  deriving DecidableEq, Repr

/-- An unused weather rule (12.5: the default). -/
def RuleConfig.unused : RuleConfig :=
  { kind := 0, source := .wind, sense := .above, raiseAt := 0, clearAt := 0, persistence := 1, severity := 1,
    lifetime := 600, claim := none }

/-- An unused sign rule (12.5: kind 0). -/
def SignRule.unused : SignRule := { kind := 0, minSeverity := 1, page := 0, priority := 0 }

/-- The colour map when the image gives none (R143). -/
def absentColourMap : List ColourEntry :=
  { weight := 0, strings := 0 } :: List.replicate 15 { weight := 1, strings := 1 }

/-- Every value at the image's default (section 12.5). The number and the role have no default: before acceptance
nothing reads them (DESIGN CHOICE, log entry 2). -/
def Config.initial : Config :=
  { number := 0, role := .roadside, services := ⟨false, false, false, false⟩, beatInterval := 100,
    reference := .mhz25, trim := 0, dhop := 30, slew := 2000, window := 40, timeInput := false, resting := 0,
    watch := BitVec.allOnes 9, pulseWindow := ⟨1, 1⟩, depth := ⟨1, 1⟩, scale := ⟨256, 256⟩, consoleChannels := 2,
    incidentZone := 0, incidentHold := 600, codecSlaveA := false, codecSlaveB := false, runLength := 4,
    clockMode := .master2, eastZone := 5, westZone := 5, reportInterval := 60, nodeInterval := 10,
    ranges := List.replicate 8 (-32768, 32767), rules := List.replicate 8 RuleConfig.unused, signWidth := 0,
    signHeight := 8, frameRate := 200, brightnessMode := .fixed, fixedLevel := 16, ambient := 0,
    breakpoints := [50, 200, 1000, 5000], bandLevels := [4, 8, 12, 16, 16], powerBudget := 1048575,
    signRules := List.replicate 16 SignRule.unused, colours := absentColourMap }

/-- Free value: one bit the manual does not give, fresh at each use (log entry 3). -/
opaque Config.freeBit : Nat → Bool

/-- Free value: what a generation-mark place reads as after its program was abandoned or cut short, fresh at each use
(log entry 4): `none` erased, or some value. -/
opaque Config.freeMark : Nat → Option Nat

/-- Free value: a number the manual does not give, fresh at each use (log entry 9). -/
opaque Config.freeNat : Nat → Nat

/-- Free value: the byte that stands for a sample of silence, which the manual does not give (R95, log entry 5). -/
opaque Config.silenceSample : Byte

end Sys2Proof
end

