-- ==== Sys2Proof/Machine/State.lean ====
section
/-! DEFINITION. The whole state of the node as plain data, its start values, and the reasons a step can stop.
Times on the reference oscillator are counted in its periods since start (`State.refTime`); a timer is stopped (`none`) or
running from a start point with its length. -/

namespace Sys2Proof.Machine

/-- Why a step can stop with a fault. The manual gives every command an effect in every state, so nothing raises one and
the type has no constructor (safe: no run is cut short). -/
inductive Fault where
  deriving DecidableEq, Repr

/-- Why a step can be refused. -/
inductive Refusal where
  /-- Raised by an arm of exec that has no meaning yet; no arm raises it (safe). -/
  | notModelled (mnemonic : String)
  deriving DecidableEq, Repr

/-- The node state (R201). `held` stands for RESET held or the supply not yet sound. -/
inductive NodeState where
  | held
  | loading
  | scanning
  | running
  | repeaterOnly
  deriving DecidableEq, Repr

/-- A running timer: the reference time of its start and its length in µs. -/
structure TimerRun where
  since : Nat
  length : Nat
  deriving DecidableEq, Repr

/-- A timer, stopped (`none`) or running. -/
abbrev Timer := Option TimerRun

/-- A running frame timer: it measures one frame period from its start, the reciprocal of the frame rate in frames a second,
which is no whole number of µs for every rate (R169). -/
structure FrameRun where
  since : Nat
  rate : Nat
  deriving DecidableEq, Repr

/-! ### The stretch line -/

/-- The kinds of line frame (R7). -/
inductive FrameKind where
  | beat
  | creq
  | cacc
  | crel
  | voic
  | walr
  | scmd
  | trec
  | tack
  | sdat
  | srpt
  | wrpt
  | nsta
  deriving DecidableEq, Repr

/-- A whole line frame (R7). Its length field and its check are functions of the rest (`Frame.wire`). -/
structure Frame where
  kind : FrameKind
  hops : Nat
  hopLimit : Nat
  origin : Nat
  target : Nat
  payload : List Byte
  deriving DecidableEq, Repr

/-- The states of a line port (R1). -/
inductive PortState where
  | dark
  | probing
  | lit
  deriving DecidableEq, Repr

/-- The seven line counters of a port (R25). -/
structure LineCounters where
  receivedGood : Counter
  checkErrors : Counter
  malformed : Counter
  numberClashes : Counter
  transitOverflow : Counter
  darkDiscards : Counter
  localRefusals : Counter
  deriving DecidableEq, Repr

/-- The stores of one frame class at one port with the class's consecutive-transit count (R16, R22). -/
structure Lane where
  transit : List Frame
  own : List Frame
  credit : Nat
  deriving DecidableEq, Repr

/-- One line port (Figure 1-2). -/
structure LinePort where
  state : PortState
  /-- whether the receiver last reported light present (R1) -/
  light : Bool
  probe : Nat
  silence : Timer
  urgent : Lane
  bulk : Lane
  /-- the frame the transmitter is sending (R23) -/
  sending : Option Frame
  counters : LineCounters
  deriving DecidableEq, Repr

/-! ### Reach View -/

/-- One entry of the Reach View (R30); its port is the part that holds it, its age the time since `heardAt`. -/
structure ReachEntry where
  node : Nat
  hops : Nat
  role : Role
  interval : Nat
  backlog : Nat
  heardAt : Nat
  deriving DecidableEq, Repr

/-- A way to a terminus: the answer of the terminus choice without its hops (R35, R38), and the steer (Figure 7-1). -/
inductive Route where
  | none
  | self
  | via (node : Nat) (port : PortId)
  deriving DecidableEq, Repr

/-- The Reach View (R27 to R39). -/
structure ReachView where
  east : List ReachEntry
  west : List ReachEntry
  lastReported : Route
  beatTimer : Timer
  badBeat : Counter
  deriving DecidableEq, Repr

/-! ### Line Time -/

/-- Line Time (Figure 3-1). -/
structure LineTime where
  lt : LTime
  acc : BitVec 32
  k : Option (BitVec 32)
  carry : Bool
  settled : Bool
  grade : Nat
  holdback : Nat
  disputes : Counter
  gradeTimer : Timer
  /-- the input lock: locked while the lock timer runs (R56) -/
  lock : Timer
  value : Option LTime
  lapse : Timer
  deriving DecidableEq, Repr

/-! ### Input Watch -/

/-- One level line: the level of its pin, its filtered level (true is HIGH) and its filter wait (R59). The resting level
and the watch enable are those of the accepted image. -/
structure LevelState where
  pin : Bool
  filtered : Bool
  wait : Timer
  deriving DecidableEq, Repr

/-- One pulse channel (R67). -/
structure PulseState where
  count : Nat
  lastEdge : Option Nat
  window : Timer
  history : List Nat
  deriving DecidableEq, Repr

/-- Input Watch (chapter 4). -/
structure Inputs where
  hookA : LevelState
  hookB : LevelState
  contacts : Vector LevelState 6
  powerWarn : LevelState
  pulses : PerPulse PulseState
  deriving DecidableEq, Repr

/-! ### Emergency calls -/

/-- The near end of a call entry (Figure 5-1). -/
inductive NearEnd where
  | phone (ph : PhoneId)
  | console
  deriving DecidableEq, Repr

/-- The states of a call entry (Figures 5-2 and 5-3). -/
inductive CallState where
  | asking
  | waiting
  | talking
  | resuming
  | ringing
  | cleared
  | queued
  | connected
  | calling
  deriving DecidableEq, Repr

/-- A voice frame in a playout buffer. -/
structure VoiceFrame where
  seq : BitVec 16
  samples : List Byte
  deriving DecidableEq, Repr

/-- A playout buffer with its playout record and play timer (R94, R95). -/
structure Playout where
  frames : List VoiceFrame
  lastPlayed : Option (BitVec 16)
  started : Bool
  repeats : Nat
  lastReal : Option (List Byte)
  timer : Timer
  deriving DecidableEq, Repr

/-- One call entry (Figure 5-1), with its slow-phase and after-BUSY marks (R76, R77) and the position an answer gave
(R78). -/
structure CallEntry where
  ref : CallRef
  near : NearEnd
  callersPort : Option PhoneId
  far : Option Nat
  port : Option PortId
  state : CallState
  attempts : Nat
  resume : Bool
  outSeq : BitVec 16
  playout : Playout
  attemptTimer : Timer
  silenceTimer : Timer
  keepTimer : Timer
  ringTimer : Timer
  conceal : Counter
  slow : Bool
  busyWait : Bool
  position : Nat
  deriving DecidableEq, Repr

/-- The cause of a release (R74). -/
inductive ReleaseCause where
  | clear
  | hangup
  | timeout
  | noAnswer
  deriving DecidableEq, Repr

/-- One release of the release list (R83): `left` CRELs are still to be offered. -/
structure Release where
  ref : CallRef
  far : Nat
  port : Option PortId
  cause : ReleaseCause
  left : Nat
  timer : Timer
  deriving DecidableEq, Repr

/-- The tones of an earpiece (R97). -/
inductive Tone where
  | asking
  | waiting
  | fault
  | clear
  deriving DecidableEq, Repr

/-- The outputs of one phone port: the tone given with the period of its cadence, the ring output with its cadence timer,
and the samples the playout last gave the earpiece (R96 to R98). -/
structure PhonePort where
  tone : Option Tone
  tonePeriod : Nat
  toneTimer : Timer
  ring : Bool
  ringTimer : Timer
  played : List Byte
  deriving DecidableEq, Repr

/-- A cabinet message: kind and body (12.4). Its length and check are functions of the rest (`CabMsg.wire`). -/
structure CabMsg where
  kind : Byte
  body : List Byte
  deriving DecidableEq, Repr

/-- Call Control (chapter 5). -/
structure Calls where
  table : Vector (Option CallEntry) 8
  waitOrder : List (Fin 8)
  releases : List Release
  pendingMsgs : List CabMsg
  nextRef : Byte
  phoneA : PhonePort
  phoneB : PhonePort
  voiceLate : Counter
  voiceOverflow : Counter
  consoleDrop : Counter
  signallingDrop : Counter
  deriving DecidableEq, Repr

/-! ### Toll Spool -/

/-- The position of a toll record (R101). -/
structure Position where
  gen : Nat
  seq : Nat
  deriving DecidableEq, Repr

/-- One toll record (R101). -/
structure TollRecord where
  pos : Position
  stamp : LTime
  grade : Nat
  settled : Bool
  gantry : BitVec 16
  lane : Byte
  body : List Byte
  deriving DecidableEq, Repr

/-- The content of one slot of the array whose cells are not all erased: its record cells (`none`: programmed in part),
COMPLETE and DELIVERED (R101, Figure 6-2). -/
structure SlotCells where
  record : Option TollRecord
  complete : Bool
  delivered : Bool
  deriving DecidableEq, Repr

/-- The marks of a sector header (R101). -/
structure Header where
  use : Bool
  weak : Bool
  bad : Bool
  deriving DecidableEq, Repr

/-- The nonvolatile array, in one canonical form: keys strictly rising and no erased content listed. Record slot k of
sector n has key 32 n + k. -/
structure TollArray where
  headers : List (Nat × Header)
  slots : List (Nat × SlotCells)
  marks : List (Nat × Nat)
  deriving DecidableEq, Repr

/-- The state of a slot in working memory (R102); a slot not listed is EMPTY. -/
inductive SlotState where
  | filled (p : Position)
  | delivered (p : Position) (markPending : Bool)
  | void
  deriving DecidableEq, Repr

/-- The six states of a record sector (R103). -/
inductive SectorState where
  | empty
  | filling
  | full
  | reclaim
  | erasing
  | bad
  deriving DecidableEq, Repr

/-- A record sector in working memory: its state, its weak flag and its pending header marks (R103, R108, R113). -/
structure SectorWork where
  state : SectorState
  weak : Bool
  weakMark : Bool
  badMark : Bool
  deriving DecidableEq, Repr

/-- The stamp of a record (R107). -/
structure Stamp where
  lt : LTime
  grade : Nat
  settled : Bool
  deriving DecidableEq, Repr

/-- The held submission (R105); it has a stamp from the start of its first program. -/
structure HeldSubmission where
  tag : Byte
  seq : Nat
  gantry : BitVec 16
  lane : Byte
  body : List Byte
  stamp : Option Stamp
  deriving DecidableEq, Repr

/-- What a mark program programs (R104). -/
inductive MarkTarget where
  | weak (sector : Nat)
  | bad (sector : Nat)
  | delivered (slot : Nat)
  deriving DecidableEq, Repr

/-- The operation being done on the array, erases of a batch apart (R104). -/
inductive ArrayOp where
  | idle
  | recordProgram (slot : Nat) (retry : Bool)
  | markProgram (t : MarkTarget)
  | read (p : Position) (slot : Nat)
  | genMark (place : Nat)
  | markSectorErase
  deriving DecidableEq, Repr

/-- The next thing a generation mark needs (R122). -/
inductive GenStage where
  | program (place : Nat) (second : Bool)
  | eraseSector
  deriving DecidableEq, Repr

/-- A generation mark to be programmed: its value and its next stage. It serves the start scan in SCANNING and a
generation roll in RUNNING (R106, R122). -/
structure GenJob where
  value : Nat
  stage : GenStage
  deriving DecidableEq, Repr

/-- The three states of an erase in progress (R104). -/
inductive ErasePhase where
  | active
  | suspending
  | suspended
  deriving DecidableEq, Repr

/-- The erase in progress: its batch, its state, the active erase time gathered before the present ACTIVE period in periods of
the reference oscillator, and the reference time at which that period began (R115 to R117). -/
structure EraseRun where
  sectors : List Nat
  phase : ErasePhase
  gathered : Nat
  since : Nat
  deriving DecidableEq, Repr

/-- The pending batch (R114). -/
structure Batch where
  sectors : List Nat
  closed : Bool
  timer : Timer
  deriving DecidableEq, Repr

/-- The working memory of the Toll Spool (R103). -/
structure Spool where
  slots : List (Nat × SlotState)
  sectors : List (Nat × SectorWork)
  fillPoint : Option Nat
  generation : Nat
  nextSeq : Nat
  markFault : Bool
  /-- the start scan is reading the array (R120) -/
  scanReading : Bool
  genJob : Option GenJob
  held : Option HeldSubmission
  answer : Option CabMsg
  reads : List Position
  op : ArrayOp
  erase : Option EraseRun
  batch : Option Batch
  heldOut : List Nat
  programFaults : Counter
  markFaults : Counter
  eraseFaults : Counter
  unanswered : Counter
  deriving DecidableEq, Repr

/-! ### Toll Delivery -/

/-- One window entry (Figure 7-2); its send age is the time since `sentAt`. -/
structure WindowEntry where
  pos : Position
  record : Option TollRecord
  sent : Bool
  due : Bool
  sendLT : LTime
  sentAt : Nat
  deriving DecidableEq, Repr

/-- The sending side of Toll Delivery (Figure 7-1, R140). -/
structure Sending where
  steer : Route
  window : List WindowEntry
  retry : Timer
  trecs : Counter
  refusedOffers : Counter
  goBacks : Counter
  resteers : Counter
  strayTacks : Counter
  badTacks : Counter
  deriving DecidableEq, Repr

/-- A known receipt entry (Figure 7-3). -/
structure ReceiptEntry where
  last : Position
  expected : Position
  deriving DecidableEq, Repr

/-- The receipt of a terminus (R135, R141); an origin not listed is not known. -/
structure Receipt where
  table : List (Nat × ReceiptEntry)
  accepted : Counter
  duplicate : Counter
  outOfOrder : Counter
  queueFull : Counter
  badTrecs : Counter
  tacks : Counter
  deriving DecidableEq, Repr

/-! ### Signs -/

/-- The state of a page (R145). -/
inductive PageState where
  | free
  | loading
  | ready
  deriving DecidableEq, Repr

/-- One page record (Figure 8-2). -/
structure PageRecord where
  state : PageState
  loadId : Option Byte
  origin : Option Nat
  port : Option PortId
  next : Nat
  lit : Nat
  drive : Nat
  activity : Option LTime
  timer : Timer
  deriving DecidableEq, Repr

/-- Sign Page Memory (chapter 8). `pixels` is the pixel store: the colour of pixel x of row y of page p is the byte at
address 16384 p + 256 y + x, an address not listed holds colour 0. -/
structure Pages where
  pixels : List Host.Cell
  records : Vector PageRecord 4
  badSdat : Counter
  refusedSdat : Counter
  duplicate : Counter
  superseded : Counter
  aborted : Counter
  loaded : Counter
  deriving DecidableEq, Repr

/-- Who holds a claim (R160). -/
inductive Claimant where
  | centre
  | rule (n : Fin 8)
  | alert (origin kind : Nat)
  deriving DecidableEq, Repr

/-- One claim (R160). -/
structure Claim where
  claimant : Claimant
  page : Fin 4
  priority : Nat
  expiry : Option LTime
  showAt : Option LTime
  placedBy : Option Nat
  deriving DecidableEq, Repr

/-- Sign Display (Figure 9-1). A displayed page of `none` is BLANK. -/
structure Display where
  claims : List Claim
  page : Option (Fin 4)
  claimant : Option Claimant
  requested : Nat
  applied : Nat
  overload : Bool
  owed : Bool
  frameTimer : Option FrameRun
  badScmd : Counter
  strayScmd : Counter
  refused : Counter
  evicted : Counter
  changes : Counter
  overloads : Counter
  deriving DecidableEq, Repr

/-! ### Weather -/

/-- One reading channel (R178). -/
structure ReadingChannel where
  value : Int
  valid : Bool
  stale : Bool
  timer : Timer
  saturations : Counter
  deriving DecidableEq, Repr

/-- The state of a weather rule (R183). -/
inductive RuleState where
  | clear
  | pending (k : Nat)
  | raised
  | clearing (k : Nat)
  deriving DecidableEq, Repr

/-- One weather rule in work: its state, its contact group state (set is departed) and its renewal timer. -/
structure RuleWork where
  state : RuleState
  group : Bool
  renewal : Timer
  deriving DecidableEq, Repr

/-- One item of the gathering (R186). -/
structure GatherItem where
  rule : Fin 8
  kind : Nat
  severity : Nat
  lifetime : Nat
  withdraw : Bool
  deriving DecidableEq, Repr

/-- Weather Monitor (Figure 10-1). -/
structure Weather where
  values : PerPulse (Option Nat)
  saturations : PerPulse Counter
  channels : Vector ReadingChannel 8
  rules : Vector RuleWork 8
  gathering : List GatherItem
  windowTimer : Timer
  reportTimer : Timer
  badReading : Counter
  walrs : Counter
  alertLost : Counter
  reportLost : Counter
  deriving DecidableEq, Repr

/-! ### Equipment port and the whole node -/

/-- The equipment port (Figure 11-1) with the node status report (R197, R198). -/
structure Equip where
  outbound : List CabMsg
  /-- the message being sent; RUNNING is high while there is one (R195) -/
  transfer : Option CabMsg
  badMessage : Counter
  notReady : Counter
  misdirected : Counter
  outboundDrop : Counter
  sendSignLost : Counter
  statusLost : Counter
  reportNumber : BitVec 16
  statusTimer : Timer
  deriving DecidableEq, Repr

/-- The whole state of the node. `refTime`, `freeCount` and `pending` are the model's own. -/
structure State where
  node : NodeState
  cfg : Config
  /-- the read of the image, 50 ms from the start of LOADING (R199) -/
  loadTimer : Timer
  east : LinePort
  west : LinePort
  clash : Bool
  reach : ReachView
  time : LineTime
  inputs : Inputs
  calls : Calls
  array : TollArray
  spool : Spool
  sending : Sending
  receipt : Receipt
  pages : Pages
  display : Display
  weather : Weather
  equip : Equip
  /-- periods of the reference oscillator since start -/
  refTime : Nat
  /-- how many free values have been taken -/
  freeCount : Nat
  /-- commands waiting, first in first out -/
  pending : List Instr
  deriving DecidableEq, Repr

/-! ### Start values -/

/-- Both stores empty and the count 0 (R1, R16). -/
def Lane.initial : Lane := { transit := [], own := [], credit := 0 }

/-- A line port at start (R1, R25). -/
def LinePort.initial : LinePort :=
  { state := .dark, light := false, probe := 0, silence := none, urgent := Lane.initial, bulk := Lane.initial,
    sending := none, counters := ⟨0, 0, 0, 0, 0, 0, 0⟩ }

/-- The Reach View at start (R27, R29, R30, R38). -/
def ReachView.initial : ReachView :=
  { east := [], west := [], lastReported := .none, beatTimer := none, badBeat := 0 }

/-- Line Time at start (R41). -/
def LineTime.initial : LineTime :=
  { lt := 0, acc := 0, k := none, carry := false, settled := false, grade := 0, holdback := 0, disputes := 0,
    gradeTimer := none, lock := none, value := none, lapse := none }

/-- A level line at start: filtered level LOW, filter wait stopped (R59). The pin is outside the part; LOW until a pin
change says otherwise (DESIGN CHOICE, log entry 2). -/
def LevelState.initial : LevelState := { pin := false, filtered := false, wait := none }

/-- A pulse channel at start (R67, R69). -/
def PulseState.initial : PulseState := { count := 0, lastEdge := none, window := none, history := [] }

/-- Input Watch at start. -/
def Inputs.initial : Inputs :=
  { hookA := LevelState.initial, hookB := LevelState.initial, contacts := Vector.replicate 6 LevelState.initial,
    powerWarn := LevelState.initial, pulses := ⟨PulseState.initial, PulseState.initial⟩ }

/-- A playout just reset (R95). -/
def Playout.initial : Playout :=
  { frames := [], lastPlayed := none, started := false, repeats := 0, lastReal := none, timer := none }

/-- A phone port at start: ring output inactive, silence toward the earpiece (R71). -/
def PhonePort.initial : PhonePort :=
  { tone := none, tonePeriod := 0, toneTimer := none, ring := false, ringTimer := none, played := [] }

/-- Call Control at start (R71, R100). -/
def Calls.initial : Calls :=
  { table := Vector.replicate 8 none, waitOrder := [], releases := [], pendingMsgs := [], nextRef := 0,
    phoneA := PhonePort.initial, phoneB := PhonePort.initial, voiceLate := 0, voiceOverflow := 0, consoleDrop := 0,
    signallingDrop := 0 }

/-- An array never written (DESIGN CHOICE, log entry 2: the manual says the array holds whatever the last run left). -/
def TollArray.erased : TollArray := { headers := [], slots := [], marks := [] }

/-- The working memory of the spool at start (R103, R114, R123). -/
def Spool.initial : Spool :=
  { slots := [], sectors := [], fillPoint := none, generation := 0, nextSeq := 0, markFault := false,
    scanReading := false, genJob := none, held := none, answer := none, reads := [], op := .idle, erase := none,
    batch := none, heldOut := [], programFaults := 0, markFaults := 0, eraseFaults := 0, unanswered := 0 }

/-- The sending side at start (R125, R140). -/
def Sending.initial : Sending :=
  { steer := .none, window := [], retry := none, trecs := 0, refusedOffers := 0, goBacks := 0, resteers := 0,
    strayTacks := 0, badTacks := 0 }

/-- The receipt at start (R135, R141). -/
def Receipt.initial : Receipt :=
  { table := [], accepted := 0, duplicate := 0, outOfOrder := 0, queueFull := 0, badTrecs := 0, tacks := 0 }

/-- A page record at start (R145). -/
def PageRecord.initial : PageRecord :=
  { state := .free, loadId := none, origin := none, port := none, next := 0, lit := 0, drive := 0, activity := none,
    timer := none }

/-- Sign Page Memory at start (R144, R145, R158). -/
def Pages.initial : Pages :=
  { pixels := [], records := Vector.replicate 4 PageRecord.initial, badSdat := 0, refusedSdat := 0, duplicate := 0,
    superseded := 0, aborted := 0, loaded := 0 }

/-- Sign Display at start (R159, R175). -/
def Display.initial : Display :=
  { claims := [], page := none, claimant := none, requested := 1, applied := 1, overload := false, owed := false,
    frameTimer := none, badScmd := 0, strayScmd := 0, refused := 0, evicted := 0, changes := 0, overloads := 0 }

/-- A reading channel at start (R176). -/
def ReadingChannel.initial : ReadingChannel :=
  { value := 0, valid := false, stale := false, timer := none, saturations := 0 }

/-- A weather rule at start (R176). -/
def RuleWork.initial : RuleWork := { state := .clear, group := false, renewal := none }

/-- Weather Monitor at start (R176, R189). -/
def Weather.initial : Weather :=
  { values := ⟨none, none⟩, saturations := ⟨0, 0⟩, channels := Vector.replicate 8 ReadingChannel.initial,
    rules := Vector.replicate 8 RuleWork.initial, gathering := [], windowTimer := none, reportTimer := none,
    badReading := 0, walrs := 0, alertLost := 0, reportLost := 0 }

/-- The equipment port at start (R190, R197, R198). -/
def Equip.initial : Equip :=
  { outbound := [], transfer := none, badMessage := 0, notReady := 0, misdirected := 0, outboundDrop := 0,
    sendSignLost := 0, statusLost := 0, reportNumber := 0, statusTimer := none }

/-- The node right after a start: LOADING, every item at its start value (R201), nothing waiting in the queue. -/
def State.reset : State :=
  { node := .loading, cfg := Config.initial, loadTimer := some ⟨0, 50000⟩, east := LinePort.initial,
    west := LinePort.initial, clash := false, reach := ReachView.initial, time := LineTime.initial,
    inputs := Inputs.initial, calls := Calls.initial, array := TollArray.erased, spool := Spool.initial,
    sending := Sending.initial, receipt := Receipt.initial, pages := Pages.initial, display := Display.initial,
    weather := Weather.initial, equip := Equip.initial, refTime := 0, freeCount := 0, pending := [] }

end Sys2Proof.Machine
end

