-- ==== Sys2Proof/Machine/Ops.lean ====
section
/-! DEFINITION. The named operations over the state that every block shares: counters, timers, sparse stores, pixel memory,
line-port access and free values. -/

namespace Sys2Proof.Machine

/-- A counter after n more occurrences: it stays at 65,535 once there (1.5). -/
def bumpBy (n : Nat) (c : Counter) : Counter := BitVec.ofNat 16 (min (c.toNat + n) 65535)

/-- A counter after one more occurrence. -/
def bump (c : Counter) : Counter := bumpBy 1 c

/-- A number moved to the nearer end of its range (R200). -/
def clamp (lo hi n : Nat) : Nat := max lo (min hi n)

/-- A signed number moved to the nearer end of its range (R200). -/
def clampInt (lo hi n : Int) : Int := max lo (min hi n)

/-! ### Time -/

/-- The declared reference frequency in Hz (R44). -/
def referenceHz : Reference → Nat
  | .mhz25 => 25000000
  | .mhz1944 => 19440000

/-- A timer started now with a length in µs. -/
def State.startTimer (s : State) (us : Nat) : Timer := some ⟨s.refTime, us⟩

/-- The frame timer starts now for one frame period (R169). -/
def State.framePeriod (s : State) : Option FrameRun := some ⟨s.refTime, s.cfg.frameRate⟩

/-- The µs on the reference oscillator since a reference time. -/
def State.elapsedUs (s : State) (since : Nat) : Nat :=
  (s.refTime - since) * 1000000 / referenceHz s.cfg.reference

/-- The signed difference of two Line Time values (R42). -/
def ltDiff (a b : LTime) : Int := (a - b).toInt

/-- A time is due at LT when it is not later than LT (R42). -/
def ltDue (a lt : LTime) : Bool := ltDiff a lt ≤ 0

/-! ### Sparse stores: lists of keys and values, keys strictly rising -/

/-- The value stored under a key. -/
def keyGet {α : Type} : List (Nat × α) → Nat → Option α
  | [], _ => none
  | (k, v) :: rest, a => if a = k then some v else keyGet rest a

/-- The store with a value put under a key. -/
def keySet {α : Type} : List (Nat × α) → Nat → α → List (Nat × α)
  | [], a, x => [(a, x)]
  | (k, v) :: rest, a, x =>
    if a < k then (a, x) :: (k, v) :: rest
    else if a = k then (a, x) :: rest
    else (k, v) :: keySet rest a x

/-- The store without a key. -/
def keyDel {α : Type} : List (Nat × α) → Nat → List (Nat × α)
  | [], _ => []
  | (k, v) :: rest, a => if a = k then rest else (k, v) :: keyDel rest a

/-- The keys of a store are strictly rising. -/
def keysRising {α : Type} : List (Nat × α) → Bool
  | [] => true
  | [_] => true
  | (a, _) :: (b, y) :: rest => decide (a < b) && keysRising ((b, y) :: rest)

/-! ### Pixel memory (R144): an address not listed reads as colour 0, the content of a page at start -/

/-- What one address of the pixel store reads as. -/
def readPixelCell (m : List Host.Cell) (a : Nat) : Byte := (keyGet m a).getD 0

/-- The pixel store after one address is written; colour 0 is not listed. -/
def writePixelCell (m : List Host.Cell) (a : Nat) (v : Byte) : List Host.Cell :=
  if v = 0 then keyDel m a else keySet m a v

/-- The canonical form of the pixel store: addresses strictly rising, no colour 0 listed. -/
def Memory.wf (m : List Host.Cell) : Bool := keysRising m && m.all fun c => c.2 != 0

/-- The address of pixel x of row y of a page. -/
def pixelAddr (page y x : Nat) : Nat := 16384 * page + 256 * y + x

/-! ### Line ports -/

/-- The port on the other side (1.5). -/
def opposite : PortId → PortId
  | .east => .west
  | .west => .east

/-- One of the two line ports. -/
def State.port (s : State) : PortId → LinePort
  | .east => s.east
  | .west => s.west

/-- The state with one line port replaced. -/
def State.setPort (s : State) (p : PortId) (q : LinePort) : State :=
  match p with
  | .east => { s with east := q }
  | .west => { s with west := q }

/-- One dark discard more at a port, n times (R25). -/
def LinePort.countDark (q : LinePort) (n : Nat) : LinePort :=
  { q with counters := { q.counters with darkDiscards := bumpBy n q.counters.darkDiscards } }

/-- One part of the Reach View (R30). -/
def ReachView.part (r : ReachView) : PortId → List ReachEntry
  | .east => r.east
  | .west => r.west

/-- The Reach View with one part replaced. -/
def ReachView.setPart (r : ReachView) (p : PortId) (l : List ReachEntry) : ReachView :=
  match p with
  | .east => { r with east := l }
  | .west => { r with west := l }

/-! ### Input lines, phone ports, pulse channels -/

/-- One level line's state. -/
def Inputs.line (i : Inputs) : LevelLine → LevelState
  | .hookA => i.hookA
  | .hookB => i.hookB
  | .contact c => i.contacts[c]
  | .powerWarn => i.powerWarn

/-- Input Watch with one level line's state replaced. -/
def Inputs.setLine (i : Inputs) (l : LevelLine) (v : LevelState) : Inputs :=
  match l with
  | .hookA => { i with hookA := v }
  | .hookB => { i with hookB := v }
  | .contact c => { i with contacts := i.contacts.set c v }
  | .powerWarn => { i with powerWarn := v }

/-- The value of a pair for one pulse channel. -/
def pulseGet {α : Type} (p : PerPulse α) : PulseId → α
  | .wind => p.wind
  | .rain => p.rain

/-- A pair with one pulse channel's value replaced. -/
def pulseSet {α : Type} (p : PerPulse α) (c : PulseId) (v : α) : PerPulse α :=
  match c with
  | .wind => { p with wind := v }
  | .rain => { p with rain := v }

/-- One phone port's outputs. -/
def Calls.phone (c : Calls) : PhoneId → PhonePort
  | .phoneA => c.phoneA
  | .phoneB => c.phoneB

/-- Call Control with one phone port's outputs replaced. -/
def Calls.setPhone (c : Calls) (ph : PhoneId) (v : PhonePort) : Calls :=
  match ph with
  | .phoneA => { c with phoneA := v }
  | .phoneB => { c with phoneB := v }

/-! ### Free values -/

/-- A fresh free bit (log entry 3). -/
def State.takeBit (s : State) : Bool × State :=
  (Config.freeBit s.freeCount, { s with freeCount := s.freeCount + 1 })

/-! ### Positions of toll records -/

/-- Positions are compared first by generation and then by sequence (R101). -/
def posLt (a b : Position) : Bool := decide (a.gen < b.gen) || (decide (a.gen = b.gen) && decide (a.seq < b.seq))

/-- At or before. -/
def posLe (a b : Position) : Bool := !posLt b a

/-- The successor of a position (R135). -/
def posSucc (p : Position) : Position :=
  if p.seq < 4294967295 then ⟨p.gen, p.seq + 1⟩ else ⟨if p.gen + 1 = 65536 then 1 else p.gen + 1, 1⟩

end Sys2Proof.Machine
end

