-- ==== Sys2Proof/Machine/Operands.lean ====
section
/-! DEFINITION. The layouts of chapter 12: line frames, payloads, cabinet messages and the configuration image, with the two
checks. -/

namespace Sys2Proof.Machine

/-! ### Numbers and bytes (R202) -/

/-- A number as k bytes, most significant first. -/
def bytesBE : Nat → Nat → List Byte
  | 0, _ => []
  | k + 1, n => BitVec.ofNat 8 (n / 256 ^ k) :: bytesBE k n

/-- The number that bytes spell, most significant first. -/
def natBE (l : List Byte) : Nat := l.foldl (fun a b => a * 256 + b.toNat) 0

/-- The number in n bytes from an offset. -/
def field (l : List Byte) (off n : Nat) : Nat := natBE ((l.drop off).take n)

/-- A 16-bit field read as two's complement. -/
def signed16 (n : Nat) : Int := (BitVec.ofNat 16 n).toInt

/-- A signed number as 2 bytes. -/
def bytesSigned16 (n : Int) : List Byte := bytesBE 2 (BitVec.ofInt 16 n).toNat

/-- A flag byte: set is sent as 1 (log entry 6). -/
def flagByte (b : Bool) : Byte := if b then 1 else 0

/-- A Line Time value as 6 bytes. -/
def bytesLT (t : LTime) : List Byte := bytesBE 6 t.toNat

/-- A counter as 2 bytes. -/
def bytesCounter (c : Counter) : List Byte := bytesBE 2 c.toNat

/-- A position as a 2-byte generation and a 4-byte sequence. -/
def bytesPos (p : Position) : List Byte := bytesBE 2 p.gen ++ bytesBE 4 p.seq

/-- The position at an offset. -/
def posAt (l : List Byte) (off : Nat) : Position := ⟨field l off 2, field l (off + 2) 4⟩

/-- A call reference as 2 bytes (12.2). -/
def bytesRef (r : CallRef) : List Byte := [r.origin, r.num]

/-- One byte at an offset, 0 beyond the end. -/
def byteAt (l : List Byte) (off : Nat) : Byte := l.getD off 0

/-- The call reference a payload carries at its start. -/
def refAt (l : List Byte) : CallRef := ⟨byteAt l 0, byteAt l 1⟩

/-! ### Checks (R202, R203) -/

/-- One bit of a check register: shifted left, with the polynomial when the top bit was set. -/
def crcShift {w : Nat} (poly c : BitVec w) : BitVec w := if c.msb then (c <<< 1) ^^^ poly else c <<< 1

/-- One byte taken into a check register, most significant bit first. -/
def crcByte {w : Nat} (poly c : BitVec w) (b : Byte) : BitVec w :=
  let f := crcShift poly
  f (f (f (f (f (f (f (f (c ^^^ (b.setWidth w <<< (w - 8))))))))))

/-- The CRC-32 of a line frame (R202). -/
def crc32 (l : List Byte) : BitVec 32 := ~~~ (l.foldl (crcByte 0x04C11DB7#32) 0xFFFFFFFF#32)

/-- The CRC-16 of cabinet messages and of the image (R203). -/
def crc16 (l : List Byte) : BitVec 16 := l.foldl (crcByte 0x1021#16) 0xFFFF#16

/-! ### Line frames (R7, R8, 12.2) -/

/-- The code of a frame kind (R7). -/
def FrameKind.code : FrameKind → Nat
  | .beat => 1
  | .creq => 2
  | .cacc => 3
  | .crel => 4
  | .voic => 5
  | .walr => 6
  | .scmd => 7
  | .trec => 8
  | .tack => 9
  | .sdat => 10
  | .srpt => 11
  | .wrpt => 12
  | .nsta => 13

/-- The frame kind of a code (R7). -/
def frameKindOf : Nat → Option FrameKind
  | 1 => some .beat
  | 2 => some .creq
  | 3 => some .cacc
  | 4 => some .crel
  | 5 => some .voic
  | 6 => some .walr
  | 7 => some .scmd
  | 8 => some .trec
  | 9 => some .tack
  | 10 => some .sdat
  | 11 => some .srpt
  | 12 => some .wrpt
  | 13 => some .nsta
  | _ => none

/-- The class of a kind: true for URGENT, false for BULK (R7). -/
def FrameKind.isUrgent : FrameKind → Bool
  | .beat | .creq | .cacc | .crel | .voic | .walr | .scmd => true
  | .trec | .tack | .sdat | .srpt | .wrpt | .nsta => false

/-- Header and payload of a frame (12.2). -/
def Frame.covered (f : Frame) : List Byte :=
  [BitVec.ofNat 8 f.kind.code, BitVec.ofNat 8 f.hops, BitVec.ofNat 8 f.hopLimit, BitVec.ofNat 8 f.origin,
    BitVec.ofNat 8 f.target] ++ bytesBE 2 f.payload.length ++ f.payload

/-- The bytes of a frame on the line, its check newly computed (R7, R14, R18). -/
def Frame.wire (f : Frame) : List Byte := f.covered ++ bytesBE 4 (crc32 f.covered).toNat

/-- What the receive checks find (R8). -/
inductive FrameCheck where
  | malformed
  | checkError
  | good (f : Frame)
  deriving DecidableEq, Repr

/-- The receive checks in their order (R8). -/
def checkFrame (b : List Byte) : FrameCheck :=
  if b.length < 11 ∨ 267 < b.length then .malformed
  else if bytesBE 4 (crc32 (b.take (b.length - 4))).toNat ≠ b.drop (b.length - 4) then .checkError
  else if field b 5 2 ≠ b.length - 11 then .malformed
  else
    match frameKindOf (field b 0 1) with
    | none => .malformed
    | some k =>
      if 254 < field b 1 1 ∨ field b 2 1 = 0 ∨ field b 3 1 = 0 ∨ 240 < field b 3 1 ∨ 241 < field b 4 1 then .malformed
      else .good
        { kind := k, hops := field b 1 1, hopLimit := field b 2 1, origin := field b 3 1, target := field b 4 1,
          payload := (b.drop 7).take (b.length - 11) }

/-- The code of a role (12.3, BEAT). -/
def roleCode : Role → Nat
  | .roadside => 1
  | .terminus => 2

/-- The role of a code. -/
def roleOf : Nat → Option Role
  | 1 => some .roadside
  | 2 => some .terminus
  | _ => none

/-- The services byte (12.3, BEAT). -/
def servicesByte (v : Services) : Byte :=
  BitVec.ofNat 8 (v.phone.toNat + 2 * v.toll.toNat + 4 * v.sign.toNat + 8 * v.weather.toNat)

/-- The services of a byte; bits that name none are ignored (R200, R202). -/
def servicesOf (b : Byte) : Services := ⟨b.getLsbD 0, b.getLsbD 1, b.getLsbD 2, b.getLsbD 3⟩

/-! ### BEAT -/

/-- The fields of a BEAT (R28). -/
structure Beat where
  node : Nat
  role : Role
  interval : Nat
  grade : Nat
  ts : LTime
  settled : Bool
  backlog : Nat
  deriving DecidableEq, Repr

/-- The acceptance checks of a BEAT: `none` is rejected (R29). -/
def acceptBeat (f : Frame) : Option Beat :=
  match roleOf (field f.payload 1 1) with
  | none => none
  | some role =>
    if f.target = 0 ∧ f.payload.length = 15 ∧ field f.payload 0 1 = f.origin ∧ 50 ≤ field f.payload 3 2 ∧
        field f.payload 3 2 ≤ 1000 ∧ field f.payload 5 1 ≤ 7 then
      some { node := f.origin, role := role, interval := field f.payload 3 2, grade := field f.payload 5 1,
             ts := BitVec.ofNat 48 (field f.payload 6 6), settled := field f.payload 12 1 != 0,
             backlog := field f.payload 13 2 }
    else none

/-- The payload of a BEAT with the given time fields (12.3). -/
def beatPayload (cfg : Config) (backlog grade : Nat) (ts : LTime) (settled : Bool) : List Byte :=
  [BitVec.ofNat 8 cfg.number, BitVec.ofNat 8 (roleCode cfg.role), servicesByte cfg.services] ++
    bytesBE 2 cfg.beatInterval ++ [BitVec.ofNat 8 grade] ++ bytesLT ts ++ [flagByte settled] ++ bytesBE 2 backlog

/-- A waiting BEAT with its time fields filled in (R18, R28). -/
def fillBeat (payload : List Byte) (grade : Nat) (ts : LTime) (settled : Bool) : List Byte :=
  payload.take 5 ++ [BitVec.ofNat 8 grade] ++ bytesLT ts ++ [flagByte settled] ++ payload.drop 13

/-! ### Call frames (R74, R204) -/

/-- The request of a CREQ. -/
inductive CallRequest where
  | ask
  | resume
  | ring
  deriving DecidableEq, Repr

/-- The answer of a CACC. -/
inductive CallAnswer where
  | accept
  | queued
  | busy
  | ringing
  deriving DecidableEq, Repr

/-- A CREQ taken apart. -/
structure Creq where
  ref : CallRef
  request : CallRequest
  phone : Option PhoneId
  attempts : Nat
  deriving DecidableEq, Repr

/-- A CACC taken apart. -/
structure Cacc where
  ref : CallRef
  answer : CallAnswer
  position : Nat
  deriving DecidableEq, Repr

/-- The code of a phone port; a console is 0 (12.3). -/
def phoneCode : Option PhoneId → Nat
  | none => 0
  | some .phoneA => 1
  | some .phoneB => 2

/-- The phone port of a code. -/
def phoneOf : Nat → Option PhoneId
  | 1 => some .phoneA
  | 2 => some .phoneB
  | _ => none

/-- The code of a request (12.3). -/
def CallRequest.code : CallRequest → Nat
  | .ask => 1
  | .resume => 2
  | .ring => 3

/-- The request of a code. -/
def callRequestOf : Nat → Option CallRequest
  | 1 => some .ask
  | 2 => some .resume
  | 3 => some .ring
  | _ => none

/-- The code of an answer (12.3). -/
def CallAnswer.code : CallAnswer → Nat
  | .accept => 1
  | .queued => 2
  | .busy => 3
  | .ringing => 4

/-- The answer of a code. -/
def callAnswerOf : Nat → Option CallAnswer
  | 1 => some .accept
  | 2 => some .queued
  | 3 => some .busy
  | 4 => some .ringing
  | _ => none

/-- The code of a release cause (12.3). -/
def ReleaseCause.code : ReleaseCause → Nat
  | .clear => 1
  | .hangup => 2
  | .timeout => 3
  | .noAnswer => 4

/-- The release cause of a code. -/
def releaseCauseOf : Nat → Option ReleaseCause
  | 1 => some .clear
  | 2 => some .hangup
  | 3 => some .timeout
  | 4 => some .noAnswer
  | _ => none

/-- A CREQ payload taken apart, or none when it is dropped (R204). A phone port code above 2 names no port and is read as
none (log entry 20, DEDUCED). -/
def parseCreq (p : List Byte) : Option Creq :=
  if p.length = 5 then
    (callRequestOf (field p 2 1)).map fun q =>
      { ref := refAt p, request := q, phone := phoneOf (field p 3 1), attempts := field p 4 1 }
  else none

/-- A CACC payload taken apart, or none when it is dropped (R204). -/
def parseCacc (p : List Byte) : Option Cacc :=
  if p.length = 4 then
    (callAnswerOf (field p 2 1)).map fun a => { ref := refAt p, answer := a, position := field p 3 1 }
  else none

/-- A CREL payload taken apart, or none when it is dropped (R204). -/
def parseCrel (p : List Byte) : Option (CallRef × ReleaseCause) :=
  if p.length = 3 then (releaseCauseOf (field p 2 1)).map fun c => (refAt p, c) else none

/-- A VOIC payload taken apart, or none when it is dropped (R204). -/
def parseVoic (p : List Byte) : Option (CallRef × VoiceFrame) :=
  if p.length = 44 then some (refAt p, ⟨BitVec.ofNat 16 (field p 2 2), p.drop 4⟩) else none

/-! ### Toll frames -/

/-- One record of a TREC (12.3): 57 bytes. -/
def recordBytes (r : TollRecord) : List Byte :=
  bytesPos r.pos ++ bytesLT r.stamp ++ [BitVec.ofNat 8 r.grade, flagByte r.settled] ++ bytesBE 2 r.gantry.toNat ++
    [r.lane] ++ r.body

/-- The record whose 57 bytes start at an offset. -/
def recordAt (p : List Byte) (off : Nat) : TollRecord :=
  { pos := posAt p off, stamp := BitVec.ofNat 48 (field p (off + 6) 6), grade := field p (off + 12) 1,
    settled := field p (off + 13) 1 != 0, gantry := BitVec.ofNat 16 (field p (off + 14) 2),
    lane := byteAt p (off + 16), body := (p.drop (off + 17)).take 40 }

/-- A TREC payload (12.3). -/
def trecPayload (base : Position) (rs : List TollRecord) : List Byte :=
  BitVec.ofNat 8 rs.length :: bytesPos base ++ rs.flatMap recordBytes

/-- A position with generation 0 or sequence 0 is none that a record carries (R103). -/
def posBad (p : Position) : Bool := p.gen == 0 || p.seq == 0

/-- A good TREC's base and records, or none when it is bad (R136). -/
def parseTrec (p : List Byte) : Option (Position × List TollRecord) :=
  let n := field p 0 1
  let rs := (List.range n).map fun i => recordAt p (7 + 57 * i)
  if (n = 1 ∨ n = 2 ∨ n = 4) ∧ p.length = 7 + 57 * n ∧ posBad (posAt p 1) = false ∧
      rs.all (fun r => !posBad r.pos && decide (r.grade ≤ 7)) = true then
    some (posAt p 1, rs)
  else none

/-- A good TACK's ack point, or none when it is bad (R131). -/
def parseTack (p : List Byte) : Option Position :=
  if p.length = 6 ∧ posBad (posAt p 0) = false then some (posAt p 0) else none

/-! ### Weather and sign frames -/

/-- An alert item (R167). -/
structure AlertItem where
  kind : Nat
  severity : Nat
  lifetime : Nat
  withdraw : Bool
  deriving DecidableEq, Repr

/-- The 7 bytes of an alert item (12.3). -/
def alertItemBytes (a : AlertItem) : List Byte :=
  [BitVec.ofNat 8 a.kind, BitVec.ofNat 8 a.severity] ++ bytesBE 4 a.lifetime ++ [flagByte a.withdraw]

/-- A WALR payload (12.3). -/
def walrPayload (items : List AlertItem) : List Byte :=
  BitVec.ofNat 8 items.length :: items.flatMap alertItemBytes

/-- A good WALR's items, or none when it is bad (R204). -/
def parseWalr (p : List Byte) : Option (List AlertItem) :=
  let n := field p 0 1
  let items := (List.range n).map fun i =>
    { kind := field p (1 + 7 * i) 1, severity := field p (2 + 7 * i) 1, lifetime := field p (3 + 7 * i) 4,
      withdraw := field p (7 + 7 * i) 1 != 0 : AlertItem }
  if 1 ≤ n ∧ n ≤ 8 ∧ p.length = 1 + 7 * n ∧
      items.all (fun a => decide (1 ≤ a.kind ∧ a.kind ≤ 15 ∧ 1 ≤ a.severity ∧ a.severity ≤ 3)) = true then
    some items
  else none

/-- A good SCMD (R163). -/
inductive SignCommand where
  | claim (page : Fin 4) (priority lifetime : Nat) (showAt : Option LTime)
  | withdraw
  | purge
  deriving DecidableEq, Repr

/-- A good SCMD's command, or none when it is bad (R163). -/
def parseScmd (p : List Byte) : Option SignCommand :=
  match field p 0 1 with
  | 1 =>
    if h : p.length = 14 ∧ field p 1 1 < 4 ∧ field p 2 1 ≤ 15 then
      some (.claim ⟨field p 1 1, h.2.1⟩ (field p 2 1) (field p 3 4)
        (if field p 7 1 = 0 then none else some (BitVec.ofNat 48 (field p 8 6))))
    else none
  | 2 => if p.length = 1 then some .withdraw else none
  | 3 => if p.length = 1 then some .purge else none
  | _ => none

/-- The function of a PLANE write (R146). -/
inductive PlaneFn where
  | replace
  | and
  | or
  | xor
  deriving DecidableEq, Repr

/-- The write of a fragment (R146). -/
inductive SignWrite where
  | nothing
  | plane (row col : Nat) (planes : BitVec 4) (fn : PlaneFn) (rotate : Nat) (mask : Byte) (data : List Byte)
  | colour (row col : Nat) (mask : Byte) (colour : Nat) (data : List Byte)
  | copy (row col : Nat) (mask : Byte) (srcPage : Fin 4) (srcRow srcCol count : Nat)
  deriving DecidableEq, Repr

/-- A good SDAT (R146). -/
structure Sdat where
  page : Fin 4
  loadId : Byte
  index : Nat
  first : Bool
  last : Bool
  clear : Bool
  write : SignWrite
  deriving DecidableEq, Repr

/-- The function of a code (12.3). -/
def planeFnOf : Nat → Option PlaneFn
  | 0 => some .replace
  | 1 => some .and
  | 2 => some .or
  | 3 => some .xor
  | _ => none

/-- The write of an SDAT payload, or none when it makes the SDAT bad (R146). PLANE and COLOUR carry the same fields, and
each is checked in both. -/
def parseWrite (p : List Byte) : Option SignWrite :=
  match field p 5 1 with
  | 0 => if p.length = 6 then some .nothing else none
  | 3 =>
    if h : p.length = 13 ∧ field p 9 1 < 4 ∧ 1 ≤ field p 12 1 ∧ field p 12 1 ≤ 200 then
      some (.copy (field p 6 1) (field p 7 1) (byteAt p 8) ⟨field p 9 1, h.2.1⟩ (field p 10 1) (field p 11 1)
        (field p 12 1))
    else none
  | m =>
    match planeFnOf (field p 9 1) with
    | none => none
    | some fn =>
      if 14 ≤ p.length ∧ p.length = 14 + field p 13 1 ∧ 1 ≤ field p 13 1 ∧ field p 13 1 ≤ 200 ∧ field p 12 1 ≤ 15 then
        if m = 1 then
          some (.plane (field p 6 1) (field p 7 1) ((byteAt p 8).setWidth 4) fn (field p 10 1 % 8) (byteAt p 11) (p.drop 14))
        else if m = 2 then some (.colour (field p 6 1) (field p 7 1) (byteAt p 11) (field p 12 1) (p.drop 14))
        else none
      else none

/-- A good SDAT, or none when it is bad (R146). -/
def parseSdat (p : List Byte) : Option Sdat :=
  match parseWrite p with
  | none => none
  | some w =>
    if h : 6 ≤ p.length ∧ field p 0 1 < 4 ∧ ((byteAt p 4).getLsbD 0 = true ↔ field p 2 2 = 0) then
      some { page := ⟨field p 0 1, h.2.1⟩, loadId := byteAt p 1, index := field p 2 2, first := (byteAt p 4).getLsbD 0,
             last := (byteAt p 4).getLsbD 1, clear := (byteAt p 4).getLsbD 2, write := w }
    else none

/-- The code of a port in reports (12.3, NSTA). -/
def portCode : Option PortId → Nat
  | none => 0
  | some .east => 1
  | some .west => 2

/-- A claimant as 3 bytes (12.3, SRPT). -/
def claimantBytes : Option Claimant → List Byte
  | none => [0, 0, 0]
  | some .centre => [1, 0, 0]
  | some (.rule n) => [2, BitVec.ofNat 8 n, 0]
  | some (.alert o k) => [3, BitVec.ofNat 8 o, BitVec.ofNat 8 k]

/-- An optional Line Time value as a flag and 6 bytes, 0 when absent (12.3). -/
def optLTBytes : Option LTime → List Byte
  | none => 0 :: bytesBE 6 0
  | some t => 1 :: bytesLT t

/-! ### Cabinet messages (12.4) -/

/-- Length, kind and body of a cabinet message. -/
def CabMsg.covered (m : CabMsg) : List Byte := bytesBE 2 (m.body.length + 1) ++ m.kind :: m.body

/-- The bytes of a cabinet message on the link, its CRC-16 computed (R191, R195, R203). -/
def CabMsg.wire (m : CabMsg) : List Byte := m.covered ++ bytesBE 2 (crc16 m.covered).toNat

/-- The body of a SEND-SIGN that check 4 passes (R191, R193): frame kind 7 or 10, target at most 240, zone not 0, and at
most 256 payload bytes. -/
def sendSignOk (kind target zone : Byte) (payload : List Byte) : Bool :=
  (kind == 7 || kind == 10) && decide (target.toNat ≤ 240) && zone != 0 && decide (payload.length ≤ 256)

/-- The command that a run of bytes received while SEND was high spells, or none when one of the four checks of R191
fails. -/
def parseInbound (b : List Byte) : Option Instr :=
  let n := field b 0 2
  let body := (b.drop 3).take (n - 1)
  if b.length < 5 ∨ n = 0 ∨ 300 < n ∨ b.length ≠ n + 4 then none
  else if bytesBE 2 (crc16 (b.take (b.length - 2))).toNat ≠ b.drop (b.length - 2) then none
  else
    match field b 2 1, body.length with
    | 1, 44 => some (.tollSubmit (byteAt body 0) (BitVec.ofNat 16 (field body 1 2)) (byteAt body 3) (body.drop 4))
    | 2, 4 => some (.reading (byteAt body 0) (BitVec.ofNat 16 (field body 1 2)) (byteAt body 3 != 0))
    | 3, 1 => some (.statusAsk (byteAt body 0))
    | 4, 6 => some (.time (BitVec.ofNat 48 (field body 0 6)))
    | 5, l =>
      if 3 ≤ l ∧ sendSignOk (byteAt body 0) (byteAt body 1) (byteAt body 2) (body.drop 3) = true then
        some (.sendSign (byteAt body 0) (byteAt body 1) (byteAt body 2) (body.drop 3))
      else none
    | 6, 2 => if phoneOf (field body 1 1) = none then none else some (.ringOut (byteAt body 0) (byteAt body 1))
    | 7, 2 => some (.hangup (refAt body))
    | 8, 42 => some (.consoleVoice (refAt body) (body.drop 2))
    | _, _ => none

/-! ### Configuration image (R199, R200, 12.5) -/

/-- The field of n bytes at an offset of an image whose length field is `len`, or none when it lies even in part beyond
the length. -/
def imageField (img : List Byte) (len off n : Nat) : Option Nat :=
  if off + n ≤ 2 + len then some (field img off n) else none

/-- A field with its default, then its treatment. -/
def imageNat (img : List Byte) (len off n : Nat) (dflt : Nat) (f : Nat → Nat) : Nat :=
  ((imageField img len off n).map f).getD dflt

/-- Whether a group of bytes lies whole within the length. -/
def imageHas (len off n : Nat) : Bool := decide (off + n ≤ 2 + len)

/-- One weather rule from its 16 bytes (R180, 12.5). -/
def ruleOf (r : List Byte) : RuleConfig :=
  let source : RuleSource :=
    match field r 1 1 with
    | 2 => .rain
    | 3 => .channel ⟨min 7 (field r 2 1), by omega⟩
    | 4 => .contacts ((byteAt r 2).setWidth 6)
    | _ => .wind
  let threshold (n : Nat) : Int :=
    match source with
    | .wind | .rain => (n : Int)
    | _ => signed16 n
  { kind := min 14 (field r 0 1), source := source, sense := if field r 3 1 = 2 then .below else .above,
    raiseAt := threshold (field r 4 2), clearAt := threshold (field r 6 2),
    persistence := match source with
      | .contacts _ => 1
      | _ => clamp 1 15 (field r 8 1),
    severity := clamp 1 3 (field r 9 1), lifetime := clamp 10 86400 (field r 10 3),
    claim := if field r 13 1 = 0 then none
      else some (⟨min 3 (field r 14 1), by omega⟩, min 15 (field r 15 1)) }

/-- One sign rule from its 4 bytes (R167, 12.5). -/
def signRuleOf (r : List Byte) : SignRule :=
  { kind := min 15 (field r 0 1), minSeverity := clamp 1 3 (field r 1 1), page := ⟨min 3 (field r 2 1), by omega⟩,
    priority := min 15 (field r 3 1) }

/-- The colour map from its 32 bytes (R143). -/
def coloursOf (r : List Byte) : List ColourEntry :=
  (List.range 16).map fun c =>
    if c = 0 then { weight := 0, strings := 0 }
    else { weight := min 4 (field r (2 * c) 1), strings := (byteAt r (2 * c + 1)).setWidth 4 }

/-- Breakpoints as configured, each raised to the one before it (R172). -/
def risingFrom : Int → List Int → List Int
  | _, [] => []
  | low, a :: rest => max low a :: risingFrom (max low a) rest

/-- The taken width of a sign (R142); 0 stays 0. It is taken so at a node without SIGN too, which reports it in NSTA (log
entry 24, DEDUCED). -/
def signWidthOf (w : Nat) : Nat := if w = 0 then 0 else clamp 32 256 w / 8 * 8

/-- The taken run length (R125). -/
def runLengthOf : Nat → Nat
  | 0 => 1
  | 1 => 1
  | 2 => 2
  | 3 => 2
  | _ => 4

/-- One reading range: a greatest below the least is taken as the least (R178). -/
def rangeOf (r : List Byte) : Int × Int :=
  let lo := signed16 (field r 0 2)
  (lo, max lo (signed16 (field r 2 2)))

/-- The values of an accepted image (R200, 12.5). -/
def configOf (img : List Byte) (len number : Nat) (role : Role) : Config :=
  let d := Config.initial
  let nat := imageNat img len
  let group (off n : Nat) : List Byte := (img.drop off).take n
  { number := number, role := role, services := servicesOf (byteAt img 4),
    beatInterval := nat 5 2 100 (clamp 50 1000),
    reference := if imageHas len 7 1 && field img 7 1 == 2 then .mhz1944 else .mhz25,
    trim := if imageHas len 8 2 then clampInt (-200) 200 (signed16 (field img 8 2)) else 0,
    dhop := nat 10 1 30 id, slew := nat 11 2 2000 (clamp 1 65535), window := nat 13 2 40 (min 1023),
    timeInput := imageHas len 15 1 && field img 15 1 != 0,
    resting := if imageHas len 16 2 then BitVec.ofNat 9 (field img 16 2) else d.resting,
    watch := if imageHas len 18 2 then BitVec.ofNat 9 (field img 18 2) else d.watch,
    pulseWindow := if imageHas len 20 2 then ⟨clamp 1 10 (field img 20 1), clamp 1 10 (field img 21 1)⟩ else ⟨1, 1⟩,
    depth := if imageHas len 22 2 then ⟨clamp 1 16 (field img 22 1), clamp 1 16 (field img 23 1)⟩ else ⟨1, 1⟩,
    scale := if imageHas len 24 4 then ⟨clamp 1 65535 (field img 24 2), clamp 1 65535 (field img 26 2)⟩
      else ⟨256, 256⟩,
    consoleChannels := nat 28 1 2 (clamp 1 8), incidentZone := nat 29 1 0 id, incidentHold := nat 30 2 600 (clamp 10 3600),
    codecSlaveA := imageHas len 32 1 && (byteAt img 32).getLsbD 0,
    codecSlaveB := imageHas len 32 1 && (byteAt img 32).getLsbD 1,
    runLength := nat 33 1 4 runLengthOf,
    clockMode := match imageField img len 34 1 with
      | some 1 => .master1
      | some 3 => .master4
      | some 4 => .slave
      | _ => .master2,
    eastZone := if imageHas len 35 2 then field img 35 1 else 5,
    westZone := if imageHas len 35 2 then field img 36 1 else 5,
    reportInterval := nat 37 2 60 (clamp 10 600), nodeInterval := nat 39 2 10 (clamp 2 600),
    ranges := if imageHas len 41 32 then (List.range 8).map fun c => rangeOf (group (41 + 4 * c) 4) else d.ranges,
    rules := if imageHas len 73 128 then (List.range 8).map fun r => ruleOf (group (73 + 16 * r) 16) else d.rules,
    signWidth := nat 201 2 0 signWidthOf, signHeight := nat 203 1 8 (clamp 8 64), frameRate := nat 204 2 200 (clamp 100 400),
    brightnessMode := if imageHas len 206 1 && field img 206 1 == 2 then .mapped else .fixed,
    fixedLevel := nat 207 1 16 (clamp 1 16),
    ambient := if imageHas len 208 1 then ⟨min 7 (field img 208 1), by omega⟩ else 0,
    breakpoints := if imageHas len 209 8 then
        risingFrom (-32768) ((List.range 4).map fun i => signed16 (field img (209 + 2 * i) 2))
      else d.breakpoints,
    bandLevels := if imageHas len 217 5 then (List.range 5).map fun i => clamp 1 16 (field img (217 + i) 1)
      else d.bandLevels,
    powerBudget := nat 222 3 1048575 (clamp 1 1048575),
    signRules := if imageHas len 225 64 then (List.range 16).map fun i => signRuleOf (group (225 + 4 * i) 4)
      else d.signRules,
    colours := if imageHas len 289 32 then coloursOf (group 289 32) else absentColourMap }

/-- The image checked: `none` when it is rejected (R199). -/
def parseImage (img : List Byte) : Option Config :=
  let len := field img 0 2
  if len < 3 ∨ 4092 < len ∨ img.length < len + 4 then none
  else if bytesBE 2 (crc16 (img.take (len + 2))).toNat ≠ (img.drop (len + 2)).take 2 then none
  else if field img 2 1 = 0 ∨ 240 < field img 2 1 then none
  else (roleOf (field img 3 1)).map fun r => configOf img len (field img 2 1) r

end Sys2Proof.Machine
end

