-- ==== Sys2Proof/Machine/Flags.lean ====
section
/-! DEFINITION. The flags, outputs and answers that are computed from the state and never stored. -/

namespace Sys2Proof.Machine

/-! ### Node -/

/-- The node's own number is known in SCANNING and RUNNING (R10). -/
def State.numberKnown (s : State) : Bool := s.node == .scanning || s.node == .running

/-- The node is RUNNING. -/
def State.isRunning (s : State) : Bool := s.node == .running

/-- The node's role is known and TERMINUS (R11). -/
def State.isTerminus (s : State) : Bool := s.numberKnown && s.cfg.role == .terminus

/-- The node's role is known and ROADSIDE. -/
def State.isRoadside (s : State) : Bool := s.numberKnown && s.cfg.role == .roadside

/-! ### Input Watch -/

/-- The bit of a level line in the words of the image and of NSTA (12.5). -/
def lineBit : LevelLine → Nat
  | .hookA => 0
  | .hookB => 1
  | .contact i => 2 + i
  | .powerWarn => 8

/-- The nine level lines in the order of their bits. -/
def allLines : List LevelLine :=
  [.hookA, .hookB, .contact 0, .contact 1, .contact 2, .contact 3, .contact 4, .contact 5, .powerWarn]

/-- The line is watched (R59). -/
def State.watched (s : State) (l : LevelLine) : Bool := s.cfg.watch.getLsbD (lineBit l)

/-- The line is departed: its filtered level differs from its resting level (R59). -/
def State.departed (s : State) (l : LevelLine) : Bool :=
  (s.inputs.line l).filtered != s.cfg.resting.getLsbD (lineBit l)

/-- The watch state an owner reads: set is departed; an unwatched line reads returned (R64). -/
def State.watchDeparted (s : State) (l : LevelLine) : Bool := s.watched l && s.departed l

/-- POWER-WARN is departed, as Toll Spool reads it (R64, R118). -/
def State.powerFailing (s : State) : Bool := s.watchDeparted .powerWarn

/-- The filter interval of a line in µs (R60). -/
def filterInterval : LevelLine → Nat
  | .hookA => 20000
  | .hookB => 20000
  | .contact _ => 200000
  | .powerWarn => 1000

/-! ### Line Time -/

/-- The time input is enabled (R54). -/
def State.timeInputEnabled (s : State) : Bool := s.cfg.timeInput && s.cfg.role == .terminus

/-- LT plus a number of µs, modulo 2^48 (R42). -/
def State.ltPlus (s : State) (us : Nat) : LTime := s.time.lt + BitVec.ofNat 48 us

/-! ### Toll Spool -/

/-- Where a slot of the array lies: its sector. -/
def sectorOf (slot : Nat) : Nat := slot / 32

/-- A sector in working memory; one not listed is EMPTY. -/
def Spool.sector (p : Spool) (n : Nat) : SectorWork := (keyGet p.sectors n).getD ⟨.empty, false, false, false⟩

/-- The FILLING sector (R103). -/
def Spool.filling (p : Spool) : Option Nat := (p.sectors.find? fun e => e.2.state == .filling).map Prod.fst

/-- The number of FILLED slots (R111). -/
def Spool.backlog (p : Spool) : Nat :=
  (p.slots.filter fun e => match e.2 with
    | .filled _ => true
    | _ => false).length

/-- A TOLL-SUBMIT would be taken: the level of READY (R105, R110). -/
def State.ready (s : State) : Bool :=
  s.isRunning && s.cfg.services.toll && !s.spool.markFault && !s.powerFailing && s.spool.held.isNone &&
    s.spool.genJob.isNone && s.spool.answer.isNone && s.spool.filling.isSome

/-- The active erase time of the erase in progress, in periods of the reference oscillator (R116, R117). -/
def State.activeErasePeriods (s : State) (e : EraseRun) : Nat :=
  e.gathered + if e.phase = .active then s.refTime - e.since else 0

/-- The active erase time in whole ms, rounded down (R123, log entry 23). -/
def State.activeEraseMs (s : State) (e : EraseRun) : Nat :=
  s.activeErasePeriods e * 1000 / referenceHz s.cfg.reference

/-! ### Equipment port -/

/-- The RUNNING output is high while an outbound message is being sent (R195). -/
def State.runningOutput (s : State) : Bool := s.equip.transfer.isSome

/-- The port drives its clock: MASTER mode in SCANNING and RUNNING (R190). -/
def State.portClockDriven (s : State) : Bool := s.numberKnown && s.cfg.clockMode != .slave

/-- A phone port's sample clock is driven: master mode in SCANNING and RUNNING (R99). -/
def State.sampleClockDriven (s : State) (ph : PhoneId) : Bool :=
  s.numberKnown && !(match ph with
    | .phoneA => s.cfg.codecSlaveA
    | .phoneB => s.cfg.codecSlaveB)

/-- The transmitter sends the idle pattern whenever it sends no frame (R1). -/
def State.sendsIdle (s : State) (p : PortId) : Bool := (s.port p).sending.isNone

/-! ### Signs -/

/-- The sign is present (R142). -/
def State.signPresent (s : State) : Bool := s.cfg.services.sign && s.cfg.signWidth != 0

/-- Sign Display acts: RUNNING with the sign present (R159). -/
def State.signActs (s : State) : Bool := s.isRunning && s.signPresent

/-- The colour map's entry of a colour (R143). -/
def State.colourEntry (s : State) (c : Nat) : ColourEntry := s.cfg.colours.getD c ⟨0, 0⟩

/-- What scan-out sends for pixel x of row y: the LED strings lit, and for how many sixteenths of the frame; BLANK and an
idle sign drive nothing (R157, R159, R169). -/
def State.signDrive (s : State) (y x : Nat) : BitVec 4 × Nat :=
  match s.display.page with
  | none => (0, 0)
  | some p => ((s.colourEntry (readPixelCell s.pages.pixels (pixelAddr p y x)).toNat).strings, s.display.applied)

/-! ### Reach View -/

/-- A port is neighbour silent (R40). -/
def State.neighbourSilent (s : State) (p : PortId) : Bool :=
  (s.port p).state == .lit && (s.reach.part p).all fun e => e.hops != 1

/-! ### Phone ports -/

/-- Whether the tone is sounding: the on periods of its cadence are the even ones (R97). -/
def PhonePort.toneOn (p : PhonePort) : Bool := p.tone.isSome && p.tonePeriod % 2 == 0

end Sys2Proof.Machine
end

