-- ==== Sys2Proof/Machine/LineOps.lean ====
section
/-! DEFINITION. Shared operations of the line ports and of the outbound queue: the output arbiter, offers, forwarding, and
placing cabinet messages. -/

namespace Sys2Proof.Machine

/-- A port offer's answer (R17). -/
inductive Answer where
  | taken
  | refused
  | discarded
  deriving DecidableEq, Repr

/-- The credit rule within one class: the frame to send, whether it is the node's own, and the class's stores after
(R21, R22). -/
def Lane.take (l : Lane) : Option (Frame × Bool × Lane) :=
  match l.transit, l.own with
  | [], [] => none
  | [], f :: own => some (f, true, { transit := [], own := own, credit := 0 })
  | f :: transit, [] => some (f, false, { transit := transit, own := [], credit := 0 })
  | t :: transit, f :: own =>
    if 4 ≤ l.credit then some (f, true, { transit := t :: transit, own := own, credit := 0 })
    else some (t, false, { transit := transit, own := f :: own, credit := l.credit + 1 })

/-- The output arbiter's choice: URGENT before BULK (R20). -/
def LinePort.choose (q : LinePort) : Option (Frame × Bool × LinePort) :=
  match q.urgent.take with
  | some (f, own, l) => some (f, own, { q with urgent := l })
  | none =>
    match q.bulk.take with
    | some (f, own, l) => some (f, own, { q with bulk := l })
    | none => none

/-- The frame as it leaves: the node's own BEAT takes its time fields at the start of its sending (R18, R23, R28). -/
def State.completed (s : State) (f : Frame) (own : Bool) : Frame :=
  if own && f.kind == .beat then { f with payload := fillBeat f.payload s.time.grade s.time.lt s.time.settled } else f

/-- The output arbiter of a port acts when the transmitter is free, the port is PROBING or LIT and a store holds a frame
(R20, R23). -/
def State.arbitrate (s : State) (p : PortId) : State :=
  if (s.port p).state ≠ .dark ∧ (s.port p).sending = none then
    match (s.port p).choose with
    | some (f, own, q) => s.setPort p { q with sending := some (s.completed f own) }
    | none => s
  else s

/-- The capacity of a local queue (R16). -/
def localCapacity (urgent : Bool) : Nat := if urgent then 8 else 16

/-- The capacity of a transit lane (R16). -/
def transitCapacity (urgent : Bool) : Nat := if urgent then 4 else 8

/-- The stores of one class. -/
def LinePort.lane (q : LinePort) (urgent : Bool) : Lane := if urgent then q.urgent else q.bulk

/-- The port with the stores of one class replaced. -/
def LinePort.setLane (q : LinePort) (urgent : Bool) (l : Lane) : LinePort :=
  if urgent then { q with urgent := l } else { q with bulk := l }

/-- A frame appended to a local queue (R16). -/
def LinePort.appendOwn (q : LinePort) (f : Frame) : LinePort :=
  let l := q.lane f.kind.isUrgent
  q.setLane f.kind.isUrgent { l with own := l.own ++ [f] }

/-- A frame appended to a transit lane (R15). -/
def LinePort.appendTransit (q : LinePort) (f : Frame) : LinePort :=
  let l := q.lane f.kind.isUrgent
  q.setLane f.kind.isUrgent { l with transit := l.transit ++ [f] }

/-- The answer an offer gets (R17). -/
def LinePort.offerAnswer (q : LinePort) (f : Frame) : Answer :=
  if q.state = .lit ∨ (q.state = .probing ∧ f.kind = .beat) then
    if (q.lane f.kind.isUrgent).own.length < localCapacity f.kind.isUrgent then .taken else .refused
  else .discarded

/-- One local refusal more (R25). -/
def LinePort.countRefusal (q : LinePort) : LinePort :=
  { q with counters := { q.counters with localRefusals := bump q.counters.localRefusals } }

/-- A job offers a frame for a port: the state after, the arbiter having acted (R17, R20). -/
def State.offer (s : State) (p : PortId) (f : Frame) : State :=
  match (s.port p).offerAnswer f with
  | .taken => (s.setPort p ((s.port p).appendOwn f)).arbitrate p
  | .refused => s.setPort p (s.port p).countRefusal
  | .discarded => s.setPort p ((s.port p).countDark 1)

/-- An offer on a port that may be none: no offer is made then (R19). -/
def State.offerOn (s : State) (p : Option PortId) (f : Frame) : State :=
  match p with
  | some q => s.offer q f
  | none => s

/-- A frame the node itself sends: origin its own number, hops 0 (R18). -/
def State.ownFrame (s : State) (k : FrameKind) (hopLimit target : Nat) (payload : List Byte) : Frame :=
  { kind := k, hops := 0, hopLimit := hopLimit, origin := s.cfg.number, target := target, payload := payload }

/-- A forwarded copy is offered to a transit lane (R15). -/
def State.transitOffer (s : State) (p : PortId) (f : Frame) : State :=
  if (s.port p).state ≠ .lit then s.setPort p ((s.port p).countDark 1)
  else if transitCapacity f.kind.isUrgent ≤ ((s.port p).lane f.kind.isUrgent).transit.length then
    s.setPort p
      { s.port p with counters :=
          { (s.port p).counters with transitOverflow := bump (s.port p).counters.transitOverflow } }
  else (s.setPort p ((s.port p).appendTransit f)).arbitrate p

/-- Forwarding: a copy with hops raised goes to the opposite port while it is under its hop limit (R14). -/
def State.forward (s : State) (p : PortId) (f : Frame) : State :=
  if f.hops + 1 < f.hopLimit then s.transitOffer (opposite p) { f with hops := f.hops + 1 } else s

/-- The node's own BEAT is offered on a port that is LIT or PROBING and holds no waiting BEAT (R27, R28). -/
def State.offerBeat (s : State) (p : PortId) : State :=
  if (s.port p).state = .dark ∨ (s.port p).urgent.own.any (fun f => f.kind == .beat) = true then s
  else s.offer p (s.ownFrame .beat 255 0 (beatPayload s.cfg s.spool.backlog 0 0 false))

/-- BEATs on every port that is LIT or PROBING, and the BEAT timer (R27). -/
def State.startBeats (s : State) : State :=
  let t := (s.offerBeat .east).offerBeat .west
  { t with reach := { t.reach with beatTimer := t.startTimer (t.cfg.beatInterval * 1000) } }

/-! ### Outbound queue (R195, R196) -/

/-- The outbound queue has room (R195). -/
def State.queueRoom (s : State) : Bool := decide (s.equip.outbound.length < 32)

/-- A message placed at the tail of the outbound queue; the caller has found room. -/
def State.placeTail (s : State) (m : CabMsg) : State :=
  { s with equip := { s.equip with outbound := s.equip.outbound ++ [m] } }

/-- A message whose source drops it when the queue is full (R196). -/
def State.placeOrDrop (s : State) (m : CabMsg) : State :=
  if s.queueRoom then s.placeTail m
  else { s with equip := { s.equip with outboundDrop := bump s.equip.outboundDrop } }

/-- The answer place passes its answer to the outbound queue when the queue has room (R107, R195). -/
def State.drainAnswer (s : State) : State :=
  match s.spool.answer with
  | some m => if s.queueRoom then { s with spool := { s.spool with answer := none } }.placeTail m else s
  | none => s

/-- The answer place takes an answer and passes it on at once when the queue has room (R107). An answer that it still holds
goes first, and without room for it the newer answer takes its place (log entry 28, DESIGN CHOICE). -/
def State.answerSpool (s : State) (m : CabMsg) : State :=
  let t := s.drainAnswer
  if t.queueRoom then t.placeTail m else { t with spool := { t.spool with answer := some m } }

/-- A message of Call Control for the centre: in order, through the pending list when the queue is full (R92). -/
def State.callMessage (s : State) (m : CabMsg) : State :=
  if s.calls.pendingMsgs = [] ∧ s.queueRoom = true then s.placeTail m
  else if s.calls.pendingMsgs.length < 16 then
    { s with calls := { s.calls with pendingMsgs := s.calls.pendingMsgs ++ [m] } }
  else { s with calls := { s.calls with signallingDrop := bump s.calls.signallingDrop } }

/-- A copy of a frame for the centre: origin and payload (R13, 12.4). -/
def centreCopy (kind : Byte) (origin : Nat) (payload : List Byte) : CabMsg :=
  { kind := kind, body := BitVec.ofNat 8 origin :: payload }

end Sys2Proof.Machine
end

