-- ==== Sys2Proof/Machine/ReachOps.lean ====
section
/-! DEFINITION. The Reach View's table and its answers (chapter 2). -/

namespace Sys2Proof.Machine

/-- The terminus choice (R35). -/
inductive TermChoice where
  | none
  | self
  | terminus (node : Nat) (port : PortId) (hops : Nat)
  deriving DecidableEq, Repr

/-- The choice without its hops (R38). -/
def TermChoice.route : TermChoice → Route
  | .none => .none
  | .self => .self
  | .terminus n p _ => .via n p

/-- Nearer within a part: fewer hops, then lower node number (R30). -/
def ReachEntry.nearer (a b : ReachEntry) : Bool :=
  decide (a.hops < b.hops) || (decide (a.hops = b.hops) && decide (a.node < b.node))

/-- An entry put at its place in the order of its part (R30). -/
def insertEntry (e : ReachEntry) : List ReachEntry → List ReachEntry
  | [] => [e]
  | x :: rest => if e.nearer x then e :: x :: rest else x :: insertEntry e rest

/-- A part without the entry of a node. -/
def removeNode (n : Nat) (l : List ReachEntry) : List ReachEntry := l.filter fun e => e.node != n

/-- The TERMINUS entries of both parts with their ports, EAST first. -/
def ReachView.termini (r : ReachView) : List (ReachEntry × PortId) :=
  (r.east.filter fun e => e.role == .terminus).map (·, PortId.east) ++
    (r.west.filter fun e => e.role == .terminus).map (·, PortId.west)

/-- The terminus-choice order: fewest hops, then EAST before WEST, then lower node number (R35). -/
def preferred (a b : ReachEntry × PortId) : Bool :=
  decide (a.1.hops < b.1.hops) ||
    (decide (a.1.hops = b.1.hops) &&
      ((a.2 == .east && b.2 == .west) || (a.2 == b.2 && decide (a.1.node < b.1.node))))

/-- The first of a list of candidates in the terminus-choice order. -/
def bestOf : List (ReachEntry × PortId) → Option (ReachEntry × PortId)
  | [] => none
  | a :: rest =>
    match bestOf rest with
    | none => some a
    | some b => if preferred b a then some b else some a

/-- A candidate as an answer. -/
def choiceOf : Option (ReachEntry × PortId) → TermChoice
  | none => .none
  | some (e, p) => .terminus e.node p e.hops

/-- The terminus choice (R35, R39). It is SELF at a TERMINUS as soon as the role is known, so in SCANNING too, where no job asks:
R35 and R38 say so, and the table of R39 leaves SCANNING open (DEDUCED, log entry 25). -/
def State.terminusChoice (s : State) : TermChoice :=
  if s.isTerminus then .self else choiceOf (bestOf s.reach.termini)

/-- The alternate choice, excluding a node or nothing (R36, R77). -/
def State.alternateChoice (s : State) (t : Option Nat) : TermChoice :=
  choiceOf (bestOf (s.reach.termini.filter fun c => some c.1.node != t))

/-- The terminus presence: the port by which terminus t is in the view (R36). -/
def State.terminusPresence (s : State) (t : Nat) : Option PortId :=
  (bestOf (s.reach.termini.filter fun c => c.1.node == t)).map Prod.snd

/-- The node port by the table and the port states (R37). -/
def State.nodePortFound (s : State) (t : Nat) : Option PortId :=
  match s.reach.east.find? (fun e => e.node == t), s.reach.west.find? (fun e => e.node == t) with
  | some a, some b => if b.hops < a.hops then some .west else some .east
  | some _, none => some .east
  | none, some _ => some .west
  | none, none =>
    match s.east.state, s.west.state with
    | .lit, .lit => none
    | .lit, _ => some .east
    | _, .lit => some .west
    | _, _ => none

/-- The node port (R37); in REPEATER-ONLY every question is answered NONE (R39). -/
def State.nodePort (s : State) (t : Nat) : Option PortId := if s.node = .repeaterOnly then none else s.nodePortFound t

/-! ### Ages (R33) -/

/-- The age limit of an entry: four times the interval it recorded, in µs (R33). -/
def ReachEntry.ageLimitUs (e : ReachEntry) : Nat := 4 * e.interval * 1000

/-- The age of an entry, the time on the reference oscillator since its last BEAT, exceeds its limit (R33). Until an image is
accepted the rate is unknown (R41) and is read as the default 25 MHz (log entry 2, DESIGN CHOICE). -/
def State.agedOut (s : State) (e : ReachEntry) : Bool :=
  decide (e.ageLimitUs * referenceHz s.cfg.reference < (s.refTime - e.heardAt) * 1000000)

/-- The far node and port the current terminus choice gives, or none (R76). -/
def State.choiceFar (s : State) : Option Nat × Option PortId :=
  match s.terminusChoice with
  | .terminus n p _ => (some n, some p)
  | _ => (none, none)

/-! ### Changes of the table (R31, R32) -/

/-- The entry a BEAT makes (R30). -/
def entryOf (b : Beat) (n now : Nat) : ReachEntry :=
  { node := b.node, hops := n, role := b.role, interval := b.interval, backlog := b.backlog, heardAt := now }

/-- The victim of a full part: its farthest ROADSIDE entry (R32). -/
def victimOf (l : List ReachEntry) : Option ReachEntry := (l.filter fun e => e.role == .roadside).getLast?

/-- A part after a BEAT, with whether it changed and whether a TERMINUS entry was refreshed to ROADSIDE
(R31, R32, R38). -/
def takeEntry (e : ReachEntry) (l : List ReachEntry) : List ReachEntry × Bool × Bool :=
  match l.find? (fun x => x.node == e.node) with
  | some old => (insertEntry e (removeNode e.node l), true, old.role == .terminus && e.role == .roadside)
  | none =>
    if l.length < 16 then (insertEntry e l, true, false)
    else
      match victimOf l with
      | none => (l, false, false)
      | some v =>
        if e.role == .terminus || e.nearer v then (insertEntry e (removeNode v.node l), true, false)
        else (l, false, false)

end Sys2Proof.Machine
end

