-- ==== Sys2Proof/Machine/SignOps.lean ====
section
/-! DEFINITION. Shared operations of Sign Page Memory and Sign Display (chapters 8 and 9). -/

namespace Sys2Proof.Machine

/-! ### Writes into the pixel store (R144, R152 to R154) -/

/-- The eight pixels of one column byte changed: `f i old` is the new colour of the i-th from the left. -/
def paintByte (m : List Host.Cell) (page row col : Nat) (f : Nat → Byte → Byte) : List Host.Cell :=
  (List.range 8).foldl
    (fun m i => let a := pixelAddr page row (8 * col + i)
      writePixelCell m a (f i (readPixelCell m a))) m

/-- The bit of a data byte or bit mask for the i-th pixel from the left (R144). -/
def pixelBit (b : Byte) (i : Nat) : Bool := b.getLsbD (7 - i)

/-- One data byte after another, bytes past the end of the row discarded (R152, R153). -/
def paintBytes (cols page row : Nat) (g : Byte → Nat → Byte → Byte) : Nat → List Byte → List Host.Cell → List Host.Cell
  | _, [], m => m
  | col, b :: rest, m =>
    paintBytes cols page row g (col + 1) rest (if col < cols then paintByte m page row col (g b) else m)

/-- The planes a function gives from a pixel value and the old planes (R152). -/
def planeResult (fn : PlaneFn) (v : Bool) (old : Byte) : Byte :=
  let all : Byte := if v then 15 else 0
  match fn with
  | .replace => all
  | .and => all &&& old
  | .or => all ||| old
  | .xor => all ^^^ old

/-- The new colour of one pixel under a PLANE write (R152). -/
def planePixel (planes : BitVec 4) (fn : PlaneFn) (rotate : Nat) (mask data : Byte) (i : Nat) (old : Byte) : Byte :=
  let p : Byte := planes.setWidth 8
  if pixelBit mask i then (old &&& ~~~p) ||| (planeResult fn (pixelBit (data.rotateRight rotate) i) old &&& p) else old

/-- The new colour of one pixel under a COLOUR write (R153). -/
def colourPixel (colour : Nat) (mask data : Byte) (i : Nat) (old : Byte) : Byte :=
  if pixelBit data i && pixelBit mask i then BitVec.ofNat 8 colour else old

/-- The steps of a COPY, each reading what the steps before it wrote (R154). -/
def copyBytes (cols page row srcPage srcRow : Nat) (mask : Byte) : Nat → Nat → Nat → List Host.Cell → List Host.Cell
  | 0, _, _, m => m
  | n + 1, col, src, m =>
    if col < cols ∧ src < cols then
      copyBytes cols page row srcPage srcRow mask n (col + 1) (src + 1)
        (paintByte m page row col fun i old =>
          if pixelBit mask i then readPixelCell m (pixelAddr srcPage srcRow (8 * src + i)) else old)
    else m

/-- The width of a row in column bytes (R142). -/
def State.signCols (s : State) : Nat := s.cfg.signWidth / 8

/-- A write applied to a page: the pixel store after it, or none when it is a bad write (R152 to R154). -/
def State.applyWrite (s : State) (page : Fin 4) (w : SignWrite) : Option (List Host.Cell) :=
  match w with
  | .nothing => some s.pages.pixels
  | .plane row col planes fn rotate mask data =>
    some (if row < s.cfg.signHeight then
        paintBytes s.signCols page row (planePixel planes fn rotate mask) col data s.pages.pixels
      else s.pages.pixels)
  | .colour row col mask colour data =>
    some (if row < s.cfg.signHeight then
        paintBytes s.signCols page row (colourPixel colour mask) col data s.pages.pixels
      else s.pages.pixels)
  | .copy row col mask srcPage srcRow srcCol count =>
    if (s.pages.records[srcPage]).state = .ready ∨ srcPage = page then
      some (if row < s.cfg.signHeight ∧ srcRow < s.cfg.signHeight then
          copyBytes s.signCols page row srcPage srcRow mask count col srcCol s.pages.pixels
        else s.pages.pixels)
    else none

/-- Every pixel of a page set to colour 0 (R148). -/
def clearPage (m : List Host.Cell) (page : Nat) : List Host.Cell := m.filter fun c => c.1 / 16384 != page

/-- The pixels of a page within W × H whose colour is not 0 (R155). -/
def State.litCells (s : State) (page : Nat) : List Host.Cell :=
  s.pages.pixels.filter fun c =>
    c.1 / 16384 == page && decide (c.1 / 256 % 64 < s.cfg.signHeight) && decide (c.1 % 256 < s.cfg.signWidth)

/-- The lit count of a page (R155). -/
def State.litCount (s : State) (page : Nat) : Nat := (s.litCells page).length

/-- The drive load of a page (R155). -/
def State.driveLoad (s : State) (page : Nat) : Nat :=
  ((s.litCells page).map fun c => (s.colourEntry c.2.toNat).weight).sum

/-! ### Reports (R156, R166) -/

/-- An SRPT for one addressee: a SIGN-REPORT when the addressee is the node itself, otherwise an offer on the node port,
or on a given port when that answer is NONE (R156, R166). -/
def State.signReport (s : State) (addressee : Nat) (fallback : Option PortId) (payload : List Byte) : State :=
  if addressee = s.cfg.number then s.placeOrDrop (centreCopy 0x85 addressee payload)
  else s.offerOn ((s.nodePort addressee).or fallback) (s.ownFrame .srpt 255 addressee payload)

/-- The outcomes of a load report with their causes (R156). -/
inductive LoadOutcome where
  | loaded
  | superseded
  | mismatch
  | timeout
  | badWrite
  | tooLong
  | displayed
  | notLoading
  deriving DecidableEq, Repr

/-- Outcome and cause bytes (12.3, SRPT). -/
def LoadOutcome.bytes : LoadOutcome → List Byte
  | .loaded => [1, 0]
  | .superseded => [2, 0]
  | .mismatch => [3, 1]
  | .timeout => [3, 2]
  | .badWrite => [3, 3]
  | .tooLong => [3, 4]
  | .displayed => [4, 5]
  | .notLoading => [4, 6]

/-- A load report; lit count, drive load and last activity LT are those the record now holds (R156). -/
def State.loadReport (s : State) (page : Fin 4) (loadId : Byte) (index : Nat) (o : LoadOutcome) (addressee : Nat)
    (fallback : Option PortId) : State :=
  let r := s.pages.records[page]
  s.signReport addressee fallback
    ([1, BitVec.ofNat 8 page, loadId] ++ o.bytes ++ bytesBE 2 index ++ bytesBE 2 r.lit ++ bytesBE 4 r.drive ++
      optLTBytes r.activity)

/-- A report about the load a record holds, to its loading origin (R156). -/
def State.recordReport (s : State) (page : Fin 4) (index : Nat) (o : LoadOutcome) : State :=
  let r := s.pages.records[page]
  match r.origin with
  | some a => s.loadReport page (r.loadId.getD 0) index o a r.port
  | none => s

/-! ### Loads (R147 to R151) -/

/-- A page record replaced. -/
def State.setRecord (s : State) (page : Fin 4) (r : PageRecord) : State :=
  { s with pages := { s.pages with records := s.pages.records.set page r } }

/-- A load is aborted (R149). -/
def State.abortLoad (s : State) (page : Fin 4) (o : LoadOutcome) : State :=
  let r := s.pages.records[page]
  let t := s.setRecord page { r with state := .free, timer := none, lit := 0, drive := 0 }
  ({ t with pages := { t.pages with aborted := bump t.pages.aborted } }).recordReport page r.next o

/-- A load completes (R150, R155). -/
def State.completeLoad (s : State) (page : Fin 4) : State :=
  let r := s.pages.records[page]
  let t := s.setRecord page
    { r with state := .ready, timer := none, lit := s.litCount page, drive := s.driveLoad page }
  ({ t with pages := { t.pages with loaded := bump t.pages.loaded } }).recordReport page r.next .loaded

/-- A refused fragment (R147, R149). -/
def State.refuseSdat (s : State) (d : Sdat) (origin : Nat) (port : Option PortId) (o : LoadOutcome) : State :=
  ({ s with pages := { s.pages with refusedSdat := bump s.pages.refusedSdat } }).loadReport d.page d.loadId d.index o
    origin port

/-- A duplicate fragment (R148, R149). -/
def State.duplicateSdat (s : State) : State :=
  { s with pages := { s.pages with duplicate := bump s.pages.duplicate } }

/-- The old load of a LOADING page is superseded (R148, step 1). -/
def State.supersede (s : State) (page : Fin 4) : State :=
  if (s.pages.records[page]).state = .loading then
    ({ s with pages := { s.pages with superseded := bump s.pages.superseded } }).recordReport page
      (s.pages.records[page]).next .superseded
  else s

/-- A FIRST fragment for a page that is not displayed (R148). -/
def State.beginLoad (s : State) (d : Sdat) (origin : Nat) (port : Option PortId) : State :=
  let old := s.pages.records[d.page]
  if old.state = .loading ∧ old.loadId = some d.loadId ∧ old.origin = some origin then s.duplicateSdat
  else
    let t := s.supersede d.page
    let r : PageRecord :=
      { state := .loading, loadId := some d.loadId, origin := some origin, port := port, next := 1, lit := 0,
        drive := 0, activity := old.activity, timer := old.timer }
    let u := t.setRecord d.page r
    let v := if d.clear then { u with pages := { u.pages with pixels := clearPage u.pages.pixels d.page } } else u
    match v.applyWrite d.page d.write with
    | none => v.abortLoad d.page .badWrite
    | some m =>
      let w := { v with pages := { v.pages with pixels := m } }
      let x := w.setRecord d.page { r with activity := some w.time.lt, timer := w.startTimer 5000000 }
      if d.last then x.completeLoad d.page else x

/-- The next fragment index after one is taken; the manual gives none that can be held after 65,535 (log entry 9). -/
def State.nextIndex (s : State) (x : Nat) : Nat := if x < 65535 then x + 1 else Config.freeNat s.freeCount % 65536

/-- A fragment without FIRST for a page that is not displayed (R149). A bad write aborts with the loading port and the last
activity LT that the record had (log entry 24, DEDUCED). -/
def State.continueLoad (s : State) (d : Sdat) (origin : Nat) (port : Option PortId) : State :=
  let r := s.pages.records[d.page]
  if r.state ≠ .loading then s.refuseSdat d origin port .notLoading
  else if r.loadId ≠ some d.loadId ∨ r.origin ≠ some origin ∨ r.next < d.index then s.abortLoad d.page .mismatch
  else if d.index < r.next then s.duplicateSdat
  else
    match s.applyWrite d.page d.write with
    | none => s.abortLoad d.page .badWrite
    | some m =>
      let t := { s with pages := { s.pages with pixels := m } }
      let taken := { r with port := port, activity := some t.time.lt, timer := t.startTimer 5000000 }
      if d.index = 65535 ∧ d.last = false then (t.setRecord d.page taken).abortLoad d.page .tooLong
      else
        let u := t.setRecord d.page { taken with next := t.nextIndex r.next }
        let v := if r.next < 65535 then u else { u with freeCount := u.freeCount + 1 }
        if d.last then v.completeLoad d.page else v

/-- An SDAT handed to Sign Page Memory in RUNNING (R142, R146, R147, R157). -/
def State.takeSdat (s : State) (origin : Nat) (port : Option PortId) (payload : List Byte) : State :=
  if s.signPresent = false then { s with pages := { s.pages with refusedSdat := bump s.pages.refusedSdat } }
  else
    match parseSdat payload with
    | none => { s with pages := { s.pages with badSdat := bump s.pages.badSdat } }
    | some d =>
      if s.display.page = some d.page then s.refuseSdat d origin port .displayed
      else if d.first then s.beginLoad d origin port
      else s.continueLoad d origin port

/-! ### The claim list (R161, R162) -/

/-- A claim placed as the newest of its priority (R161). -/
def placeClaim (c : Claim) : List Claim → List Claim
  | [] => [c]
  | x :: rest => if x.priority ≤ c.priority then c :: x :: rest else x :: placeClaim c rest

/-- The list without the claim of a claimant. -/
def dropClaimant (who : Claimant) (l : List Claim) : List Claim := l.filter fun c => c.claimant != who

/-- The claim of a claimant. -/
def claimOf (who : Claimant) (l : List Claim) : Option Claim := l.find? fun c => c.claimant == who

/-- What a claim request came to (R162). -/
inductive ClaimResult where
  | refreshed
  | placed
  | evicting (old : Claim)
  | refused
  deriving DecidableEq, Repr

/-- A claim request dealt with (R162). -/
def requestClaim (c : Claim) (l : List Claim) : List Claim × ClaimResult :=
  match claimOf c.claimant l with
  | some old =>
    if old.page = c.page ∧ old.priority = c.priority ∧ old.showAt = c.showAt then
      (l.map fun x => if x.claimant = c.claimant then { x with expiry := c.expiry } else x, .refreshed)
    else (placeClaim c (dropClaimant c.claimant l), .placed)
  | none =>
    if l.length < 8 then (placeClaim c l, .placed)
    else
      match l.getLast? with
      | some last => if last.priority < c.priority then (placeClaim c l.dropLast, .evicting last) else (l, .refused)
      | none => (l, .refused)

/-- A claim report (R166). -/
def State.claimReport (s : State) (command outcome page priority removed : Nat) (addressee : Nat)
    (fallback : Option PortId) : State :=
  s.signReport addressee fallback
    ([2, BitVec.ofNat 8 command, BitVec.ofNat 8 outcome, BitVec.ofNat 8 page, BitVec.ofNat 8 priority,
        BitVec.ofNat 8 removed, BitVec.ofNat 8 s.display.claims.length] ++ bytesLT s.time.lt)

/-- A claim request at Sign Display, with its counters and the report of an evicted CENTRE claim (R162, R166). -/
def State.claimRequest (s : State) (c : Claim) : State :=
  let q := requestClaim c s.display.claims
  let t := { s with display := { s.display with claims := q.1 } }
  match q.2 with
  | .refreshed => t
  | .placed => t
  | .refused => { t with display := { t.display with refused := bump t.display.refused } }
  | .evicting old =>
    let u := { t with display := { t.display with evicted := bump t.display.evicted } }
    match old.claimant, old.placedBy with
    | .centre, some n => u.claimReport 4 6 old.page old.priority 0 n none
    | _, _ => u

/-- A lifetime in seconds, clamped, as an expiry from a base (R164, R167, R168). -/
def expiryFrom (base : LTime) (seconds : Nat) : LTime := base + BitVec.ofNat 48 (min seconds 86400 * 1000000)

/-- A rule claim (R168). -/
def State.ruleClaim (s : State) (n : Fin 8) (page : Fin 4) (priority lifetime : Nat) : State :=
  if s.signActs then
    s.claimRequest
      { claimant := .rule n, page := page, priority := priority, expiry := some (expiryFrom s.time.lt lifetime),
        showAt := none, placedBy := none }
  else s

/-- The claim of a claimant leaves the list. -/
def State.withdrawClaim (s : State) (who : Claimant) : State :=
  { s with display := { s.display with claims := dropClaimant who s.display.claims } }

/-- A rule withdraw (R168). -/
def State.ruleWithdraw (s : State) (n : Fin 8) : State := if s.signActs then s.withdrawClaim (.rule n) else s

/-- The matching entry of the sign rule table (R167). -/
def State.signRule (s : State) (a : AlertItem) : Option SignRule :=
  s.cfg.signRules.find? fun r => r.kind != 0 && r.kind == a.kind && decide (r.minSeverity ≤ a.severity)

/-- One alert item (R167). -/
def State.alertItem (s : State) (origin : Nat) (a : AlertItem) : State :=
  if s.signActs = false then s
  else if a.withdraw = true ∨ a.lifetime = 0 then s.withdrawClaim (.alert origin a.kind)
  else
    match s.signRule a with
    | none => s
    | some r =>
      s.claimRequest
        { claimant := .alert origin a.kind, page := r.page, priority := r.priority,
          expiry := some (expiryFrom s.time.lt a.lifetime), showAt := none, placedBy := none }

/-- The items of a good WALR, one at a time; a bad one is dropped whole (R167, R204). -/
def State.takeWalr (s : State) (origin : Nat) (payload : List Byte) : State :=
  match parseWalr payload with
  | none => s
  | some items => items.foldl (fun t a => t.alertItem origin a) s

/-- The show-at of a CLAIM, at most 600 s after LT (R164). -/
def State.clampShowAt (s : State) (t : LTime) : LTime :=
  if 600000000 < ltDiff t s.time.lt then s.ltPlus 600000000 else t

/-- A CLAIM's expiry (R164). -/
def State.claimExpiry (s : State) (lifetime : Nat) (showAt : Option LTime) : Option LTime :=
  if lifetime = 0 then none else some (expiryFrom (showAt.getD s.time.lt) lifetime)

/-- A CLAIM taken (R164). -/
def State.takeClaim (s : State) (origin : Nat) (port : Option PortId) (page : Fin 4) (priority lifetime : Nat)
    (showAt : Option LTime) : State :=
  let at' := showAt.map s.clampShowAt
  let c : Claim :=
    { claimant := .centre, page := page, priority := priority, expiry := s.claimExpiry lifetime at', showAt := at',
      placedBy := some origin }
  let outcome := if (requestClaim c s.display.claims).2 = .refused then 2 else 1
  (s.claimRequest c).claimReport 1 outcome page priority 0 origin port

/-- An SCMD handed to Sign Display (R163 to R165). -/
def State.takeScmd (s : State) (origin : Nat) (port : Option PortId) (payload : List Byte) : State :=
  if s.signActs = false then s
  else
    match parseScmd payload with
    | none => { s with display := { s.display with badScmd := bump s.display.badScmd } }
    | some c =>
      if origin ≠ s.cfg.number ∧ s.terminusPresence origin = none then
        { s with display := { s.display with strayScmd := bump s.display.strayScmd } }
      else
        match c with
        | .claim page priority lifetime showAt => s.takeClaim origin port page priority lifetime showAt
        | .withdraw =>
          (s.withdrawClaim .centre).claimReport 2 (if (claimOf .centre s.display.claims).isSome then 3 else 4) 0 0 0
            origin port
        | .purge =>
          ({ s with display := { s.display with claims := [] } }).claimReport 3 5 0 0 s.display.claims.length origin port

end Sys2Proof.Machine
end

