-- ==== Sys2Proof/Machine/CallOps.lean ====
section
/-! DEFINITION. Shared operations of Call Control (chapter 5). -/

namespace Sys2Proof.Machine

/-! ### The call table (R71, R72) -/

/-- The eight places of the call table. -/
def allCalls : List (Fin 8) := [0, 1, 2, 3, 4, 5, 6, 7]

/-- The entry at a place of the call table. -/
def State.call (s : State) (e : Fin 8) : Option CallEntry := s.calls.table[e]

/-- The state with one place of the call table replaced. -/
def State.setCall (s : State) (e : Fin 8) (c : Option CallEntry) : State :=
  { s with calls := { s.calls with table := s.calls.table.set e c } }

/-- The first place whose entry satisfies a condition. Next ref comes round after 256 calls, so two entries can hold one call
reference; R72 does not say which of them a frame or a HANGUP is matched to, and the model takes the lowest place (DESIGN
CHOICE, log entry 29). -/
def State.findCall (s : State) (f : CallEntry → Bool) : Option (Fin 8) := allCalls.find? fun e => (s.call e).any f

/-- The first free place (R71): R75, R85, R87 and R90 say "a free entry", and the model takes the lowest place, which sets the
order of the entries in NSTA (DESIGN CHOICE, log entry 29). -/
def State.freeCallPlace (s : State) : Option (Fin 8) := allCalls.find? fun e => (s.call e).isNone

/-- The entry that holds a call reference (R72); the lowest place, where two do (log entry 29). -/
def State.callByRef (s : State) (r : CallRef) : Option (Fin 8) := s.findCall fun c => c.ref == r

/-- The entry that a CACC, CREL or VOIC matches: reference and far node (R72); the lowest place, where two match (log entry
29). -/
def State.callMatch (s : State) (r : CallRef) (origin : Nat) : Option (Fin 8) :=
  s.findCall fun c => c.ref == r && c.far == some origin

/-- The entry bound to a phone port (R73). -/
def State.boundCall (s : State) (ph : PhoneId) : Option (Fin 8) := s.findCall fun c => c.near == .phone ph

/-- How many entries are in use. -/
def State.callsInUse (s : State) : Nat := (allCalls.filter fun e => (s.call e).isSome).length

/-- The entry holds a console channel (Figure 5-3). -/
def CallEntry.holdsChannel (c : CallEntry) : Bool := c.state == .connected || c.state == .calling

/-- How many console channels are held (R73, R87). -/
def State.channelsHeld (s : State) : Nat := (allCalls.filter fun e => (s.call e).any CallEntry.holdsChannel).length

/-- A console channel is free (R73). -/
def State.channelFree (s : State) : Bool := decide (s.channelsHeld < s.cfg.consoleChannels)

/-- The phone port of an entry, none for a console (Figure 5-1). -/
def CallEntry.phonePort (c : CallEntry) : Option PhoneId :=
  match c.near with
  | .phone ph => some ph
  | .console => none

/-- A new entry with every count 0 and every timer stopped (R75, R85, R87, R90). -/
def CallEntry.fresh (ref : CallRef) (near : NearEnd) (far : Option Nat) (port : Option PortId) (st : CallState) :
    CallEntry :=
  { ref := ref, near := near, callersPort := none, far := far, port := port, state := st, attempts := 0,
    resume := false, outSeq := 0, playout := Playout.initial, attemptTimer := none, silenceTimer := none,
    keepTimer := none, ringTimer := none, conceal := 0, slow := false, busyWait := false, position := 0 }

/-- The call reference of a call the node starts, and the state with next ref raised (R72). -/
def State.takeRef (s : State) : CallRef × State :=
  (⟨BitVec.ofNat 8 s.cfg.number, s.calls.nextRef⟩, { s with calls := { s.calls with nextRef := s.calls.nextRef + 1 } })

/-- The entry's timers stopped. -/
def CallEntry.stopTimers (c : CallEntry) : CallEntry :=
  { c with attemptTimer := none, silenceTimer := none, keepTimer := none, ringTimer := none,
           playout := { c.playout with timer := none } }

/-! ### Tones and ringing (R97, R98) -/

/-- The periods of a tone's cadence in µs, on first; none for a continuous tone (R97). -/
def Tone.cadence : Tone → List Nat
  | .asking => [1000000, 3000000]
  | .waiting => [200000, 200000, 200000, 3400000]
  | .fault => [250000, 250000]
  | .clear => []

/-- The frequency of a tone in Hz (R97). -/
def Tone.frequency : Tone → Nat
  | .asking => 440
  | .waiting => 440
  | .fault => 620
  | .clear => 440

/-- The timer of one period of a cadence. -/
def State.cadenceTimer (s : State) (t : Tone) (period : Nat) : Timer := (t.cadence[period]?).map fun us => ⟨s.refTime, us⟩

/-- The earpiece of a phone port takes a tone, or none; a cadence begins when the tone changes (R97). -/
def State.earpiece (s : State) (ph : PhoneId) (t : Option Tone) : State :=
  let p := s.calls.phone ph
  let q : PhonePort :=
    if p.tone = t then { p with played := [] }
    else { p with tone := t, tonePeriod := 0, toneTimer := t.bind fun x => s.cadenceTimer x 0, played := [] }
  { s with calls := s.calls.setPhone ph q }

/-- The earpiece of an entry's phone port takes a tone; a console has none. -/
def State.entryTone (s : State) (c : CallEntry) (t : Option Tone) : State :=
  match c.phonePort with
  | some ph => s.earpiece ph t
  | none => s

/-- The ring output starts its cycles with the active part (R98). -/
def State.startRing (s : State) (ph : PhoneId) : State :=
  { s with calls := s.calls.setPhone ph { s.calls.phone ph with ring := true, ringTimer := s.startTimer 1000000 } }

/-- The ring output becomes inactive at once (R98). -/
def State.stopRing (s : State) (ph : PhoneId) : State :=
  { s with calls := s.calls.setPhone ph { s.calls.phone ph with ring := false, ringTimer := none } }

/-- A roadside entry is freed: its earpiece carries silence and its ring output is inactive (R83, R84, R86). -/
def State.freePhoneCall (s : State) (e : Fin 8) (c : CallEntry) : State :=
  let t := (s.setCall e none).entryTone c none
  match c.phonePort with
  | some ph => t.stopRing ph
  | none => t

/-! ### Call frames (R74) -/

/-- A call frame toward a far node on a port; with either missing no offer is made (R74). -/
def State.offerCall (s : State) (far : Option Nat) (port : Option PortId) (k : FrameKind) (payload : List Byte) : State :=
  match far with
  | some t => s.offerOn port (s.ownFrame k 255 t payload)
  | none => s

/-- A CREQ payload (12.3). -/
def creqPayload (r : CallRef) (q : CallRequest) (phone : Option PhoneId) (attempts : Nat) : List Byte :=
  bytesRef r ++ [BitVec.ofNat 8 q.code, BitVec.ofNat 8 (phoneCode phone), BitVec.ofNat 8 attempts]

/-- A CACC payload (12.3). -/
def caccPayload (r : CallRef) (a : CallAnswer) (position : Nat) : List Byte :=
  bytesRef r ++ [BitVec.ofNat 8 a.code, BitVec.ofNat 8 position]

/-- A CREL payload (12.3). -/
def crelPayload (r : CallRef) (c : ReleaseCause) : List Byte := bytesRef r ++ [BitVec.ofNat 8 c.code]

/-- A VOIC payload (12.3). -/
def voicPayload (r : CallRef) (f : VoiceFrame) : List Byte := bytesRef r ++ bytesBE 2 f.seq.toNat ++ f.samples

/-- An answer sent for an entry (R78, R85 to R89). -/
def State.sendAnswer (s : State) (c : CallEntry) (a : CallAnswer) (position : Nat) : State :=
  s.offerCall c.far c.port .cacc (caccPayload c.ref a position)

/-- BUSY sent to the origin of a request on its port of arrival, with no entry made (R85, R87). -/
def State.sendBusy (s : State) (r : CallRef) (origin : Nat) (p : PortId) : State :=
  s.offer p (s.ownFrame .cacc 255 origin (caccPayload r .busy 0))

/-! ### Releases (R83) -/

/-- One CREL of a release is offered. -/
def State.offerRelease (s : State) (r : Release) : State :=
  s.offerCall (some r.far) r.port .crel (crelPayload r.ref r.cause)

/-- A release is placed: its first CREL goes at once, two more follow at each 100 ms; a full list loses its oldest
(R83). -/
def State.placeRelease (s : State) (ref : CallRef) (far : Nat) (port : Option PortId) (cause : ReleaseCause) : State :=
  let r : Release := { ref := ref, far := far, port := port, cause := cause, left := 2, timer := s.startTimer 100000 }
  let kept := if s.calls.releases.length < 8 then s.calls.releases else s.calls.releases.drop 1
  { s with calls := { s.calls with releases := kept ++ [r] } }.offerRelease r

/-- A release for an entry that has a far node (R83). -/
def State.releaseEntry (s : State) (c : CallEntry) (cause : ReleaseCause) : State :=
  match c.far with
  | some t => s.placeRelease c.ref t c.port cause
  | none => s

/-! ### Roadside attempts (R76, R77) -/

/-- The far node and port of the current terminus choice, or none (R76, R79, R81). -/
def CallEntry.toChoice (c : CallEntry) (s : State) : CallEntry := { c with far := s.choiceFar.1, port := s.choiceFar.2 }

/-- The far node settled before an attempt (R76). -/
def CallEntry.settleFar (c : CallEntry) (s : State) : CallEntry :=
  match c.far.bind s.terminusPresence with
  | some p => { c with port := some p }
  | none => c.toChoice s

/-- The request of an attempt: RESUME in RESUMING, otherwise ASK (R76). -/
def CallEntry.request (c : CallEntry) : CallRequest := if c.state = .resuming then .resume else .ask

/-- A CREQ of an entry (R74, R76, R82). -/
def State.offerCreq (s : State) (c : CallEntry) (q : CallRequest) (phone : Option PhoneId) : State :=
  s.offerCall c.far c.port .creq (creqPayload c.ref q phone c.attempts)

/-- An attempt of an entry in ASKING or RESUMING (R76). -/
def State.attempt (s : State) (e : Fin 8) (c : CallEntry) : State :=
  let d := c.settleFar s
  let wait := if c.slow || c.busyWait then 5000000 else 1000000
  let d' := { d with attempts := min 255 (c.attempts + 1), attemptTimer := s.startTimer wait }
  (s.setCall e (some d')).offerCreq d' d'.request d'.phonePort

/-- The entry enters the slow phase: fault tone and attempts every 5 s (R77). -/
def State.slowAttempt (s : State) (e : Fin 8) (c : CallEntry) : State :=
  (s.entryTone c (some .fault)).attempt e { c with slow := true }

/-- The attempt timer of an entry in ASKING expires (R77). With the attempt count 0, after a BUSY in WAITING (R78), R77 has no
case, and the next attempt is made (DEDUCED, log entry 20). Above 10 the entry is in the slow phase, which goes on. -/
def State.askAgain (s : State) (e : Fin 8) (c : CallEntry) : State :=
  if c.attempts = 5 then
    match s.alternateChoice c.far with
    | .terminus n p _ => s.attempt e { c with far := some n, port := some p }
    | _ => s.slowAttempt e c
  else if 10 ≤ c.attempts then s.slowAttempt e c
  else s.attempt e c

/-! ### Playout (R94, R95, R96) -/

/-- A voice sequence is later than another: the signed difference modulo 2^16 is positive (R94, the sequence comparisons of the
scope). -/
def seqLater (a b : BitVec 16) : Bool := 0 < (a - b).toInt

/-- A frame put at its place in the order of a playout buffer (R94): before the first held frame that is later, else last. Where
the sequences lie half the range or more apart, as those of frames taken in before playout starts can, "later" is no order and
the spec is silent: the place is the model's (DESIGN CHOICE, log entry 31). -/
def insertVoice (f : VoiceFrame) : List VoiceFrame → List VoiceFrame
  | [] => [f]
  | x :: rest => if seqLater x.seq f.seq then f :: x :: rest else x :: insertVoice f rest

/-- What becomes of an arriving voice frame (R94). -/
inductive VoiceCase where
  | late
  | duplicate
  | overflow
  | kept
  deriving DecidableEq, Repr

/-- The cases of R94, the first that holds. -/
def Playout.judge (p : Playout) (f : VoiceFrame) : VoiceCase :=
  if p.lastPlayed.any (fun l => !seqLater f.seq l) then .late
  else if p.frames.any (fun x => x.seq == f.seq) then .duplicate
  else if 8 ≤ p.frames.length then .overflow
  else .kept

/-- The samples of silence (R95). -/
def silenceSamples : List Byte := List.replicate 40 Config.silenceSample

/-- The samples that a playout produces go to the earpiece, or as CONSOLE-VOICE to the outbound queue (R96). -/
def State.emitVoice (s : State) (c : CallEntry) (samples : List Byte) : State :=
  match c.phonePort with
  | some ph =>
    if (s.calls.phone ph).tone = none then
      { s with calls := s.calls.setPhone ph { s.calls.phone ph with played := samples } }
    else s
  | none =>
    if s.queueRoom && s.calls.pendingMsgs.isEmpty then s.placeTail ⟨0x8E, bytesRef c.ref ++ samples⟩
    else { s with calls := { s.calls with consoleDrop := bump s.calls.consoleDrop } }

/-- A frame is played: it is the last real frame and its sequence the last played position (R95). -/
def playedFrame (f : VoiceFrame) (rest : List VoiceFrame) (timer : Timer) : Playout :=
  { frames := rest, lastPlayed := some f.seq, started := true, repeats := 0, lastReal := some f.samples, timer := timer }

/-- Playout starts when the buffer holds 3 frames with the flag clear (R95). -/
def State.startPlayout (s : State) (e : Fin 8) (c : CallEntry) : State :=
  if c.playout.started || decide (c.playout.frames.length < 3) then s
  else
    match c.playout.frames with
    | f :: rest =>
      let d := { c with playout := playedFrame f rest (s.startTimer 5000) }
      (s.setCall e (some d)).emitVoice d f.samples
    | [] => s

/-- A VOIC matched to a talking entry reaches its playout buffer (R94, R95). -/
def State.playoutArrival (s : State) (e : Fin 8) (c : CallEntry) (f : VoiceFrame) : State :=
  match c.playout.judge f with
  | .late => { s with calls := { s.calls with voiceLate := bump s.calls.voiceLate } }
  | .duplicate => { s with calls := { s.calls with voiceLate := bump s.calls.voiceLate } }
  | .overflow => { s with calls := { s.calls with voiceOverflow := bump s.calls.voiceOverflow } }
  | .kept =>
    let d := { c with playout := { c.playout with frames := insertVoice f c.playout.frames } }
    (s.setCall e (some d)).startPlayout e d

/-- One expiry of the play timer: the entry after it and the samples it produces (R95). -/
def CallEntry.playStep (c : CallEntry) (timer : Timer) : CallEntry × List Byte :=
  let p := c.playout
  let expected := (p.lastPlayed.getD 0) + 1
  match p.frames with
  | f :: rest =>
    if f.seq = expected then ({ c with playout := playedFrame f rest timer }, f.samples)
    else if 2 ≤ rest.length then ({ c with playout := playedFrame f rest timer, conceal := bump c.conceal }, f.samples)
    else if p.repeats < 2 then
      ({ c with playout := { p with lastPlayed := some expected, repeats := p.repeats + 1, timer := timer },
                conceal := bump c.conceal }, p.lastReal.getD silenceSamples)
    else
      ({ c with playout := { p with lastPlayed := some expected, timer := timer }, conceal := bump c.conceal },
        silenceSamples)
  | [] =>
    if p.repeats < 2 then
      ({ c with playout := { p with lastPlayed := some expected, repeats := p.repeats + 1, timer := timer },
                conceal := bump c.conceal }, p.lastReal.getD silenceSamples)
    else
      ({ c with playout := { p with lastPlayed := some expected, timer := timer }, conceal := bump c.conceal },
        silenceSamples)

/-- One VOIC sent for an entry; the out sequence rises whatever the offer's answer (R93). -/
def State.sendVoice (s : State) (e : Fin 8) (c : CallEntry) (samples : List Byte) : State :=
  (s.setCall e (some { c with outSeq := c.outSeq + 1 })).offerCall c.far c.port .voic
    (voicPayload c.ref ⟨c.outSeq, samples⟩)

/-! ### Roadside changes of state (R75, R78 to R86) -/

/-- The entry enters TALKING (R78, R86). -/
def State.enterTalking (s : State) (e : Fin 8) (c : CallEntry) : State :=
  let d := { c.stopTimers with state := .talking, resume := false, slow := false, busyWait := false,
                               silenceTimer := s.startTimer 1000000, playout := Playout.initial }
  (s.setCall e (some d)).entryTone d none

/-- The entry enters WAITING with the position an answer gave (R78). -/
def State.enterWaiting (s : State) (e : Fin 8) (c : CallEntry) (position : Nat) : State :=
  let d := { c.stopTimers with state := .waiting, resume := false, slow := false, busyWait := false,
                               keepTimer := s.startTimer 5000000, position := position }
  (s.setCall e (some d)).entryTone d (some .waiting)

/-- The entry enters RESUMING and makes an attempt at once (R79, R81). -/
def State.enterResuming (s : State) (e : Fin 8) (c : CallEntry) : State :=
  let d := { c.stopTimers.toChoice s with state := .resuming, resume := true, attempts := 0, slow := false,
                                          busyWait := false }
  (s.entryTone d (some .fault)).attempt e d

/-- The far end has released the call: the entry enters CLEARED (R84). -/
def State.enterCleared (s : State) (e : Fin 8) (c : CallEntry) : State :=
  let d := { c.stopTimers with state := .cleared, slow := false, busyWait := false }
  (s.setCall e (some d)).entryTone d (some .clear)

/-- BUSY for an entry in WAITING: ASKING again from attempt 0 after 5 s (R78). -/
def State.backToAsking (s : State) (e : Fin 8) (c : CallEntry) : State :=
  let d := { c.stopTimers with state := .asking, attempts := 0, slow := false, busyWait := true,
                               attemptTimer := s.startTimer 5000000 }
  (s.setCall e (some d)).entryTone d (some .asking)

/-- BUSY for an entry in ASKING or RESUMING: the attempt timer is restarted for 5 s (R78). -/
def State.waitAfterBusy (s : State) (e : Fin 8) (c : CallEntry) : State :=
  s.setCall e (some { c with busyWait := true, attemptTimer := s.startTimer 5000000 })

/-- The table of R78: a CACC matched to a roadside entry. -/
def State.roadsideAnswer (s : State) (e : Fin 8) (c : CallEntry) (a : Cacc) : State :=
  match c.state, a.answer with
  | .asking, .accept => s.enterTalking e c
  | .waiting, .accept => s.enterTalking e c
  | .resuming, .accept => s.enterTalking e c
  | .asking, .queued => s.enterWaiting e c a.position
  | .resuming, .queued => s.enterWaiting e c a.position
  | .waiting, .queued => s.setCall e (some { c with position := a.position })
  | .asking, .busy => s.waitAfterBusy e c
  | .resuming, .busy => s.waitAfterBusy e c
  | .waiting, .busy => s.backToAsking e c
  | _, _ => s

/-- The incident alert of a new emergency call (R80). -/
def State.incidentAlert (s : State) : State :=
  if s.cfg.incidentZone = 0 then s
  else
    let item : AlertItem := { kind := 15, severity := 3, lifetime := s.cfg.incidentHold, withdraw := false }
    let f := s.ownFrame .walr s.cfg.incidentZone 0 (walrPayload [item])
    ((s.offer .east f).offer .west f).alertItem s.cfg.number item

/-- A hook DEPART on an idle phone port of a roadside node starts an emergency call (R75). -/
def State.startEmergencyCall (s : State) (ph : PhoneId) : State :=
  match s.freeCallPlace with
  | none => s
  | some e =>
    let c := CallEntry.fresh s.takeRef.1 (.phone ph) s.choiceFar.1 s.choiceFar.2 .asking
    (((s.takeRef.2.setCall e (some c)).earpiece ph (some .asking)).incidentAlert).attempt e c

/-- A hook DEPART answers a ringing call (R86). -/
def State.answerRing (s : State) (e : Fin 8) (c : CallEntry) (ph : PhoneId) : State :=
  ((s.stopRing ph).enterTalking e c).sendAnswer c .accept 0

/-- Call Control acts on hook events and phone ports: ROADSIDE with PHONE fitted (R71, R73). -/
def State.phonesAct (s : State) : Bool := s.isRoadside && s.cfg.services.phone

/-- A hook DEPART (R75, R86). -/
def State.hookDepart (s : State) (ph : PhoneId) : State :=
  if s.phonesAct then
    match s.boundCall ph with
    | none => s.startEmergencyCall ph
    | some e =>
      match s.call e with
      | some c => if c.state = .ringing then s.answerRing e c ph else s
      | none => s
  else s

/-- A hook RETURN (R83). -/
def State.hookReturn (s : State) (ph : PhoneId) : State :=
  if s.phonesAct then
    match s.boundCall ph with
    | none => s
    | some e =>
      match s.call e with
      | some c => if c.state = .cleared then s.freePhoneCall e c else (s.freePhoneCall e c).releaseEntry c .clear
      | none => s
  else s

/-! ### Reports of the Reach View (R79) -/

/-- An attempt made at once for a choice change (R79). In ASKING the eleventh attempt and every later one is of the slow phase:
with a count above 10 the entry is already in it (R77; that this attempt enters it is DEDUCED, log entry 20). -/
def State.choiceAttempt (s : State) (e : Fin 8) (c : CallEntry) : State :=
  if c.state = .asking ∧ 10 ≤ c.attempts then s.slowAttempt e c else s.attempt e c

/-- The entry at a place acts on a choice change to a terminus (R79). -/
def State.choiceForCall (n : Nat) (p : PortId) (s : State) (e : Fin 8) : State :=
  match s.call e with
  | some c =>
    if (c.state = .asking ∨ c.state = .resuming) ∧ c.far = none then
      s.choiceAttempt e { c with far := some n, port := some p }
    else s
  | none => s

/-- A choice change reaches Call Control (R79). -/
def State.callsChoice (s : State) (r : Route) : State :=
  match r with
  | .via n p => allCalls.foldl (State.choiceForCall n p) s
  | _ => s

/-- The entry at a place acts on a terminus loss (R79). -/
def State.lossForCall (n : Nat) (s : State) (e : Fin 8) : State :=
  match s.call e with
  | some c =>
    if c.far = some n then
      match c.state with
      | .asking => s.setCall e (some (c.toChoice s))
      | .resuming => s.setCall e (some (c.toChoice s))
      | .waiting => s.enterResuming e c
      | _ => s
    else s
  | none => s

/-- A terminus loss reaches Call Control (R79). -/
def State.callsLoss (s : State) (n : Nat) : State := allCalls.foldl (State.lossForCall n) s

/-! ### Terminus (R87 to R91) -/

/-- Two bytes that name a node and a phone port code in a cabinet message. -/
def bytesNode (n : Option Nat) : Byte := BitVec.ofNat 8 (n.getD 0)

/-- CALL-IN (12.4). Its origin node is the far node, also where the reference names another node, of which R92 says nothing
(DEDUCED, log entry 20). -/
def callIn (c : CallEntry) : CabMsg :=
  ⟨0x89, bytesRef c.ref ++ [bytesNode c.far, BitVec.ofNat 8 (phoneCode c.callersPort), flagByte c.resume]⟩

/-- CALL-WAIT (12.4). -/
def callWait (c : CallEntry) (position : Nat) : CabMsg :=
  ⟨0x8A, bytesRef c.ref ++ [BitVec.ofNat 8 position, flagByte c.resume]⟩

/-- The causes of CALL-LOST (12.4). -/
inductive LostCause where
  | timeout
  | noAnswer
  | noRoute
  deriving DecidableEq, Repr

/-- The code of a CALL-LOST cause (12.4). -/
def LostCause.code : LostCause → Byte
  | .timeout => 1
  | .noAnswer => 2
  | .noRoute => 3

/-- CALL-LOST (12.4). -/
def callLost (r : CallRef) (node : Byte) (cause : LostCause) (conceal : Counter) : CabMsg :=
  ⟨0x8B, bytesRef r ++ [node, cause.code] ++ bytesCounter conceal⟩

/-- CALL-END (12.4). -/
def callEnd (c : CallEntry) (cause : ReleaseCause) : CabMsg :=
  ⟨0x8C, bytesRef c.ref ++ [BitVec.ofNat 8 cause.code] ++ bytesCounter c.conceal⟩

/-- CALL-BUSY (12.4). -/
def callBusy (r : CallRef) (node phone : Byte) : CabMsg := ⟨0x8D, bytesRef r ++ [node, phone]⟩

/-- The position of a QUEUED entry: its place in the wait order counted from 1 (R88). -/
def State.waitPosition (s : State) (e : Fin 8) : Nat :=
  (s.calls.waitOrder.takeWhile fun x => x != e).length + 1

/-- An entry leaves the wait order (R88). -/
def State.leaveWait (s : State) (e : Fin 8) : State :=
  { s with calls := { s.calls with waitOrder := s.calls.waitOrder.filter fun x => x != e } }

/-- The entry enters CONNECTED: timers stopped, playout reset, silence timer of 10 s (R87, R89, R91). -/
def State.connect (s : State) (e : Fin 8) (c : CallEntry) : State :=
  let d := { c.stopTimers with state := .connected, silenceTimer := s.startTimer 10000000, playout := Playout.initial }
  s.setCall e (some d)

/-- The head of the wait order takes a free channel (R89). -/
def State.promote (s : State) : State :=
  match s.calls.waitOrder with
  | [] => s
  | e :: _ =>
    if s.channelFree then
      match (s.leaveWait e).call e with
      | some c => (((s.leaveWait e).connect e c).sendAnswer c .accept 0).callMessage (callIn c)
      | none => s.leaveWait e
    else s

/-- An entry at a terminus is freed, its message is placed, and a channel it held goes to the head of the wait order
(R88, R89, R91). -/
def State.freeConsoleCall (s : State) (e : Fin 8) (c : CallEntry) (m : CabMsg) : State :=
  let t := ((s.setCall e none).leaveWait e).callMessage m
  if c.holdsChannel then t.promote else t

/-- A CALLING entry is answered (R91). -/
def State.callingAnswered (s : State) (e : Fin 8) (c : CallEntry) : State :=
  ((s.connect e c).callMessage (callIn c)).promote

/-- A CACC delivered to a TERMINUS acts on a CALLING entry only (R74, R90, R91). -/
def State.terminusAnswer (s : State) (e : Fin 8) (c : CallEntry) (a : Cacc) : State :=
  match c.state, a.answer with
  | .calling, .accept => s.callingAnswered e c
  | .calling, .ringing => s.setCall e (some { c with attemptTimer := none })
  | .calling, .busy => s.freeConsoleCall e c (callBusy c.ref (bytesNode c.far) 0)
  | _, _ => s

/-- A new request at a TERMINUS with PHONE (R87). -/
def State.newRequest (s : State) (p : PortId) (origin : Nat) (q : Creq) : State :=
  let resume := q.request == .resume
  match s.freeCallPlace with
  | none => (s.sendBusy q.ref origin p).callMessage (callBusy q.ref (bytesNode (some origin)) 0)
  | some e =>
    let c := { CallEntry.fresh q.ref .console (some origin) (some p) .queued with
                callersPort := q.phone, attempts := q.attempts, resume := resume }
    if s.channelFree then ((s.connect e c).sendAnswer c .accept 0).callMessage (callIn c)
    else
      let t := s.setCall e (some { c with keepTimer := s.startTimer 15000000 })
      let order := if resume then e :: s.calls.waitOrder else s.calls.waitOrder ++ [e]
      let u := { t with calls := { t.calls with waitOrder := order } }
      (u.sendAnswer c .queued (u.waitPosition e)).callMessage (callWait c (u.waitPosition e))

/-- A repeated request (R87). An entry in CALLING takes the port and the attempt count and sends no answer, since R87 names one
for CONNECTED and QUEUED alone (DEDUCED, log entry 20). -/
def State.repeatRequest (s : State) (p : PortId) (e : Fin 8) (c : CallEntry) (q : Creq) : State :=
  let d := { c with port := some p, attempts := q.attempts,
                    keepTimer := if c.state = .queued then s.startTimer 15000000 else c.keepTimer }
  let t := s.setCall e (some d)
  match c.state with
  | .connected => t.sendAnswer d .accept 0
  | .queued => t.sendAnswer d .queued (t.waitPosition e)
  | _ => t

/-! ### Call frames delivered (R13, R72, R204) -/

/-- The answer a RING for a known reference repeats (R85). -/
def State.repeatRing (s : State) (p : PortId) (e : Fin 8) (c : CallEntry) : State :=
  let d := { c with port := some p }
  let t := s.setCall e (some d)
  match c.state with
  | .ringing => t.sendAnswer d .ringing 0
  | .cleared => t
  | _ => t.sendAnswer d .accept 0

/-- The hook line of a phone port. -/
def hookOf : PhoneId → LevelLine
  | .phoneA => .hookA
  | .phoneB => .hookB

/-- A phone port is ringable: idle, its hook line watched and returned (R85). -/
def State.ringable (s : State) (ph : PhoneId) : Bool :=
  (s.boundCall ph).isNone && s.watched (hookOf ph) && !s.watchDeparted (hookOf ph)

/-- A ringable port begins to ring (R85). -/
def State.beginRing (s : State) (p : PortId) (origin : Nat) (ref : CallRef) (ph : PhoneId) (e : Fin 8) : State :=
  let c := { CallEntry.fresh ref (.phone ph) (some origin) (some p) .ringing with
              ringTimer := s.startTimer 65000000 }
  ((s.setCall e (some c)).sendAnswer c .ringing 0).startRing ph

/-- A CREQ of request RING at a ROADSIDE node with PHONE (R85). -/
def State.ringRequest (s : State) (p : PortId) (origin : Nat) (q : Creq) : State :=
  match s.callByRef q.ref with
  | some e =>
    match s.call e with
    | some c => s.repeatRing p e c
    | none => s
  | none =>
    match q.phone, s.freeCallPlace with
    | some ph, some e => if s.ringable ph then s.beginRing p origin q.ref ph e else s.sendBusy q.ref origin p
    | _, _ => s.sendBusy q.ref origin p

/-- The entry that a frame matches takes the port of arrival (R72). -/
def State.matchedPort (s : State) (p : PortId) (e : Option (Fin 8)) : State :=
  match e with
  | some k =>
    match s.call k with
    | some c => s.setCall k (some { c with port := some p })
    | none => s
  | none => s

/-- A CREQ answered BUSY, the entry that holds its reference taking the port of arrival (R71 to R73, R87). -/
def State.busyCreq (s : State) (p : PortId) (origin : Nat) (q : Creq) : State :=
  (s.matchedPort p (s.callByRef q.ref)).sendBusy q.ref origin p

/-- A CREQ delivered (R72 to R74, R85, R87). -/
def State.takeCreq (s : State) (p : PortId) (origin : Nat) (q : Creq) : State :=
  if q.request = .ask ∧ q.ref.origin.toNat ≠ origin then s
  else if s.isTerminus then
    if s.cfg.services.phone = false ∨ q.request = .ring then s.busyCreq p origin q
    else
      match s.callByRef q.ref with
      | some e =>
        match s.call e with
        | some c => s.repeatRequest p e c q
        | none => s
      | none => s.newRequest p origin q
  else if q.request = .ring then
    if s.cfg.services.phone then s.ringRequest p origin q else s.busyCreq p origin q
  else s

/-- A CACC delivered (R72, R78, R91). -/
def State.takeCacc (s : State) (p : PortId) (origin : Nat) (a : Cacc) : State :=
  match s.callMatch a.ref origin with
  | some e =>
    match s.call e with
    | some c =>
      let d := { c with port := some p }
      if s.isTerminus then (s.setCall e (some d)).terminusAnswer e d a
      else (s.setCall e (some d)).roadsideAnswer e d a
    | none => s
  | none =>
    if s.isTerminus = false ∧ (s.callByRef a.ref).isSome = true ∧ (a.answer = .accept ∨ a.answer = .queued) then
      s.placeRelease a.ref origin (some p) .clear
    else s

/-- A CREL delivered (R72, R84, R88, R89, R91). -/
def State.takeCrel (s : State) (p : PortId) (origin : Nat) (ref : CallRef) (cause : ReleaseCause) : State :=
  match s.callMatch ref origin with
  | none => s
  | some e =>
    match s.call e with
    | none => s
    | some c =>
      let d := { c with port := some p }
      let t := s.setCall e (some d)
      if s.isTerminus then t.freeConsoleCall e d (callEnd d cause)
      else
        match c.state with
        | .ringing => t.freePhoneCall e d
        | .cleared => t
        | _ => t.enterCleared e d

/-- A VOIC delivered (R72, R81, R89, R91, R94). -/
def State.takeVoic (s : State) (p : PortId) (origin : Nat) (ref : CallRef) (f : VoiceFrame) : State :=
  match s.callMatch ref origin with
  | none => s
  | some e =>
    match s.call e with
    | none => s
    | some c =>
      let d := { c with port := some p }
      match c.state with
      | .talking =>
        let d' := { d with silenceTimer := s.startTimer 1000000 }
        (s.setCall e (some d')).playoutArrival e d' f
      | .connected =>
        let d' := { d with silenceTimer := s.startTimer 10000000 }
        (s.setCall e (some d')).playoutArrival e d' f
      | .calling =>
        let t := s.callingAnswered e d
        match t.call e with
        | some d' => t.playoutArrival e d' f
        | none => t
      | _ => s.setCall e (some d)

/-- A call frame delivered to Call Control; an ill-formed one is dropped (R204). -/
def State.takeCallFrame (s : State) (p : PortId) (f : Frame) : State :=
  match f.kind with
  | .creq =>
    match parseCreq f.payload with
    | some q => s.takeCreq p f.origin q
    | none => s
  | .cacc =>
    match parseCacc f.payload with
    | some a => s.takeCacc p f.origin a
    | none => s
  | .crel =>
    match parseCrel f.payload with
    | some (r, c) => s.takeCrel p f.origin r c
    | none => s
  | .voic =>
    match parseVoic f.payload with
    | some (r, v) => s.takeVoic p f.origin r v
    | none => s
  | _ => s

end Sys2Proof.Machine
end

