-- ==== Sys2Proof/Machine/CallTimers.lean ====
section
/-! DEFINITION. What the timers of Call Control, its cadences and the centre's call messages do (R77, R81 to R83, R86, R88 to
R93, R95, R97, R98). -/

namespace Sys2Proof.Machine

/-- An entry acted on when one of its timers runs and a condition holds; otherwise nothing changes. -/
def State.onEntry (s : State) (e : Fin 8) (cond : CallEntry → Bool) (act : CallEntry → State) : State :=
  match s.call e with
  | some c => if cond c then act c else s
  | none => s

/-! ### Roadside (R77, R81, R82, R86) -/

/-- The attempt timer runs in ASKING or RESUMING. -/
def CallEntry.attempting (c : CallEntry) : Bool :=
  c.attemptTimer.isSome && (c.state == .asking || c.state == .resuming)

/-- The attempt timer of a roadside entry expires (R77, R81). -/
def State.attemptExpiry (s : State) (e : Fin 8) : State :=
  s.onEntry e CallEntry.attempting fun c =>
    if c.state = .asking then s.askAgain e { c with busyWait := false } else s.attempt e { c with busyWait := false }

/-- The silence timer of a TALKING entry expires (R81). -/
def State.roadsideSilence (s : State) (e : Fin 8) : State :=
  s.onEntry e (fun c => c.silenceTimer.isSome && c.state == .talking) fun c =>
    match c.far.bind s.terminusPresence with
    | some p => s.setCall e (some { c with port := some p, silenceTimer := s.startTimer 1000000 })
    | none => s.enterResuming e c

/-- The keep timer of a WAITING entry expires (R82). -/
def State.roadsideKeep (s : State) (e : Fin 8) : State :=
  s.onEntry e (fun c => c.keepTimer.isSome && c.state == .waiting) fun c =>
    (s.setCall e (some { c with keepTimer := s.startTimer 5000000 })).offerCreq c .ask c.phonePort

/-- The ring timer of a RINGING entry expires (R86). -/
def State.roadsideRing (s : State) (e : Fin 8) : State :=
  s.onEntry e (fun c => c.ringTimer.isSome && c.state == .ringing) fun c => s.freePhoneCall e c

/-! ### Terminus (R88 to R91) -/

/-- The silence timer of a CONNECTED entry expires (R89). -/
def State.terminusSilence (s : State) (e : Fin 8) : State :=
  s.onEntry e (fun c => c.silenceTimer.isSome && c.state == .connected) fun c =>
    (s.releaseEntry c .timeout).freeConsoleCall e c (callLost c.ref (bytesNode c.far) .timeout c.conceal)

/-- The keep timer of a QUEUED entry expires (R88). -/
def State.queuedKeep (s : State) (e : Fin 8) : State :=
  s.onEntry e (fun c => c.keepTimer.isSome && c.state == .queued) fun c =>
    s.freeConsoleCall e c (callLost c.ref (bytesNode c.far) .timeout c.conceal)

/-- The ring timer of a CALLING entry expires (R91). -/
def State.callingRing (s : State) (e : Fin 8) : State :=
  s.onEntry e (fun c => c.ringTimer.isSome && c.state == .calling) fun c =>
    (s.releaseEntry c .noAnswer).freeConsoleCall e c (callLost c.ref (bytesNode c.far) .noAnswer c.conceal)

/-- One CREQ of request RING, with the attempt timer started for 1 s (R90). It carries the attempt count after it is raised, so
the first carries 1, as R76 has it for ASK and RESUME (log entry 20, DEDUCED). -/
def State.ringAttempt (s : State) (e : Fin 8) (c : CallEntry) : State :=
  let d := { c with attempts := min 255 (c.attempts + 1), attemptTimer := s.startTimer 1000000 }
  (s.setCall e (some d)).offerCreq d .ring d.callersPort

/-- The attempt timer of a CALLING entry expires (R90). -/
def State.ringOutAttempt (s : State) (e : Fin 8) : State :=
  s.onEntry e (fun c => c.attemptTimer.isSome && c.state == .calling) fun c => s.ringAttempt e c

/-- A RING-OUT at a TERMINUS in RUNNING (R90). -/
def State.takeRingOut (s : State) (node phone : Byte) : State :=
  let busy := s.callMessage (callBusy ⟨0, 0⟩ node phone)
  if s.cfg.services.phone = false ∨ s.channelFree = false then busy
  else
    match s.freeCallPlace with
    | none => busy
    | some e =>
      match s.nodePort node.toNat with
      | none => s.callMessage (callLost ⟨0, 0⟩ node .noRoute 0)
      | some p =>
        let c := { CallEntry.fresh s.takeRef.1 .console (some node.toNat) (some p) .calling with
                    callersPort := phoneOf phone.toNat, ringTimer := s.startTimer 60000000 }
        (s.takeRef.2.callMessage (callWait c 0)).ringAttempt e c

/-- A HANGUP at a TERMINUS in RUNNING (R88, R89, R91). -/
def State.takeHangup (s : State) (ref : CallRef) : State :=
  match s.callByRef ref with
  | some e =>
    match s.call e with
    | some c => (s.releaseEntry c .hangup).freeConsoleCall e c (callEnd c .hangup)
    | none => s
  | none => s

/-- A CONSOLE-VOICE at a TERMINUS in RUNNING (R93). -/
def State.takeConsoleVoice (s : State) (ref : CallRef) (samples : List Byte) : State :=
  match s.findCall (fun c => c.ref == ref && c.state == .connected) with
  | some e => s.onEntry e (fun _ => true) fun c => s.sendVoice e c samples
  | none => s

/-- The head of the pending list goes to the outbound queue when it has room (R92). -/
def State.drainPending (s : State) : State :=
  match s.calls.pendingMsgs with
  | m :: rest =>
    if s.queueRoom then { s with calls := { s.calls with pendingMsgs := rest } }.placeTail m else s
  | [] => s

/-! ### Releases (R83) -/

/-- The 100 ms of a release end: its next CREL, the third being the last (R83). -/
def State.releaseExpiry (s : State) (i : Fin 8) : State :=
  match s.calls.releases[(i : Nat)]? with
  | none => s
  | some r =>
    if r.timer.isSome then
      let l :=
        if r.left ≤ 1 then s.calls.releases.eraseIdx i
        else s.calls.releases.set i { r with left := r.left - 1, timer := s.startTimer 100000 }
      { s with calls := { s.calls with releases := l } }.offerRelease r
    else s

/-! ### Voice and cadences (R93, R95, R97, R98) -/

/-- The play timer of an entry expires (R95, R96). -/
def State.playExpiry (s : State) (e : Fin 8) : State :=
  s.onEntry e (fun c => c.playout.timer.isSome && (c.state == .talking || c.state == .connected)) fun c =>
    let q := c.playStep (s.startTimer 5000)
    (s.setCall e (some q.1)).emitVoice q.1 q.2

/-- Forty microphone samples of a phone port (R93). -/
def State.takeSamples (s : State) (ph : PhoneId) (samples : List Byte) : State :=
  if s.isRunning then
    match s.boundCall ph with
    | some e => s.onEntry e (fun c => c.state == .talking) fun c => s.sendVoice e c samples
    | none => s
  else s

/-- A period of a tone's cadence ends (R97). -/
def State.cadenceStep (s : State) (ph : PhoneId) : State :=
  let p := s.calls.phone ph
  match p.tone with
  | some t =>
    if p.toneTimer.isSome then
      let n := (p.tonePeriod + 1) % t.cadence.length
      { s with calls := s.calls.setPhone ph { p with tonePeriod := n, toneTimer := s.cadenceTimer t n } }
    else s
  | none => s

/-- A period of the ring output's cycle ends: 1 s active, 2 s inactive (R98). -/
def State.ringStep (s : State) (ph : PhoneId) : State :=
  let p := s.calls.phone ph
  if p.ringTimer.isSome then
    let q := { p with ring := !p.ring, ringTimer := s.startTimer (if p.ring then 2000000 else 1000000) }
    { s with calls := s.calls.setPhone ph q }
  else s

end Sys2Proof.Machine
end

