-- ==== Sys2Proof/Machine/SpoolOps.lean ====
section
/-! DEFINITION. Shared operations of the Toll Spool: slots, sectors, marks, batches, the start scan and generation marks
(chapter 6). The array arbiter stands in DeliveryOps. -/

namespace Sys2Proof.Machine

/-! ### Slots and positions (R101, R102, R111) -/

/-- The position of a FILLED slot. -/
def SlotState.filledPos : SlotState → Option Position
  | .filled p => some p
  | _ => none

/-- The slot carries a mark pending flag (R102). -/
def SlotState.markPending : SlotState → Bool
  | .delivered _ b => b
  | _ => false

/-- The positions of all FILLED slots. -/
def Spool.filledPositions (p : Spool) : List Position := p.slots.filterMap fun e => e.2.filledPos

/-- The lowest of some positions. -/
def lowestPos : List Position → Option Position
  | [] => none
  | a :: rest =>
    match lowestPos rest with
    | none => some a
    | some b => if posLt b a then some b else some a

/-- The oldest FILLED record (R111). -/
def Spool.oldestFilled (p : Spool) : Option Position := lowestPos p.filledPositions

/-- The next FILLED record after a position (R111). -/
def Spool.nextFilledAfter (p : Spool) (a : Position) : Option Position :=
  lowestPos (p.filledPositions.filter fun b => posLt a b)

/-- The slot that holds a FILLED record of a position; the lowest, where two hold one (log entry 30, DESIGN CHOICE). -/
def Spool.slotOf (p : Spool) (a : Position) : Option Nat :=
  (p.slots.find? fun e => e.2 == .filled a).map Prod.fst

/-- A record is named DELIVERED: at once in working memory, its mark pending (R112). -/
def Spool.deliver (p : Spool) (a : Position) : Spool :=
  match p.slotOf a with
  | some k => { p with slots := keySet p.slots k (.delivered a true) }
  | none => p

/-- The first EMPTY slot of a sector, in slot order (R107). -/
def Spool.emptySlot (p : Spool) (n : Nat) : Option Nat :=
  ((List.range 32).map (32 * n + ·)).find? fun k => (keyGet p.slots k).isNone

/-- The slots of a sector that are not EMPTY. -/
def Spool.sectorSlots (p : Spool) (n : Nat) : List (Nat × SlotState) := p.slots.filter fun e => sectorOf e.1 == n

/-- A sector holds a FILLED slot or a slot with a pending mark (R109, R113). -/
def Spool.sectorLive (p : Spool) (n : Nat) : Bool :=
  (p.sectorSlots n).any fun e => e.2.filledPos.isSome || e.2.markPending

/-! ### Sectors and batches (R103, R109, R113, R114) -/

/-- The record of a sector in working memory replaced; EMPTY with no flag is not listed. -/
def Spool.setSector (p : Spool) (n : Nat) (w : SectorWork) : Spool :=
  { p with sectors := if w = ⟨.empty, false, false, false⟩ then keyDel p.sectors n else keySet p.sectors n w }

/-- The sector is made weak with a WEAK mark pending (R108, R112). -/
def Spool.weaken (p : Spool) (n : Nat) : Spool :=
  p.setSector n { p.sector n with weak := true, weakMark := true }

/-- The first EMPTY sector in ring order after a sector (R109); with no fill point, after a start that found the spool full and
held no record, from sector 0, as R121 has it for the start itself (DEDUCED, log entry 18). -/
def Spool.nextEmpty (p : Spool) (after : Option Nat) : Option Nat :=
  let start := match after with
    | some n => n + 1
    | none => 0
  ((List.range 63).map fun i => (start + i) % 63).find? fun n => (p.sector n).state == .empty

/-- A sector becomes FILLING and the fill point its number (R109); with none EMPTY the spool is full. -/
def Spool.fillAfter (p : Spool) (after : Option Nat) : Spool :=
  match p.nextEmpty after with
  | some n => { p.setSector n { p.sector n with state := .filling } with fillPoint := some n }
  | none => p

/-- A RECLAIM sector joins the pending batch (R114). -/
def State.joinBatch (s : State) (n : Nat) : State :=
  let b : Batch :=
    match s.spool.batch with
    | none => { sectors := [n], closed := false, timer := s.startTimer 80000 }
    | some b =>
      { sectors := if b.sectors.contains n then b.sectors else b.sectors ++ [n], closed := b.closed,
        timer := if b.closed then none else s.startTimer 80000 }
  { s with spool := { s.spool with batch := some b } }

/-- A sector with no live slot becomes RECLAIM and joins a batch, or BAD with a BAD mark pending when it is weak
(R113). -/
def State.retireSector (s : State) (n : Nat) : State :=
  let w := s.spool.sector n
  if w.weak then { s with spool := s.spool.setSector n { w with state := .bad, badMark := true } }
  else { s with spool := s.spool.setSector n { w with state := .reclaim } }.joinBatch n

/-- A FULL sector with no live slot is retired (R113). -/
def State.reclaimFull (s : State) (n : Nat) : State :=
  if (s.spool.sector n).state = .full ∧ s.spool.sectorLive n = false then s.retireSector n else s

/-- The FILLING sector with no EMPTY slot left ceases to be FILLING and the next EMPTY one becomes FILLING (R109). -/
def State.sectorChange (s : State) : State :=
  match s.spool.filling with
  | none => s
  | some n =>
    if (s.spool.emptySlot n).isSome then s
    else
      let t :=
        if s.spool.sectorLive n then
          { s with spool := s.spool.setSector n { s.spool.sector n with state := .full } }
        else s.retireSector n
      { t with spool := t.spool.fillAfter (some n) }

/-! ### The array (R101, R102) -/

/-- The header of a sector. -/
def TollArray.header (a : TollArray) (n : Nat) : Header := (keyGet a.headers n).getD ⟨false, false, false⟩

/-- The header of a sector replaced; an erased header is not listed. -/
def TollArray.setHeader (a : TollArray) (n : Nat) (h : Header) : TollArray :=
  { a with headers := if h = ⟨false, false, false⟩ then keyDel a.headers n else keySet a.headers n h }

/-- Record cells programmed in part (R102). -/
def SlotCells.part : SlotCells := ⟨none, false, false⟩

/-- A record program begins on a slot: USE first where it is erased in slot 0's sector, then cells that are programmed in
part until the end (R102, R104). -/
def TollArray.beginRecord (a : TollArray) (slot : Nat) : TollArray :=
  let a := if slot % 32 = 0 then a.setHeader (sectorOf slot) { a.header (sectorOf slot) with use := true } else a
  { a with slots := keySet a.slots slot SlotCells.part }

/-- A mark as it stands after its program: set when the program ended. -/
def TollArray.setMark (a : TollArray) : MarkTarget → TollArray
  | .weak n => a.setHeader n { a.header n with weak := true }
  | .bad n => a.setHeader n { a.header n with bad := true }
  | .delivered k =>
    match keyGet a.slots k with
    | some c => { a with slots := keySet a.slots k { c with delivered := true } }
    | none => a

/-- A mark whose program was abandoned: a DELIVERED mark reads as not set (R112, R201); a WEAK or BAD mark is set or not
by a free bit (log entry 3). -/
def TollArray.abandonMark (a : TollArray) (free : Bool) : MarkTarget → TollArray
  | .delivered _ => a
  | t => if free then a.setMark t else a

/-- A sector whose erase did not come to its end: its header is erased, its first programmed slot still reads as
programmed, and each other one is left as it was or erased by a free bit (R118, R121, R201; log entry 7). -/
def TollArray.eraseInPart (a : TollArray) (free : Nat → Bool) (n : Nat) : TollArray :=
  let first := (a.slots.find? fun e => sectorOf e.1 == n).map Prod.fst
  { a with
    headers := keyDel a.headers n
    slots := a.slots.filterMap fun e =>
      if sectorOf e.1 ≠ n then some e
      else if some e.1 = first then some (e.1, SlotCells.part)
      else if free e.1 then some e
      else none }

/-- A sector wholly erased. -/
def TollArray.eraseSector (a : TollArray) (n : Nat) : TollArray :=
  { a with headers := keyDel a.headers n, slots := a.slots.filter fun e => sectorOf e.1 != n }

/-- A generation-mark place after an abandoned program: a free value (log entry 4). -/
def TollArray.abandonGenMark (a : TollArray) (free : Option Nat) (place : Nat) : TollArray :=
  { a with marks := match free with
      | some v => keySet a.marks place v
      | none => a.marks }

/-- The first erased mark place at or after a place (R122). -/
def TollArray.erasedPlace (a : TollArray) (start : Nat) : Option Nat :=
  (List.range 32).find? fun k => decide (start ≤ k) && (keyGet a.marks k).isNone

/-- Several sectors left partly erased, free bits taken for every slot of the array. -/
def State.eraseInPart (s : State) (ns : List Nat) : State :=
  { s with
    array := ns.foldl (fun a n => a.eraseInPart (fun k => Config.freeBit (s.freeCount + k)) n) s.array
    freeCount := s.freeCount + 2016 }

/-- What a start, or the loss of the supply, leaves of the operation in progress on the array (R201). -/
def State.cutArray (s : State) : State :=
  let t : State :=
    match s.spool.op with
    | .markProgram m => { s.takeBit.2 with array := s.array.abandonMark s.takeBit.1 m }
    | .genMark place =>
      { s with
        array := s.array.abandonGenMark (Config.freeMark s.freeCount) place
        freeCount := s.freeCount + 1 }
    | .markSectorErase => { s with array := { s.array with marks := [] } }
    | _ => s
  match t.spool.erase with
  | some e => t.eraseInPart e.sectors
  | none => t

/-! ### Generation marks (R106, R122) -/

/-- A generation mark is wanted: into the first erased place, or after an erase of the mark sector (R122). -/
def State.wantGenMark (s : State) (value : Nat) : State :=
  let stage := match s.array.erasedPlace 0 with
    | some k => GenStage.program k false
    | none => .eraseSector
  { s with spool := { s.spool with genJob := some ⟨value, stage⟩ } }

/-- The waiting generation mark takes the array, unless POWER-WARN is departed (R122). -/
def State.startGenJob (s : State) : State :=
  match s.spool.genJob with
  | none => s
  | some j =>
    if s.powerFailing then s
    else
      { s with spool := { s.spool with op := match j.stage with
          | .program k _ => .genMark k
          | .eraseSector => .markSectorErase } }

/-- The generation after one: 1 after 65,535 (R106, R122). -/
def nextGeneration (g : Nat) : Nat := if 65535 ≤ g then 1 else g + 1

/-! ### The start scan (R120 to R122) -/

/-- The header of a sector is erased. -/
def TollArray.headerErased (a : TollArray) (n : Nat) : Bool := a.header n == ⟨false, false, false⟩

/-- A sector whose slots the scan takes as VOID and passes over: BAD mark set, or header erased (R120). -/
def TollArray.passedOver (a : TollArray) (n : Nat) : Bool := (a.header n).bad || a.headerErased n

/-- The state a slot's content stands for (Figure 6-2); an erased slot is not listed. -/
def SlotCells.state (c : SlotCells) : SlotState :=
  match c.complete, c.record with
  | true, some r => if c.delivered then .delivered r.pos false else .filled r.pos
  | _, _ => .void

/-- The position of a slot with COMPLETE set. -/
def SlotCells.completePos (c : SlotCells) : Option Position := if c.complete then c.record.map (·.pos) else none

/-- The slot states the scan takes into working memory (R120). -/
def scanSlots (a : TollArray) : List (Nat × SlotState) :=
  a.slots.map fun e => (e.1, if a.passedOver (sectorOf e.1) then .void else e.2.state)

/-- The positions held in slots with COMPLETE set, with their sectors, passed-over sectors left out (R120). -/
def scanPositions (a : TollArray) : List (Position × Nat) :=
  a.slots.filterMap fun e =>
    if a.passedOver (sectorOf e.1) then none else e.2.completePos.map fun q => (q, sectorOf e.1)

/-- The highest of some positions with its sector (R121). Where records in two sectors have the highest position, it is the first
of the list, so the sector of the lowest slot (DESIGN CHOICE, log entry 30). -/
def highestPos : List (Position × Nat) → Option (Position × Nat)
  | [] => none
  | a :: rest =>
    match highestPos rest with
    | none => some a
    | some b => if posLt a.1 b.1 then some b else some a

/-- The state of a record sector by its content, and whether it is a FILLING candidate (R121); `ss` are the scanned
states of its slots that are not EMPTY. -/
def scanSector (h : Header) (ss : List SlotState) : SectorWork × Bool :=
  let done := ss.length = 32 ∧ ss.all (fun x => x.filledPos.isNone) = true
  if h.bad then (⟨.bad, h.weak, false, false⟩, false)
  else if h = ⟨false, false, false⟩ then (⟨if ss = [] then .empty else .reclaim, false, false, false⟩, false)
  else if h.weak = true ∧ done then (⟨.bad, true, false, true⟩, false)
  else if done then (⟨.reclaim, h.weak, false, false⟩, false)
  else if ss.length = 32 then (⟨.full, h.weak, false, false⟩, false)
  else (⟨.full, h.weak, false, false⟩, true)

/-- The candidate that becomes FILLING (R121). -/
def pickCandidate (cands : List Nat) (positions : List (Position × Nat)) (top : Option Nat) : Option Nat :=
  match highestPos (positions.filter fun e => cands.contains e.2) with
  | some e => some e.2
  | none =>
    let start := match top with
      | some n => n + 1
      | none => 0
    ((List.range 63).map fun i => (start + i) % 63).find? fun n => cands.contains n

/-- The start scan's reading taken into working memory: slots, sectors, FILLING sector, fill point, batch, generation and
next sequence; the generation mark is then wanted (R120, R121, R122). -/
def State.scan (s : State) : State :=
  let a := s.array
  let slots := scanSlots a
  let sec := fun n => scanSector (a.header n) ((slots.filter fun e => sectorOf e.1 == n).map Prod.snd)
  let all := List.range 63
  let cands := all.filter fun n => (sec n).2
  let positions := scanPositions a
  let top := (highestPos positions).map Prod.snd
  let listed := all.filterMap fun n => if (sec n).1.state == .empty then none else some (n, (sec n).1)
  let gens := (a.slots.filterMap fun e => e.2.completePos.map (·.gen)) ++ a.marks.map Prod.snd
  let gen := if gens = [] then 1 else nextGeneration (gens.foldl max 0)
  let base : Spool :=
    { s.spool with slots := slots, sectors := listed, fillPoint := top, generation := gen, nextSeq := 1,
                   scanReading := false }
  let picked := if cands.length ≤ 1 then cands.head? else pickCandidate cands positions top
  let p : Spool :=
    match picked with
    | some n => { base.setSector n { base.sector n with state := .filling } with fillPoint := some n }
    | none => base.fillAfter top
  let t := { s with spool := p }
  let others := (cands.filter fun n => some n != picked).foldl
    (fun u n => if u.spool.sectorLive n then u
      else if (u.spool.sector n).weak then u.retireSector n
      else { u with spool := u.spool.setSector n { u.spool.sector n with state := .reclaim } }) t
  let joined := (all.filter fun n => (others.spool.sector n).state == .reclaim).foldl (fun u n => u.joinBatch n) others
  (joined.wantGenMark gen).startGenJob

/-! ### Pending marks (R104, R112) -/

/-- The header marks pending, in ascending sector, WEAK before BAD (log entry 8). -/
def Spool.sectorMarks (p : Spool) : List MarkTarget :=
  p.sectors.flatMap fun e =>
    (if e.2.weakMark then [MarkTarget.weak e.1] else []) ++ (if e.2.badMark then [MarkTarget.bad e.1] else [])

/-- The slot with a pending mark at the lowest position (R104); the lowest slot, where two hold one position (DESIGN CHOICE, log
entry 30). -/
def Spool.slotMark (p : Spool) : Option MarkTarget :=
  match lowestPos (p.slots.filterMap fun e => match e.2 with
      | .delivered q true => some q
      | _ => none) with
  | none => none
  | some q => (p.slots.find? fun e => e.2 == .delivered q true).map fun e => .delivered e.1

/-- The next pending mark: sector marks before slot marks, slot marks in ascending position (R104). -/
def Spool.nextMark (p : Spool) : Option MarkTarget :=
  match p.sectorMarks with
  | m :: _ => some m
  | [] => p.slotMark

end Sys2Proof.Machine
end

