-- ==== Sys2Proof/Machine/DeliveryOps.lean ====
section
/-! DEFINITION. Shared operations of Toll Delivery and of the receipt (chapter 7), and the array arbiter of the Toll Spool,
which answers Toll Delivery's reads (R104). -/

namespace Sys2Proof.Machine

/-! ### The in-flight window (R127, R128) -/

/-- The record offered to the window: the oldest FILLED, or the next after the last entry when it is of the window's
generation (R127). -/
def State.windowNext (s : State) : Option Position :=
  match s.sending.window.getLast? with
  | none => s.spool.oldestFilled
  | some e =>
    match s.spool.nextFilledAfter e.pos with
    | some q => if q.gen = e.pos.gen then some q else none
    | none => none

/-- A record joins the tail of the window and its read is requested (R127). It has no send LT and send age yet; nothing reads the
two fields before its first offer. -/
def State.windowJoin (s : State) (q : Position) : State :=
  { s with
    sending := { s.sending with window := s.sending.window ++
      [{ pos := q, record := none, sent := false, due := true, sendLT := 0, sentAt := 0 }] }
    spool := { s.spool with reads := s.spool.reads ++ [q] } }

/-- The window takes in as many records as the conditions allow, at most n (R127). -/
def State.fillWindow : Nat → State → State
  | 0, s => s
  | n + 1, s =>
    if s.sending.steer ≠ .none ∧ s.sending.window.length < 16 then
      match s.windowNext with
      | some q => State.fillWindow n (s.windowJoin q)
      | none => s
    else s

/-- The window takes in records, on an occasion of R127. -/
def State.windowIntake (s : State) : State := s.fillWindow 16

/-- A read result is handed to Toll Delivery (R128). -/
def State.readResult (s : State) (q : Position) (r : Option TollRecord) : State :=
  if s.sending.window.any (fun e => e.pos == q) then
    match r with
    | some x =>
      let w := s.sending.window.map fun e => if e.pos = q then { e with record := some x } else e
      { s with sending := { s.sending with window := w } }
    | none =>
      let w := s.sending.window.takeWhile fun e => e.pos != q
      { s with sending := { s.sending with window := w } }.windowIntake
  else s

/-! ### Acknowledgement (R131, R132) -/

/-- The entry that a taken TACK acts on (R132). -/
def ackedBy (ack : Position) (e : WindowEntry) : Bool := e.sent && e.pos.gen == ack.gen && posLe e.pos ack

/-- A taken TACK: the acknowledged entries are marked DELIVERED and leave the window, which then takes in records
(R132). -/
def State.takeTack (s : State) (ack : Position) : State :=
  let acked := s.sending.window.filter (ackedBy ack)
  if acked = [] then s
  else
    { s with
      spool := acked.foldl (fun (p : Spool) (e : WindowEntry) => p.deliver e.pos) s.spool
      sending := { s.sending with window := s.sending.window.filter fun e => !ackedBy ack e } }.windowIntake

/-! ### Receipt (R135 to R139) -/

/-- What the receipt finds of one record (R137). -/
inductive Judgement where
  | accept
  | duplicate
  | outOfOrder
  deriving DecidableEq, Repr

/-- The cases of R137, the first that holds. -/
def judgeRecord (base : Position) (entry : Option ReceiptEntry) (r : Position) : Judgement :=
  match entry with
  | none => .accept
  | some e =>
    if r = e.expected then .accept
    else if r = base ∧ r.gen ≠ e.expected.gen then .accept
    else if posLt r e.expected = true then .duplicate
    else if r = base then .accept
    else .outOfOrder

/-- The TOLL-IN message of a record (R138). -/
def tollIn (origin : Nat) (r : TollRecord) : CabMsg := centreCopy 0x84 origin (recordBytes r)

/-- A record accepted into the outbound queue, which has room (R138). -/
def State.acceptRecord (s : State) (origin : Nat) (r : TollRecord) : State :=
  let t := s.placeTail (tollIn origin r)
  { t with receipt :=
      { t.receipt with table := keySet t.receipt.table origin ⟨r.pos, posSucc r.pos⟩,
                       accepted := bump t.receipt.accepted } }

/-- A good TREC judged record by record (R136 to R138). -/
def State.receiveRecords (base : Position) (origin : Nat) : List TollRecord → State → State
  | [], s => s
  | r :: rest, s =>
    match judgeRecord base (keyGet s.receipt.table origin) r.pos with
    | .accept =>
      if s.queueRoom then State.receiveRecords base origin rest (s.acceptRecord origin r)
      else { s with receipt := { s.receipt with queueFull := bump s.receipt.queueFull } }
    | .duplicate =>
      State.receiveRecords base origin rest
        { s with receipt := { s.receipt with duplicate := bump s.receipt.duplicate } }
    | .outOfOrder => { s with receipt := { s.receipt with outOfOrder := bump s.receipt.outOfOrder } }

/-- A TREC delivered over the line to a terminus, and the TACK that answers it on the port of arrival (R136, R139). -/
def State.receiveTrec (s : State) (p : PortId) (f : Frame) : State :=
  match parseTrec f.payload with
  | none => { s with receipt := { s.receipt with badTrecs := bump s.receipt.badTrecs } }
  | some (base, rs) =>
    let t := s.receiveRecords base f.origin rs
    match keyGet t.receipt.table f.origin with
    | none => t
    | some e =>
      { t with receipt := { t.receipt with tacks := bump t.receipt.tacks } }.offer p
        (t.ownFrame .tack 255 f.origin (bytesPos e.last))

/-! ### Building TRECs (R129, R130, R134) -/

/-- A TREC may be built (R129). -/
def Sending.mayBuild (d : Sending) : Bool :=
  d.steer != .none && d.retry.isNone && d.window.any (·.due) && d.window.all (·.record.isSome)

/-- How many records the next TREC carries: the largest of 4, 2 and 1 that is above neither the due entries nor the run
length (R129). -/
def runOf (due run : Nat) : Nat := if 4 ≤ min due run then 4 else if 2 ≤ min due run then 2 else 1

/-- The first n due entries taken as sent at a moment (R130). -/
def sendDue (lt : LTime) (now : Nat) : Nat → List WindowEntry → List WindowEntry
  | 0, l => l
  | _ + 1, [] => []
  | n + 1, e :: rest =>
    if e.due then { e with due := false, sent := true, sendLT := lt, sentAt := now } :: sendDue lt now n rest
    else e :: sendDue lt now (n + 1) rest

/-- The entries of the next TREC. -/
def State.nextRun (s : State) : List WindowEntry :=
  let due := s.sending.window.filter (·.due)
  due.take (runOf due.length s.cfg.runLength)

/-- The base of a TREC: the oldest FILLED record (R129). -/
def State.base (s : State) : Position := (s.spool.oldestFilled).getD ⟨0, 0⟩

/-- The entries of the next TREC taken as sent, the TREC counted (R130), also for one handed to the node's own receipt (DEDUCED,
log entry 19). -/
def State.countSent (s : State) : State :=
  { s with sending :=
      { s.sending with window := sendDue s.time.lt s.refTime s.nextRun.length s.sending.window,
                       trecs := bump s.sending.trecs } }

/-- One TREC built and offered on the steer's port, or handed to the node's own receipt (R129, R130, R134).
One that the own receipt takes counts in the TREC counter: R134 gives it the answer TAKEN, which R130 counts, though no frame is
offered (DEDUCED, log entry 19). -/
def State.buildOne (s : State) : State :=
  let rs := s.nextRun.filterMap (·.record)
  match s.sending.steer with
  | .none => s
  | .self =>
    let t := s.countSent.receiveRecords s.base s.cfg.number rs
    match keyGet t.receipt.table s.cfg.number with
    | none => t
    | some e => t.takeTack e.last
  | .via _ p =>
    let f := s.ownFrame .trec 255 241 (trecPayload s.base rs)
    match (s.port p).offerAnswer f with
    | .refused =>
      let t := s.offer p f
      { t with sending := { t.sending with retry := t.startTimer 10000,
                                           refusedOffers := bump t.sending.refusedOffers } }
    | _ => (s.countSent).offer p f

/-- TRECs are built one after another for as long as the conditions hold, at most n (R129). -/
def State.buildTrecs : Nat → State → State
  | 0, s => s
  | n + 1, s => if s.sending.mayBuild then State.buildTrecs n s.buildOne else s

/-! ### The array arbiter (R104, R115, R117, R118) -/

/-- A held submission waits for the array: it is not being programmed (R105). -/
def Spool.programWaits (p : Spool) : Bool :=
  p.held.isSome && (match p.op with
    | .recordProgram _ _ => false
    | _ => true)

/-- The record program of the held submission begins, with its stamp at the first program (R107). -/
def State.startRecord (s : State) (slot : Nat) (retry : Bool) : State :=
  { s with
    array := s.array.beginRecord slot
    spool := { s.spool with
      op := .recordProgram slot retry
      held := s.spool.held.map fun h =>
        { h with stamp := some (h.stamp.getD ⟨s.time.lt, s.time.grade, s.time.settled⟩) } } }

/-- The slot the held submission is programmed into: the first EMPTY one of the FILLING sector (R107). -/
def Spool.nextSlot (p : Spool) : Option Nat := p.filling.bind p.emptySlot

/-- Reads whose record is no longer FILLED are answered as no record, oldest first, up to the first that is FILLED
(R111). -/
def State.dropStaleReads (s : State) : State :=
  let stale := s.spool.reads.takeWhile fun q => (s.spool.slotOf q).isNone
  stale.foldl (fun t q => t.readResult q none)
    { s with spool := { s.spool with reads := s.spool.reads.dropWhile fun q => (s.spool.slotOf q).isNone } }

/-- The closed pending batch starts its erase (R115). -/
def State.startErase (s : State) (b : Batch) : State :=
  let p := b.sectors.foldl (fun p n => p.setSector n { p.sector n with state := .erasing }) s.spool
  { s with spool :=
      { p with batch := none
               erase := some { sectors := b.sectors, phase := .active, gathered := 0, since := s.refTime } } }

/-- The last items of the arbiter's order: resumption, pending marks, the start of a closed batch (R104, items 4 to 6). -/
def State.grantRest (s : State) : State :=
  match s.spool.erase with
  | some e => if s.powerFailing then s
    else { s with spool := { s.spool with erase := some { e with phase := .active, since := s.refTime } } }
  | none =>
    if s.powerFailing then s
    else
      match s.spool.nextMark with
      | some m => { s with spool := { s.spool with op := .markProgram m } }
      | none =>
        match s.spool.batch with
        | some b => if b.closed then s.startErase b else s
        | none => s

/-- Items 3 to 6 of the arbiter's order: the oldest read of a FILLED record before the rest (R104). -/
def State.grantRead (s : State) : State :=
  let t := s.dropStaleReads
  match t.spool.reads with
  | q :: rest =>
    match t.spool.slotOf q with
    | some k => { t with spool := { t.spool with reads := rest, op := .read q k } }
    | none => t
  | [] => t.grantRest

/-- The array is free: the arbiter gives it the first waiting work in the order of R104. -/
def State.grant (s : State) : State :=
  match (if s.spool.programWaits && !s.powerFailing then s.spool.nextSlot else none) with
  | some k => s.startRecord k false
  | none =>
    if s.spool.genJob.isSome && s.spool.erase.isNone && !s.powerFailing then s.startGenJob else s.grantRead

/-- The array arbiter at the end of a step: an ACTIVE erase is suspended for a record program or a read, and a free array
is granted (R104, R117). The mark-sector erase of a generation roll is an operation of the array, which a read waits for;
whether a read suspends it R117 and R122 do not say (DEDUCED, log entry 18). -/
def State.pump (s : State) : State :=
  if s.node = .running ∧ s.spool.op = .idle then
    match s.spool.erase with
    | some e =>
      match e.phase with
      | .active =>
        if s.spool.programWaits || !s.spool.reads.isEmpty then
          let e' := { e with phase := ErasePhase.suspending, gathered := s.activeErasePeriods e }
          { s with spool := { s.spool with erase := some e' } }
        else s
      | .suspending => s
      | .suspended => s.grant
    | none => s.grant
  else s

/-- Toll Delivery builds what it may and the array arbiter then acts. -/
def State.runToll (s : State) : State := (s.buildTrecs 17).pump

/-! ### Re-steering (R126) -/

/-- A choice change report reaches Toll Delivery (R126). -/
def State.steerTo (s : State) (r : Route) : State :=
  if s.cfg.services.toll = true ∧ r ≠ s.sending.steer then
    ({ s with sending :=
        { s.sending with steer := r, window := [], retry := none,
                         resteers := bump s.sending.resteers } }.windowIntake).pump
  else s

/-- A TACK delivered over the line to the sending side (R125, R131). -/
def State.tackDelivered (s : State) (f : Frame) : State :=
  if s.cfg.services.toll then
    match parseTack f.payload with
    | none => { s with sending := { s.sending with badTacks := bump s.sending.badTacks } }
    | some ack =>
      match s.sending.steer with
      | .via n _ =>
        if n = f.origin then (s.takeTack ack).runToll
        else { s with sending := { s.sending with strayTacks := bump s.sending.strayTacks } }
      | _ => { s with sending := { s.sending with strayTacks := bump s.sending.strayTacks } }
  else s

end Sys2Proof.Machine
end

