-- ==== Sys2Proof/Machine/WeatherOps.lean ====
section
/-! DEFINITION. Shared operations of Weather Monitor (chapter 10). -/

namespace Sys2Proof.Machine

/-- The pulse values, the rules, the gathering and the WRPT act: RUNNING with the WEATHER service (R176). -/
def State.weatherActs (s : State) : Bool := s.isRunning && s.cfg.services.weather

/-- The eight rules in ascending number. -/
def allRules : List (Fin 8) := [0, 1, 2, 3, 4, 5, 6, 7]

/-- The configuration of a rule (R180). -/
def State.rule (s : State) (n : Fin 8) : RuleConfig := s.cfg.rules.getD n RuleConfig.unused

/-- The work of a rule replaced. -/
def State.setRule (s : State) (n : Fin 8) (w : RuleWork) : State :=
  { s with weather := { s.weather with rules := s.weather.rules.set n w } }

/-! ### Gathering and WALR (R186, R187) -/

/-- A gathered item as it is sent: the rule number is not carried (R187). -/
def GatherItem.item (g : GatherItem) : AlertItem :=
  { kind := g.kind, severity := g.severity, lifetime := g.lifetime, withdraw := g.withdraw }

/-- One item more among those lost, or one WALR more among those taken. -/
def State.countWalr (s : State) (a : Answer) : State :=
  match a with
  | .taken => { s with weather := { s.weather with walrs := bump s.weather.walrs } }
  | _ => { s with weather := { s.weather with alertLost := bump s.weather.alertLost } }

/-- The WALR offered on one port, when the port is LIT and its zone is not 0 (R187). -/
def State.offerWalr (s : State) (p : PortId) (zone : Nat) (payload : List Byte) : State :=
  if (s.port p).state = .lit ∧ zone ≠ 0 then
    let f := s.ownFrame .walr zone 0 payload
    (s.offer p f).countWalr ((s.port p).offerAnswer f)
  else s

/-- Whether a WALR has an offer on a port. -/
def State.hasWalrOffer (s : State) (p : PortId) (zone : Nat) : Bool := (s.port p).state == .lit && zone != 0

/-- The gathering is emptied and its WALR sent (R187). -/
def State.sendWalr (s : State) : State :=
  let payload := walrPayload (s.weather.gathering.map GatherItem.item)
  let t := { s with weather := { s.weather with gathering := [], windowTimer := none } }
  let u :=
    if t.hasWalrOffer .east t.cfg.eastZone || t.hasWalrOffer .west t.cfg.westZone then
      (t.offerWalr .east t.cfg.eastZone payload).offerWalr .west t.cfg.westZone payload
    else t.countWalr .discarded
  if u.isTerminus then u.placeOrDrop (centreCopy 0x87 u.cfg.number payload) else u

/-- An item joins or replaces in the gathering (R186). -/
def State.gather (s : State) (g : GatherItem) : State :=
  let l := s.weather.gathering
  if l = [] then { s with weather := { s.weather with gathering := [g], windowTimer := s.startTimer 500000 } }
  else if l.any (fun x => x.rule == g.rule) then
    let m := l.map fun x => if x.rule = g.rule then g else x
    { s with weather := { s.weather with gathering := m } }
  else
    let t := { s with weather := { s.weather with gathering := l ++ [g] } }
    if 8 ≤ t.weather.gathering.length then t.sendWalr else t

/-! ### Rules (R181 to R185) -/

/-- The raise condition of a value (R181). -/
def raiseHolds (r : RuleConfig) (v : Int) : Bool :=
  match r.sense with
  | .above => decide (r.raiseAt ≤ v)
  | .below => decide (v ≤ r.raiseAt)

/-- The clear condition of a value (R181). -/
def clearHolds (r : RuleConfig) (v : Int) : Bool :=
  match r.sense with
  | .above => decide (v < r.clearAt)
  | .below => decide (r.clearAt < v)

/-- One evaluation of a rule's state (R183). -/
def RuleState.next (st : RuleState) (p : Nat) (raiseC clearC : Bool) : RuleState :=
  match st with
  | .clear => if raiseC then (if p = 1 then .raised else .pending 1) else .clear
  | .pending k => if raiseC then (if k + 1 = p then .raised else .pending (k + 1)) else .clear
  | .raised => if clearC then (if p = 1 then .clear else .clearing 1) else .raised
  | .clearing k => if clearC then (if k + 1 = p then .clear else .clearing (k + 1)) else .raised

/-- The rule is raised in RAISED and CLEARING (R183). -/
def RuleState.isRaised : RuleState → Bool
  | .raised => true
  | .clearing _ => true
  | _ => false

/-- The alert item of a rule (R184). -/
def alertOf (r : RuleConfig) (n : Fin 8) : GatherItem :=
  { rule := n, kind := r.kind, severity := r.severity, lifetime := r.lifetime, withdraw := false }

/-- The withdraw item of a rule (R184). -/
def withdrawOf (r : RuleConfig) (n : Fin 8) : GatherItem :=
  { rule := n, kind := r.kind, severity := r.severity, lifetime := 0, withdraw := true }

/-- The rule claim of a rule that has a local claim (R168, R184). -/
def State.claimForRule (s : State) (n : Fin 8) : State :=
  match (s.rule n).claim with
  | some (page, priority) => s.ruleClaim n page priority (s.rule n).lifetime
  | none => s

/-- The rule withdraw of a rule that has a local claim (R168, R184). -/
def State.withdrawForRule (s : State) (n : Fin 8) : State :=
  if (s.rule n).claim.isSome then s.ruleWithdraw n else s

/-- The renewal timer of a rule (R185). -/
def State.renewalTimer (s : State) (n : Fin 8) : Timer := s.startTimer ((s.rule n).lifetime * 500000)

/-- A rule moves into RAISED from CLEAR or PENDING (R184). -/
def State.ruleRaised (s : State) (n : Fin 8) : State :=
  let t := (s.gather (alertOf (s.rule n) n)).claimForRule n
  t.setRule n { t.weather.rules[n] with renewal := t.renewalTimer n }

/-- A rule moves into CLEAR from RAISED or CLEARING (R184). -/
def State.ruleCleared (s : State) (n : Fin 8) : State :=
  let t := (s.gather (withdrawOf (s.rule n) n)).withdrawForRule n
  t.setRule n { t.weather.rules[n] with renewal := none }

/-- One evaluation of a used rule (R183, R184). -/
def State.evaluate (s : State) (n : Fin 8) (raiseC clearC : Bool) : State :=
  let w := s.weather.rules[n]
  let st := w.state.next (s.rule n).persistence raiseC clearC
  let t := s.setRule n { w with state := st }
  if w.state.isRaised = false ∧ st.isRaised = true then t.ruleRaised n
  else if w.state.isRaised = true ∧ st.isRaised = false then t.ruleCleared n
  else t

/-- Every used rule of a source is evaluated with a value, in ascending number (R182). -/
def State.evaluateSource (s : State) (src : RuleSource) (v : Int) : State :=
  allRules.foldl
    (fun (t : State) (n : Fin 8) =>
      if (t.rule n).kind ≠ 0 ∧ (t.rule n).source = src then
        t.evaluate n (raiseHolds (t.rule n) v) (clearHolds (t.rule n) v)
      else t) s

/-! ### Pulse values (R177) -/

/-- The value of a history, with whether it was saturated (R177). -/
def pulseValue (history : List Nat) (depth scale : Nat) : Nat × Bool :=
  let m := min depth history.length
  let v := (history.take m).sum * scale / (m * 256)
  (min v 65535, decide (65535 < v))

/-- The source of a pulse channel's rules. -/
def pulseSource : PulseId → RuleSource
  | .wind => .wind
  | .rain => .rain

/-- A window end reaches Weather Monitor (R177). -/
def State.windowEnd (s : State) (ch : PulseId) : State :=
  if s.weatherActs then
    let v := pulseValue (pulseGet s.inputs.pulses ch).history (pulseGet s.cfg.depth ch) (pulseGet s.cfg.scale ch)
    let sat := pulseGet s.weather.saturations ch
    let w := { s.weather with values := pulseSet s.weather.values ch (some v.1),
                              saturations := pulseSet s.weather.saturations ch (if v.2 then bump sat else sat) }
    { s with weather := w }.evaluateSource (pulseSource ch) v.1
  else s

/-! ### Reading channels (R178, R179) -/

/-- A reading channel is usable (R179). -/
def ReadingChannel.usable (c : ReadingChannel) : Bool := c.valid && !c.stale

/-- The configured range of a reading channel (R178). -/
def State.readingRange (s : State) (c : Fin 8) : Int × Int := s.cfg.ranges.getD c (-32768, 32767)

/-- A good READING stored in its channel (R178). -/
def State.storeReading (s : State) (c : Fin 8) (value : Int) (valid : Bool) : State :=
  let old := s.weather.channels[c]
  let range := s.readingRange c
  let v := clampInt range.1 range.2 value
  let q : ReadingChannel :=
    { value := v, valid := valid, stale := false, timer := s.startTimer 120000000,
      saturations := if value < range.1 ∨ range.2 < value then bump old.saturations else old.saturations }
  { s with weather := { s.weather with channels := s.weather.channels.set c q } }

/-- A READING in RUNNING (R178, R182). -/
def State.takeReading (s : State) (channel : Byte) (value : BitVec 16) (valid : Bool) : State :=
  if h : channel.toNat < 8 then
    let c : Fin 8 := ⟨channel.toNat, h⟩
    let t := s.storeReading c value.toInt valid
    if t.weatherActs && valid then t.evaluateSource (.channel c) (t.weather.channels[c]).value else t
  else { s with weather := { s.weather with badReading := bump s.weather.badReading } }

/-! ### Contact groups (R65, R66) -/

/-- The group state of a contact mask: set is departed (R65). -/
def State.groupDeparted (s : State) (mask : BitVec 6) : Bool :=
  ([0, 1, 2, 3, 4, 5] : List (Fin 6)).any fun i => mask.getLsbD i && s.watchDeparted (.contact i)

/-- A contact event applied to one rule (R66). An unused rule keeps its group returned, which no rule of the manual says
(DESIGN CHOICE, log entry 27). -/
def State.contactForRule (i : Fin 6) (s : State) (n : Fin 8) : State :=
  match (s.rule n).source with
  | .contacts mask =>
    if (s.rule n).kind ≠ 0 ∧ mask.getLsbD i = true then
      let g := s.groupDeparted mask
      let w := s.weather.rules[n]
      if g = w.group then s else (s.setRule n { w with group := g }).evaluate n g (!g)
    else s
  | _ => s

/-- A contact event reaches Weather Monitor (R66, R176, R182). -/
def State.contactEvent (s : State) (i : Fin 6) : State :=
  if s.weatherActs then allRules.foldl (State.contactForRule i) s else s

/-! ### Renewals (R185) -/

/-- The source of a rule is usable (R185). -/
def State.sourceUsable (s : State) (r : RuleConfig) : Bool :=
  match r.source with
  | .wind => s.weather.values.wind.isSome
  | .rain => s.weather.values.rain.isSome
  | .channel c => (s.weather.channels[c]).usable
  | .contacts _ => true

/-- A renewal timer expires (R185). -/
def State.renew (s : State) (n : Fin 8) : State :=
  let t := s.setRule n { s.weather.rules[n] with renewal := s.renewalTimer n }
  if t.sourceUsable (t.rule n) then (t.gather (alertOf (t.rule n) n)).claimForRule n else t

/-! ### Weather report (R188) -/

/-- One pulse channel of a WRPT (12.3). -/
def State.wrptPulse (s : State) (ch : PulseId) : List Byte :=
  let v := pulseGet s.weather.values ch
  [flagByte v.isSome] ++ bytesBE 2 (v.getD 0) ++
    [BitVec.ofNat 8 (pulseGet s.cfg.pulseWindow ch), BitVec.ofNat 8 (pulseGet s.inputs.pulses ch).history.length] ++
    bytesCounter (pulseGet s.weather.saturations ch)

/-- One reading channel of a WRPT (12.3). -/
def wrptChannel (c : ReadingChannel) : List Byte :=
  bytesSigned16 c.value ++ [BitVec.ofNat 8 (c.valid.toNat + 2 * c.stale.toNat)] ++ bytesCounter c.saturations

/-- State and k of a rule in reports; an unused rule is 0 (12.3). Where the state has no k, k is sent as 0 (log entry 6,
DEDUCED). -/
def ruleStateBytes (r : RuleConfig) (st : RuleState) : List Byte :=
  if r.kind = 0 then [0, 0]
  else
    match st with
    | .clear => [1, 0]
    | .pending k => [2, BitVec.ofNat 8 k]
    | .raised => [3, 0]
    | .clearing k => [4, BitVec.ofNat 8 k]

/-- The states of the eight rules with their k. -/
def State.ruleBytes (s : State) (n : Fin 8) : List Byte := ruleStateBytes (s.rule n) (s.weather.rules[n]).state

/-- A WRPT payload (R188, 12.3). -/
def State.wrptPayload (s : State) : List Byte :=
  s.wrptPulse .wind ++ s.wrptPulse .rain ++ s.weather.channels.toList.flatMap wrptChannel ++
    allRules.flatMap (fun n => s.ruleBytes n ++ [BitVec.ofNat 8 (s.rule n).kind]) ++
    bytesCounter s.weather.badReading ++ bytesCounter s.weather.walrs ++ bytesCounter s.weather.alertLost

/-- A report lost (R188). -/
def State.countReportLost (s : State) : State :=
  { s with weather := { s.weather with reportLost := bump s.weather.reportLost } }

/-- The WRPT is built and sent by the terminus choice (R188). -/
def State.sendWrpt (s : State) : State :=
  match s.terminusChoice with
  | .terminus _ p _ =>
    let f := s.ownFrame .wrpt 255 241 s.wrptPayload
    let t := s.offer p f
    match (s.port p).offerAnswer f with
    | .taken => t
    | _ => t.countReportLost
  | .self => s.placeOrDrop (centreCopy 0x86 s.cfg.number s.wrptPayload)
  | .none => s.countReportLost

end Sys2Proof.Machine
end

