-- ==== Sys2Proof/Machine/StatusOps.lean ====
section
/-! DEFINITION. The node status report NSTA (R197, R198, 12.3) and the STATUS answer (R194, 12.4). -/

namespace Sys2Proof.Machine

/-! ### Items and parts (R197) -/

/-- The value of one item: plain, or a list whose elements all have the given size. -/
inductive NstaItem where
  | plain (v : List Byte)
  | listing (size : Nat) (elements : List (List Byte))
  deriving DecidableEq, Repr

/-- An item that a terminus alone gives; its value is empty at a ROADSIDE node (12.3). -/
def State.terminusItem (s : State) (i : NstaItem) : NstaItem := if s.isTerminus then i else .plain []

/-- A list item with its first k elements: item number, value length, number held, number carried, elements (12.3). -/
def listItem (number k : Nat) (elements : List (List Byte)) : List Byte :=
  let body := (elements.take k).flatten
  [BitVec.ofNat 8 number, BitVec.ofNat 8 (body.length + 2), BitVec.ofNat 8 elements.length,
    BitVec.ofNat 8 (elements.take k).length] ++ body

/-- Items numbered from a number on are added to a part up to 256 payload bytes: a list is cut to the elements that fit,
another item is left out, and every item after it is left out (R197). -/
def addItems (part : List Byte) : Nat → List NstaItem → List Byte
  | _, [] => part
  | number, .plain v :: rest =>
    if part.length + 2 + v.length ≤ 256 then
      addItems (part ++ [BitVec.ofNat 8 number, BitVec.ofNat 8 v.length] ++ v) (number + 1) rest
    else part
  | number, .listing size elements :: rest =>
    if part.length + 4 + size * elements.length ≤ 256 then
      addItems (part ++ listItem number elements.length elements) (number + 1) rest
    else if part.length + 4 ≤ 256 then part ++ listItem number ((256 - part.length - 4) / size) elements
    else part

/-- The code of a port state (12.3). -/
def PortState.code : PortState → Byte
  | .dark => 0
  | .probing => 1
  | .lit => 2

/-- The seven line counters in the order of R25. -/
def LineCounters.bytes (c : LineCounters) : List Byte :=
  [c.receivedGood, c.checkErrors, c.malformed, c.numberClashes, c.transitOverflow, c.darkDiscards,
    c.localRefusals].flatMap bytesCounter

/-- The terminus choice: type, node, port, hops (12.3). NONE and SELF have no port, which 12.3 sends as 0, and no node and
hops, which are sent as 0 (log entry 6, DEDUCED). -/
def TermChoice.bytes : TermChoice → List Byte
  | .none => [0, 0, 0, 0]
  | .self => [2, 0, 0, 0]
  | .terminus n p h => [1, BitVec.ofNat 8 n, BitVec.ofNat 8 (portCode (some p)), BitVec.ofNat 8 h]

/-- The steer: type, node, port (12.3); NONE and SELF have neither, sent as 0 (log entry 6, DEDUCED). -/
def Route.bytes : Route → List Byte
  | .none => [0, 0, 0]
  | .self => [2, 0, 0]
  | .via n p => [1, BitVec.ofNat 8 n, BitVec.ofNat 8 (portCode (some p))]

/-- One Reach View entry: node, port, hops, role, backlog (12.3). -/
def reachEntryBytes (p : PortId) (e : ReachEntry) : List Byte :=
  [BitVec.ofNat 8 e.node, BitVec.ofNat 8 (portCode (some p)), BitVec.ofNat 8 e.hops, BitVec.ofNat 8 (roleCode e.role)] ++
    bytesBE 2 e.backlog

/-- Part 1, line (R26, R40). -/
def State.nstaLine (s : State) : List NstaItem :=
  [.plain [s.east.state.code, s.west.state.code], .plain s.east.counters.bytes, .plain s.west.counters.bytes,
    .plain [flagByte s.clash],
    .plain [BitVec.ofNat 8 ((s.neighbourSilent .east).toNat + 2 * (s.neighbourSilent .west).toNat)],
    .plain [BitVec.ofNat 8 s.reach.east.length, BitVec.ofNat 8 s.reach.west.length],
    .plain s.terminusChoice.bytes, .plain (bytesCounter s.reach.badBeat),
    .listing 6 (s.reach.east.map (reachEntryBytes .east) ++ s.reach.west.map (reachEntryBytes .west))]

/-- A word with one bit for each level line, in the order of the resting levels (12.3, 12.5). -/
def lineWord (f : LevelLine → Bool) : List Byte :=
  bytesBE 2 (allLines.map fun l => (f l).toNat * 2 ^ lineBit l).sum

/-- One pulse channel: window length, history count, newest count (R70, 12.3). Of an empty history neither gives a newest count:
0 is sent (log entry 6, DEDUCED). -/
def State.nstaPulse (s : State) (ch : PulseId) : List Byte :=
  let h := (pulseGet s.inputs.pulses ch).history
  [BitVec.ofNat 8 (pulseGet s.cfg.pulseWindow ch), BitVec.ofNat 8 h.length] ++ bytesBE 2 (h.headD 0)

/-- Part 2, time and inputs (R58, R70, R189). -/
def State.nstaTime (s : State) : List NstaItem :=
  [.plain (bytesLT s.time.lt), .plain [BitVec.ofNat 8 s.time.grade], .plain [flagByte s.time.settled],
    .plain (bytesBE 4 s.time.holdback), .plain (bytesCounter s.time.disputes), .plain [flagByte s.time.lock.isSome],
    .plain (lineWord (fun l => (s.inputs.line l).filtered) ++ lineWord s.watched ++ lineWord s.watchDeparted),
    .plain (s.nstaPulse .wind ++ s.nstaPulse .rain), .plain (allRules.flatMap s.ruleBytes),
    .plain [BitVec.ofNat 8 s.weather.gathering.length],
    .plain (bytesCounter s.weather.badReading ++ bytesCounter s.weather.walrs ++ bytesCounter s.weather.alertLost ++
      bytesCounter s.weather.reportLost),
    .plain [flagByte s.cfg.services.weather]]

/-- How many record sectors are in a state; none at a node without TOLL, whose spool keeps no sector state (R119). -/
def State.sectorCount (s : State) (st : SectorState) : Nat :=
  if s.cfg.services.toll then ((List.range 63).filter fun n => (s.spool.sector n).state == st).length else 0

/-- The spool is full: no sector is FILLING (R109). -/
def State.spoolFull (s : State) : Bool := s.cfg.services.toll && s.spool.filling.isNone

/-- The EMPTY slots of the FILLING sector. -/
def Spool.emptyInFilling (p : Spool) : Nat :=
  match p.filling with
  | some n => 32 - (p.sectorSlots n).length
  | none => 0

/-- The pending batch: state, sectors held (12.3), 0 where there is none (log entry 6, DEDUCED). -/
def Spool.batchBytes (p : Spool) : List Byte :=
  match p.batch with
  | none => [0, 0]
  | some b => [if b.closed then 2 else 1, BitVec.ofNat 8 b.sectors.length]

/-- The erase in progress: state, active erase time in ms, rounded down (12.3; log entry 23, DEDUCED), and 0 where there is none
(log entry 6, DEDUCED). -/
def State.eraseBytes (s : State) : List Byte :=
  match s.spool.erase with
  | none => [0, 0, 0]
  | some e =>
    (match e.phase with
      | .active => 1
      | .suspending => 2
      | .suspended => 3 : Byte) :: bytesBE 2 (min 65535 (s.activeEraseMs e))

/-- The first window entry: position, send LT, send age in ms (12.3). An entry never offered has neither yet, and both are
sent as 0 (log entry 6, DEDUCED). -/
def State.firstEntryBytes (s : State) : List Byte :=
  match s.sending.window with
  | [] => []
  | e :: _ =>
    bytesPos e.pos ++
      if e.sent then bytesLT e.sendLT ++ bytesBE 2 (min 65535 (s.elapsedUs e.sentAt / 1000)) else List.replicate 8 0

/-- Part 3, toll (R123, R140, R141). -/
def State.nstaToll (s : State) : List NstaItem :=
  [.plain (bytesBE 2 s.spool.generation), .plain (bytesBE 4 s.spool.nextSeq), .plain [flagByte s.spool.markFault],
    .plain (bytesBE 2 s.spool.backlog),
    .plain (bytesBE 2 (s.spool.slots.filter fun e => e.2.markPending).length),
    .plain [BitVec.ofNat 8 s.spool.emptyInFilling],
    .plain ([SectorState.empty, .filling, .full, .reclaim, .erasing, .bad].map fun st =>
      BitVec.ofNat 8 (s.sectorCount st)),
    .plain [BitVec.ofNat 8 (s.spool.sectors.filter fun e => e.2.weak).length], .plain [flagByte s.spoolFull],
    .plain s.spool.batchBytes, .plain s.eraseBytes,
    .plain (bytesCounter s.spool.programFaults ++ bytesCounter s.spool.markFaults ++
      bytesCounter s.spool.eraseFaults ++ bytesCounter s.spool.unanswered),
    .plain s.sending.steer.bytes,
    .plain [BitVec.ofNat 8 s.sending.window.length, BitVec.ofNat 8 (s.sending.window.filter (·.due)).length],
    .plain s.firstEntryBytes, .plain ((s.spool.oldestFilled.map bytesPos).getD []),
    .plain ([s.sending.trecs, s.sending.refusedOffers, s.sending.goBacks, s.sending.resteers, s.sending.strayTacks,
      s.sending.badTacks].flatMap bytesCounter),
    s.terminusItem (.plain ([s.receipt.accepted, s.receipt.duplicate, s.receipt.outOfOrder, s.receipt.queueFull,
      s.receipt.badTrecs, s.receipt.tacks].flatMap bytesCounter)),
    s.terminusItem (.plain [BitVec.ofNat 8 s.receipt.table.length])]

/-- The code of a call state (12.3). -/
def CallState.code : CallState → Byte
  | .asking => 1
  | .waiting => 2
  | .talking => 3
  | .resuming => 4
  | .ringing => 5
  | .cleared => 6
  | .queued => 7
  | .connected => 8
  | .calling => 9

/-- The position of a QUEUED or WAITING entry, 0 where there is none (R100). -/
def State.positionOf (s : State) (e : Fin 8) (c : CallEntry) : Nat :=
  match c.state with
  | .queued => s.waitPosition e
  | .waiting => c.position
  | _ => 0

/-- One call entry (12.3). -/
def State.callBytes (s : State) (e : Fin 8) (c : CallEntry) : List Byte :=
  bytesRef c.ref ++
    [BitVec.ofNat 8 (phoneCode c.phonePort), c.state.code, bytesNode c.far, BitVec.ofNat 8 (portCode c.port),
      BitVec.ofNat 8 c.attempts, flagByte c.resume] ++
    bytesCounter c.conceal ++ [BitVec.ofNat 8 (s.positionOf e c)]

/-- Part 4, calls (R100). -/
def State.nstaCalls (s : State) : List NstaItem :=
  [.plain ([s.calls.voiceLate, s.calls.voiceOverflow, s.calls.consoleDrop, s.calls.signallingDrop].flatMap bytesCounter),
    s.terminusItem (.plain [BitVec.ofNat 8 s.cfg.consoleChannels]),
    .listing 11 (allCalls.filterMap fun e => (s.call e).map (s.callBytes e)),
    s.terminusItem (.listing 2 (s.calls.waitOrder.filterMap fun e => (s.call e).map fun c => bytesRef c.ref))]

/-- The code of a page state (12.3). -/
def PageState.code : PageState → Byte
  | .free => 0
  | .loading => 1
  | .ready => 2

/-- One page record: 19 bytes (12.3); an absent load id is sent as 0 (log entry 6, DEDUCED). -/
def PageRecord.bytes (r : PageRecord) : List Byte :=
  [r.state.code, flagByte r.loadId.isSome, r.loadId.getD 0, BitVec.ofNat 8 (r.origin.getD 0)] ++ bytesBE 2 r.next ++
    bytesBE 2 r.lit ++ bytesBE 4 r.drive ++ optLTBytes r.activity

/-- The displayed page, 255 for BLANK (12.3). -/
def Display.pageByte (d : Display) : Byte :=
  match d.page with
  | some p => BitVec.ofNat 8 p
  | none => 255

/-- One claim of the claim list: 19 bytes (12.3). -/
def Claim.bytes (c : Claim) : List Byte :=
  claimantBytes (some c.claimant) ++ [BitVec.ofNat 8 c.page, BitVec.ofNat 8 c.priority] ++ optLTBytes c.expiry ++
    optLTBytes c.showAt

/-- The code of a brightness mode (12.5). -/
def brightnessCode : BrightnessMode → Byte
  | .fixed => 1
  | .mapped => 2

/-- The five counters of Figure 11-1. -/
def Equip.fiveCounters (e : Equip) : List Byte :=
  [e.badMessage, e.notReady, e.misdirected, e.outboundDrop, e.sendSignLost].flatMap bytesCounter

/-- Part 5, sign and port (R158, R175, R197). -/
def State.nstaSign (s : State) : List NstaItem :=
  [.plain ([flagByte s.signPresent] ++ bytesBE 2 s.cfg.signWidth ++ [BitVec.ofNat 8 s.cfg.signHeight]),
    .plain (s.pages.records.toList.flatMap PageRecord.bytes),
    .plain ([s.pages.badSdat, s.pages.refusedSdat, s.pages.duplicate, s.pages.superseded, s.pages.aborted,
      s.pages.loaded].flatMap bytesCounter),
    .plain (s.display.pageByte :: claimantBytes s.display.claimant),
    .plain [BitVec.ofNat 8 s.display.requested, BitVec.ofNat 8 s.display.applied, brightnessCode s.cfg.brightnessMode],
    .plain [flagByte s.display.overload],
    .plain ([s.display.badScmd, s.display.strayScmd, s.display.refused, s.display.evicted, s.display.changes,
      s.display.overloads].flatMap bytesCounter),
    .plain (s.equip.fiveCounters ++ bytesCounter s.equip.statusLost),
    .listing 19 (s.display.claims.map Claim.bytes)]

/-- The first 12 bytes of a part (12.3). -/
def State.nstaHead (s : State) (part : Nat) : List Byte :=
  bytesBE 2 s.equip.reportNumber.toNat ++
    [BitVec.ofNat 8 part, BitVec.ofNat 8 s.cfg.number, BitVec.ofNat 8 (roleCode s.cfg.role),
      servicesByte s.cfg.services] ++
    bytesLT s.time.lt

/-- The payloads of the five parts, in part order (R197). -/
def State.nstaParts (s : State) : List (List Byte) :=
  [addItems (s.nstaHead 1) 1 s.nstaLine, addItems (s.nstaHead 2) 1 s.nstaTime, addItems (s.nstaHead 3) 1 s.nstaToll,
    addItems (s.nstaHead 4) 1 s.nstaCalls, addItems (s.nstaHead 5) 1 s.nstaSign]

/-- Parts lost, counted (R198). -/
def State.countStatusLost (s : State) (n : Nat) : State :=
  { s with equip := { s.equip with statusLost := bumpBy n s.equip.statusLost } }

/-- One part offered toward a terminus (R198). -/
def State.offerPart (p : PortId) (s : State) (payload : List Byte) : State :=
  let f := s.ownFrame .nsta 255 241 payload
  match (s.port p).offerAnswer f with
  | .taken => s.offer p f
  | _ => (s.offer p f).countStatusLost 1

/-- The five parts sent by the terminus choice (R198). -/
def State.sendParts (s : State) (parts : List (List Byte)) : State :=
  match s.terminusChoice with
  | .terminus _ p _ => parts.foldl (State.offerPart p) s
  | .self =>
    parts.foldl (fun (t : State) (payload : List Byte) => t.placeOrDrop (centreCopy 0x88 t.cfg.number payload)) s
  | .none => s.countStatusLost 5

/-- An NSTA report is built, the report number rises, and its parts are sent (R197, R198). -/
def State.sendNsta (s : State) : State :=
  { s with equip := { s.equip with reportNumber := s.equip.reportNumber + 1 } }.sendParts s.nstaParts

/-- The status timer anew (R197). -/
def State.statusTimerAnew (s : State) : Timer := s.startTimer (s.cfg.nodeInterval * 1000000)

/-! ### STATUS (R194) -/

/-- A receipt entry as STATUS carries it: known flag, last accepted, expected (12.4). -/
def receiptBytes : Option ReceiptEntry → List Byte
  | none => 0 :: List.replicate 12 0
  | some e => 1 :: (bytesPos e.last ++ bytesPos e.expected)

/-- The time and spool fields of STATUS; in SCANNING they carry their start values (R194). -/
def State.statusFields (s : State) : List Byte :=
  if s.isRunning then
    bytesLT s.time.lt ++ [BitVec.ofNat 8 s.time.grade, flagByte s.time.settled, flagByte s.ready] ++
      bytesBE 2 s.spool.backlog ++ bytesBE 2 s.spool.generation ++ bytesBE 4 s.spool.nextSeq
  else List.replicate 17 0

/-- A STATUS message (R194, 12.4). Its queue count is that of the queue before the STATUS itself is placed (log entry 23,
DEDUCED). -/
def State.statusMsg (s : State) (originFlag : Bool) (entry : Option ReceiptEntry) : CabMsg :=
  ⟨0x83,
    [if s.isRunning then 2 else 1, BitVec.ofNat 8 s.cfg.number, BitVec.ofNat 8 (roleCode s.cfg.role),
      servicesByte s.cfg.services] ++
    s.statusFields ++ [BitVec.ofNat 8 s.equip.outbound.length] ++ s.equip.fiveCounters ++
    flagByte originFlag :: receiptBytes entry⟩

/-- The answer to a STATUS-ASK; an origin above 240 leaves the origin flag open (R194, log entry 3). -/
def State.answerStatus (s : State) (origin : Byte) : State :=
  if s.isRunning && s.isTerminus then
    if origin = 0 then s.placeOrDrop (s.statusMsg false none)
    else if origin.toNat ≤ 240 then s.placeOrDrop (s.statusMsg true (keyGet s.receipt.table origin.toNat))
    else s.takeBit.2.placeOrDrop (s.statusMsg s.takeBit.1 none)
  else s.placeOrDrop (s.statusMsg false none)

end Sys2Proof.Machine
end

