-- ==== Sys2Proof/Machine/PortOps.lean ====
section
/-! DEFINITION. Shared operations of the equipment port's inbound side (R191 to R193). -/

namespace Sys2Proof.Machine

/-- The port receives: SCANNING and RUNNING (R190). -/
def State.portReceives (s : State) : Bool := s.numberKnown

/-- A message that fails a check (R191). -/
def State.countBad (s : State) : State :=
  { s with equip := { s.equip with badMessage := bump s.equip.badMessage } }

/-- A message refused in SCANNING (R192). -/
def State.countNotReady (s : State) : State :=
  { s with equip := { s.equip with notReady := bump s.equip.notReady } }

/-- A message not used at this node (R192). -/
def State.countMisdirected (s : State) : State :=
  { s with equip := { s.equip with misdirected := bump s.equip.misdirected } }

/-- An inbound message whose body is good (`ok`), dispatched by node state: its owner in RUNNING where it is used, a
refusal in SCANNING; before SCANNING nothing is received (R190 to R192). -/
def State.dispatch (s : State) (ok used : Bool) (owner refusal : State → State) : State :=
  if s.portReceives then
    if ok then
      if s.isRunning then (if used then owner s else s.countMisdirected) else refusal s.countNotReady
    else s.countBad
  else s

/-- A SEND-SIGN frame lost (R193). -/
def State.countSignLost (s : State) : State :=
  { s with equip := { s.equip with sendSignLost := bump s.equip.sendSignLost } }

/-- A SEND-SIGN frame offered on a port; an offer not taken is lost (R193). -/
def State.offerSign (s : State) (p : PortId) (f : Frame) : State :=
  match (s.port p).offerAnswer f with
  | .taken => s.offer p f
  | _ => (s.offer p f).countSignLost

/-- The kind of a SEND-SIGN frame: 7 is SCMD, otherwise SDAT (R193). -/
def signKind (kind : Byte) : FrameKind := if kind = 7 then .scmd else .sdat

/-- The frame of a SEND-SIGN handed to the node's own sign (R157, R163, R193). -/
def State.handSign (s : State) (kind : Byte) (payload : List Byte) : State :=
  if kind = 7 then s.takeScmd s.cfg.number none payload else s.takeSdat s.cfg.number none payload

/-- A SEND-SIGN taken (R193). For target 0 the two offers come before the own sign is handed the frame (log entry 11). -/
def State.sendSignFrame (s : State) (kind target zone : Byte) (payload : List Byte) : State :=
  let f := s.ownFrame (signKind kind) zone.toNat target.toNat payload
  if target = 0 then ((s.offerSign .east f).offerSign .west f).handSign kind payload
  else if target.toNat = s.cfg.number then s.handSign kind payload
  else
    match s.nodePort target.toNat with
    | some p => s.offerSign p f
    | none => s.countSignLost

end Sys2Proof.Machine
end

