-- ==== Sys2Proof/Machine/CallCmds.lean ====
section
/-! DEFINITION. The meanings of the commands of Call Control (chapter 5). -/

namespace Sys2Proof.Machine

/-- ATTEMPT_TIMER_EXPIRY (R76, R77). -/
def execAttemptTimerExpiry (e : Fin 8) (s : State) : Host.Outcome State Fault Refusal := .next (s.attemptExpiry e)

/-- RING_OUT_ATTEMPT_TIMER_EXPIRY (R90). -/
def execRingOutAttemptTimerExpiry (e : Fin 8) (s : State) : Host.Outcome State Fault Refusal := .next (s.ringOutAttempt e)

/-- ROADSIDE_SILENCE_TIMER_EXPIRY (R81). -/
def execRoadsideSilenceTimerExpiry (e : Fin 8) (s : State) : Host.Outcome State Fault Refusal :=
  .next (s.roadsideSilence e)

/-- TERMINUS_SILENCE_TIMER_EXPIRY (R89). -/
def execTerminusSilenceTimerExpiry (e : Fin 8) (s : State) : Host.Outcome State Fault Refusal :=
  .next (s.terminusSilence e)

/-- ROADSIDE_KEEP_TIMER_EXPIRY (R82). -/
def execRoadsideKeepTimerExpiry (e : Fin 8) (s : State) : Host.Outcome State Fault Refusal := .next (s.roadsideKeep e)

/-- QUEUED_KEEP_TIMER_EXPIRY (R88). -/
def execQueuedKeepTimerExpiry (e : Fin 8) (s : State) : Host.Outcome State Fault Refusal := .next (s.queuedKeep e)

/-- ROADSIDE_RING_TIMER_EXPIRY (R86). -/
def execRoadsideRingTimerExpiry (e : Fin 8) (s : State) : Host.Outcome State Fault Refusal := .next (s.roadsideRing e)

/-- CALLING_RING_TIMER_EXPIRY (R91). -/
def execCallingRingTimerExpiry (e : Fin 8) (s : State) : Host.Outcome State Fault Refusal := .next (s.callingRing e)

/-- RELEASE_TIMER_EXPIRY (R83). -/
def execReleaseTimerExpiry (i : Fin 8) (s : State) : Host.Outcome State Fault Refusal := .next (s.releaseExpiry i)

/-- PLAY_TIMER_EXPIRY (R95, R96). -/
def execPlayTimerExpiry (e : Fin 8) (s : State) : Host.Outcome State Fault Refusal := .next (s.playExpiry e)

/-- VOICE_SAMPLES_COMPLETE (R93). -/
def execVoiceSamplesComplete (ph : PhoneId) (samples : List Byte) (s : State) : Host.Outcome State Fault Refusal :=
  .next (s.takeSamples ph samples)

/-- TONE_CADENCE_STEP (R97). -/
def execToneCadenceStep (ph : PhoneId) (s : State) : Host.Outcome State Fault Refusal := .next (s.cadenceStep ph)

/-- RING_CADENCE_STEP (R98). -/
def execRingCadenceStep (ph : PhoneId) (s : State) : Host.Outcome State Fault Refusal := .next (s.ringStep ph)

/-- RING_OUT (R90, R192); a phone port neither 1 nor 2 fails check 4 of R191. -/
def execRingOut (node phone : Byte) (s : State) : Host.Outcome State Fault Refusal :=
  .next (s.dispatch (phoneOf phone.toNat).isSome s.isTerminus (fun t => t.takeRingOut node phone) id)

/-- HANGUP (R88, R89, R91, R192). -/
def execHangup (ref : CallRef) (s : State) : Host.Outcome State Fault Refusal :=
  .next (s.dispatch true s.isTerminus (fun t => t.takeHangup ref) id)

/-- CONSOLE_VOICE (R93, R192); a body without 40 samples fails check 4 of R191. -/
def execConsoleVoice (ref : CallRef) (samples : List Byte) (s : State) : Host.Outcome State Fault Refusal :=
  .next (s.dispatch (samples.length == 40) s.isTerminus (fun t => t.takeConsoleVoice ref samples) id)

/-- PENDING_LIST_DRAIN (R92, R195). -/
def execPendingListDrain (s : State) : Host.Outcome State Fault Refusal := .next s.drainPending

end Sys2Proof.Machine
end

