-- ==== Sys2Proof/Machine/TimeOps.lean ====
section
/-! DEFINITION. Shared operations of Line Time (chapter 3). -/

namespace Sys2Proof.Machine

/-! ### The count (R44 to R46) -/

/-- K for a declared frequency in Hz and a trim in parts per million, rounded to the nearest, a half up (R44). -/
def rateOf (hz : Nat) (trim : Int) : BitVec 32 :=
  let n := 2 ^ 32 * 1000000000000
  let d := hz * (1000000 + trim).toNat
  BitVec.ofNat 32 ((2 * n + d) / (2 * d))

/-- One carry counted or withheld (R45, R46). -/
def LineTime.countCarry (t : LineTime) : LineTime :=
  if t.holdback = 0 then
    if t.carry then { t with lt := t.lt + 2, carry := false } else { t with lt := t.lt + 1 }
  else if t.carry then { t with lt := t.lt + 1, carry := false, holdback := t.holdback - 1 }
  else { t with carry := true }

/-- The accumulator over n reference periods that give one carry at their end (R45). -/
def LineTime.accumulate (t : LineTime) (k : BitVec 32) (n : Nat) : LineTime :=
  { t with acc := t.acc + BitVec.ofNat 32 (n * k.toNat) }

/-- How many reference periods pass up to and with the one that gives the next carry (R45). -/
def LineTime.periodsToCarry (t : LineTime) (k : BitVec 32) : Nat := (2 ^ 32 - t.acc.toNat + k.toNat - 1) / k.toNat

/-- The reference periods up to the next carry pass and the carry is dealt with (R45, R46). -/
def State.passToCarry (s : State) : State :=
  if s.numberKnown then
    match s.time.k with
    | some k =>
      { s with refTime := s.refTime + s.time.periodsToCarry k,
               time := (s.time.accumulate k (s.time.periodsToCarry k)).countCarry }
    | none => s
  else s

/-- One period of the reference oscillator passes: what the part does when nothing is commanded (R45; log entry 1). -/
def State.tick (s : State) : State :=
  if s.node = .held then s
  else
    let t := { s with refTime := s.refTime + 1 }
    match (if s.numberKnown then s.time.k else none) with
    | none => t
    | some k =>
      let u := s.time.accumulate k 1
      { t with time := if 2 ^ 32 ≤ s.time.acc.toNat + k.toNat then u.countCarry else u }

/-! ### The grade timer (R53) -/

/-- The grade timer started anew, eight BEAT intervals long; stopped while the input is locked (R53). -/
def State.gradeTimerAnew (s : State) : Timer :=
  if s.time.lock.isSome then none else s.startTimer (8 * s.cfg.beatInterval * 1000)

/-- The grade a BEAT's estimate has (R47). -/
def estimateGrade (g : Nat) : Nat := g - 1

/-- The largest holdback (R49, R55). -/
def maxHoldback : Nat := 10000000

/-- Slowed to let a source behind catch up: holdback set, and a dispute counted when it is cut to the limit
(R49, R55). -/
def LineTime.holdBack (t : LineTime) (behind : Nat) : LineTime :=
  { t with holdback := min behind maxHoldback,
           disputes := if maxHoldback < behind then bump t.disputes else t.disputes }

/-! ### The merge (R47 to R51) -/

/-- The estimate of a BEAT's sender (R47). -/
def estimateOf (ts : LTime) (n dhop : Nat) : LTime := ts + BitVec.ofNat 48 (n * dhop)

/-- The merge of an UNSETTLED node (R48). -/
def LineTime.mergeUnsettled (t : LineTime) (e : LTime) (window ge : Nat) (senderSettled : Bool) (anew : Timer) :
    LineTime :=
  let d := ltDiff e t.lt
  let settled := { t with settled := true, grade := ge, gradeTimer := anew }
  if 0 < d then { settled with lt := e }
  else if senderSettled = false then t
  else if d < -(window : Int) then { settled with lt := e }
  else settled

/-- The merge with a better source (R49). -/
def LineTime.mergeBetter (t : LineTime) (e : LTime) (window slew ge : Nat) (anew : Timer) : LineTime :=
  let d := ltDiff e t.lt
  let u := { t with grade := ge, gradeTimer := anew }
  if (window : Int) < d then { u with lt := u.lt + BitVec.ofNat 48 (min d.toNat slew), holdback := 0 }
  else if d < -(window : Int) then u.holdBack (-d).toNat
  else { u with holdback := 0 }

/-- The merge with an equal source (R50). -/
def LineTime.mergeEqual (t : LineTime) (e : LTime) (window slew : Nat) (anew : Timer) : LineTime :=
  let d := ltDiff e t.lt
  let u := { t with gradeTimer := anew }
  if (window : Int) < d then
    { u with lt := u.lt + BitVec.ofNat 48 (min d.toNat slew),
             disputes := if (slew : Int) < d then bump u.disputes else u.disputes }
  else u

/-- The merge of an accepted BEAT heard n spans away (R47 to R51). -/
def State.merge (s : State) (b : Beat) (n : Nat) : State :=
  let e := estimateOf b.ts n s.cfg.dhop
  let ge := estimateGrade b.grade
  let t :=
    if s.time.settled = false then s.time.mergeUnsettled e s.cfg.window ge b.settled s.gradeTimerAnew
    else if s.time.grade < ge then s.time.mergeBetter e s.cfg.window s.cfg.slew ge s.gradeTimerAnew
    else if ge = s.time.grade then s.time.mergeEqual e s.cfg.window s.cfg.slew s.gradeTimerAnew
    else s.time
  { s with time := t }

/-! ### The time input (R54 to R56) -/

/-- The pending value is dropped (R54, R56). -/
def LineTime.dropValue (t : LineTime) : LineTime := { t with value := none, lapse := none }

/-- An accepted pulse that stands for a value (R55). -/
def State.acceptPulse (s : State) (v : LTime) : State :=
  let t := s.time
  let d := ltDiff v t.lt
  let w : Int := s.cfg.window
  let moved : LineTime :=
    if t.settled then
      if w < d then { t with lt := v, holdback := 0 }
      else if d < -w then t.holdBack (-d).toNat
      else { t with holdback := 0 }
    else if w < d ∨ d < -w then { t with lt := v, settled := true }
    else { t with settled := true }
  let locked := { moved with grade := 7, lock := s.startTimer 3000000, gradeTimer := none }
  { s with time := locked.dropValue }

/-- A pulse at the time input (R54 to R56). -/
def State.timePulse (s : State) : State :=
  if s.isRunning && s.timeInputEnabled then
    if s.time.lock.isSome then { s with time := s.time.dropValue }
    else
      match s.time.value with
      | some v => s.acceptPulse v
      | none => s
  else s

end Sys2Proof.Machine
end

