-- ==== Sys2Proof/Machine/ReachChange.lean ====
section
/-! DEFINITION. Changes of the Reach View with the reports they make (R29 to R34, R38), and the changes of port state that
empty a part of it (R2 to R6). -/

namespace Sys2Proof.Machine

/-! ### Reports (R38) -/

/-- A changed terminus choice is reported to Toll Delivery and to Call Control (R38). -/
def State.reportChoice (s : State) : State :=
  let r := s.terminusChoice.route
  if r = s.reach.lastReported then s
  else ({ s with reach := { s.reach with lastReported := r } }.steerTo r).callsChoice r

/-- The reports of one change of the table that lost some TERMINUS entries; they are made in RUNNING (R38, R39). -/
def State.reportChange (s : State) (lost : List Nat) : State :=
  if s.isRunning then (lost.foldl State.callsLoss s).reportChoice else s

/-- The nodes of the TERMINUS entries of some entries. -/
def terminiOf (l : List ReachEntry) : List Nat := (l.filter fun e => e.role == .terminus).map (·.node)

/-! ### BEATs and ages (R29, R31 to R33) -/

/-- An accepted BEAT changes the table, and the changes are reported (R29 to R32, R38). -/
def State.takeEntry (s : State) (p : PortId) (b : Beat) (n : Nat) : State :=
  let q := Machine.takeEntry (entryOf b n s.refTime) (s.reach.part p)
  let t := { s with reach := s.reach.setPart p q.1 }
  if q.2.1 then t.reportChange (if q.2.2 then [b.node] else []) else t

/-- A BEAT delivered to the Reach View, and in RUNNING to Line Time (R13, R29, R47). -/
def State.takeBeat (s : State) (p : PortId) (f : Frame) : State :=
  match acceptBeat f with
  | none => { s with reach := { s.reach with badBeat := bump s.reach.badBeat } }
  | some b =>
    let t := s.takeEntry p b (f.hops + 1)
    if t.isRunning then t.merge b (f.hops + 1) else t

/-- The entry of a node is removed when its age exceeds its limit; before that the command changes nothing (R33). -/
def State.removeAged (s : State) (p : PortId) (node : Nat) : State :=
  let gone := (s.reach.part p).filter fun e => e.node == node && s.agedOut e
  let kept := (s.reach.part p).filter fun e => !(e.node == node && s.agedOut e)
  if gone = [] then s else { s with reach := s.reach.setPart p kept }.reportChange (terminiOf gone)

/-! ### Port states (R2 to R6) -/

/-- The length of the silence timer in µs (R6). -/
def State.silenceUs (s : State) : Nat := if s.numberKnown then 3 * s.cfg.beatInterval * 1000 else 300000

/-- The port enters PROBING, and a RUNNING node offers its BEAT on it (R4, R27). -/
def State.enterProbing (s : State) (p : PortId) : State :=
  let t := s.setPort p { s.port p with state := .probing, probe := 0 }
  if t.isRunning then t.offerBeat p else t

/-- How many frames a port that enters DARK discards (R2). A frame counts as being sent until its FRAME_SEND_END, so also
while the gap after its last byte runs, which R2 leaves open (DESIGN CHOICE, log entry 10). -/
def LinePort.held (q : LinePort) : Nat :=
  q.urgent.transit.length + q.urgent.own.length + q.bulk.transit.length + q.bulk.own.length +
    if q.sending.isSome then 1 else 0

/-- A port with the first actions of its entry into DARK done (R2). -/
def LinePort.darken (q : LinePort) : LinePort :=
  { q.countDark q.held with state := .dark, probe := 0, silence := none, urgent := Lane.initial, bulk := Lane.initial,
                            sending := none }

/-- The port enters DARK: its part of the Reach View is emptied and the changes reported (R2, R34, R38), the losses of several
termini in the order of the part (log entry 11, DESIGN CHOICE). -/
def State.goDark (s : State) (p : PortId) : State :=
  let gone := s.reach.part p
  let t := s.setPort p (s.port p).darken
  if gone = [] then t else { t with reach := t.reach.setPart p [] }.reportChange (terminiOf gone)

/-- The port enters DARK, and moves on to PROBING at once when light is present (R2, R4). -/
def State.enterDark (s : State) (p : PortId) : State :=
  let t := s.goDark p
  if (t.port p).light then t.enterProbing p else t

/-- The port enters LIT and its silence timer starts (R5, R6). -/
def State.enterLit (s : State) (p : PortId) : State :=
  s.setPort p { s.port p with state := .lit, probe := 0, silence := s.startTimer s.silenceUs }

end Sys2Proof.Machine
end

