-- ==== Sys2Proof/Machine/InputOps.lean ====
section
/-! DEFINITION. Shared operations of Input Watch (chapter 4) and the answer of the Toll Spool to POWER-WARN (R118). -/

namespace Sys2Proof.Machine

/-! ### POWER-WARN at the spool (R118, R122) -/

/-- An erase in progress is abandoned: its sectors return to RECLAIM and are held out, their cells partly erased
(R118). -/
def State.abandonErase (s : State) : State :=
  match s.spool.erase with
  | none => s
  | some e =>
    let p := e.sectors.foldl
      (fun (q : Spool) (n : Nat) => q.setSector n { q.sector n with state := .reclaim }) s.spool
    { s with spool := { p with erase := none, heldOut := s.spool.heldOut ++ e.sectors } }.eraseInPart e.sectors

/-- Waiting work after a change of POWER-WARN: the generation mark in SCANNING, the array arbiter in RUNNING. -/
def State.resumeSpool (s : State) : State :=
  if s.node = .scanning ∧ s.spool.op = .idle ∧ s.spool.scanReading = false then s.startGenJob else s.pump

/-- POWER-WARN DEPART at the spool (R118). -/
def State.powerDepart (s : State) : State := s.abandonErase.resumeSpool

/-- POWER-WARN RETURN at the spool (R118). -/
def State.powerReturn (s : State) : State :=
  let t := s.spool.heldOut.foldl State.joinBatch { s with spool := { s.spool with heldOut := [] } }
  t.resumeSpool

/-! ### Level lines (R60, R62, R63) -/

/-- The state with one level line replaced. -/
def State.setLine (s : State) (l : LevelLine) (v : LevelState) : State := { s with inputs := s.inputs.setLine l v }

/-- The event of a watched line reaches its owner (R62). -/
def State.lineEvent (s : State) (l : LevelLine) : State :=
  match l with
  | .hookA => if s.departed .hookA then s.hookDepart .phoneA else s.hookReturn .phoneA
  | .hookB => if s.departed .hookB then s.hookDepart .phoneB else s.hookReturn .phoneB
  | .contact i => s.contactEvent i
  | .powerWarn => if s.departed .powerWarn then s.powerDepart else s.powerReturn

/-- An event of the line is sent: watched, and hook and contact lines in RUNNING only (R62). -/
def State.eventSent (s : State) (l : LevelLine) : Bool :=
  s.watched l && (s.isRunning || (s.node == .scanning && l == .powerWarn))

/-- A pin takes a level (R60). -/
def State.movePin (s : State) (l : LevelLine) (level : Bool) : State :=
  let v := s.inputs.line l
  if level = v.pin then s
  else if s.numberKnown then
    s.setLine l { v with pin := level, wait := if level = v.filtered then none else s.startTimer (filterInterval l) }
  else s.setLine l { v with pin := level }

/-- A filter wait ends (R60, R62). -/
def State.endWait (s : State) (l : LevelLine) : State :=
  let v := s.inputs.line l
  if s.numberKnown && v.wait.isSome then
    let t := s.setLine l { v with filtered := v.pin, wait := none }
    if v.filtered ≠ v.pin ∧ t.eventSent l = true then t.lineEvent l else t
  else s

/-- Every filtered level is set to its pin and every wait stopped (R61). -/
def State.sampleLines (s : State) : State :=
  allLines.foldl
    (fun (t : State) (l : LevelLine) =>
      t.setLine l { t.inputs.line l with filtered := (t.inputs.line l).pin, wait := none }) s

/-- The hook and contact lines in the order of their bits. -/
def entryLines : List LevelLine :=
  [.hookA, .hookB, .contact 0, .contact 1, .contact 2, .contact 3, .contact 4, .contact 5]

/-- The entry report: each watched hook and contact line that is departed sends one DEPART (R63), HOOK-A, HOOK-B, then
CONTACT-0 to CONTACT-5; R62 gives the events of different lines no order (DESIGN CHOICE, log entry 11). -/
def State.entryReport (s : State) : State :=
  entryLines.foldl (fun (t : State) (l : LevelLine) => if t.watchDeparted l then t.lineEvent l else t) s

/-! ### Pulse inputs (R67, R68) -/

/-- The state with one pulse channel replaced. -/
def State.setPulse (s : State) (ch : PulseId) (v : PulseState) : State :=
  { s with inputs := { s.inputs with pulses := pulseSet s.inputs.pulses ch v } }

/-- An edge is counted: none was, or at least 2 ms have passed since the last (R67). -/
def State.edgeCounts (s : State) (ch : PulseId) : Bool :=
  match (pulseGet s.inputs.pulses ch).lastEdge with
  | none => true
  | some t => decide (2000 ≤ s.elapsedUs t)

/-- The length of a channel's window in µs (R68). -/
def State.pulseWindowUs (s : State) (ch : PulseId) : Nat := pulseGet s.cfg.pulseWindow ch * 1000000

/-- A window of a channel ends (R68). -/
def State.endPulseWindow (s : State) (ch : PulseId) : State :=
  let v := pulseGet s.inputs.pulses ch
  let w : PulseState :=
    { v with history := (v.count :: v.history).take 16, count := 0, window := s.startTimer (s.pulseWindowUs ch) }
  (s.setPulse ch w).windowEnd ch

end Sys2Proof.Machine
end

