-- ==== Sys2Proof/Machine/InputCmds.lean ====
section
/-! DEFINITION. The meanings of the commands of Input Watch (chapter 4). -/

namespace Sys2Proof.Machine

/-- PIN_CHANGE (R60). -/
def execPinChange (line : LevelLine) (level : Bool) (s : State) : Host.Outcome State Fault Refusal :=
  .next (s.movePin line level)

/-- FILTER_WAIT_END (R60, R62). -/
def execFilterWaitEnd (line : LevelLine) (s : State) : Host.Outcome State Fault Refusal := .next (s.endWait line)

/-- PULSE_EDGE (R67). -/
def execPulseEdge (ch : PulseId) (s : State) : Host.Outcome State Fault Refusal :=
  .next (if s.isRunning && s.edgeCounts ch then
      s.setPulse ch { pulseGet s.inputs.pulses ch with count := (pulseGet s.inputs.pulses ch).count + 1,
                                                       lastEdge := some s.refTime }
    else s)

/-- PULSE_WINDOW_END (R68, R177). -/
def execPulseWindowEnd (ch : PulseId) (s : State) : Host.Outcome State Fault Refusal :=
  .next (if (pulseGet s.inputs.pulses ch).window.isSome then s.endPulseWindow ch else s)

end Sys2Proof.Machine
end

