-- ==== Sys2Proof/Machine/FrameOps.lean ====
section
/-! DEFINITION. A frame taken by a receiver: checks, port state, number clash, target decision, delivery (R5, R6, R8 to
R14). -/

namespace Sys2Proof.Machine

/-- What the target decision says of a frame (R11, R12). -/
structure Decision where
  deliver : Bool
  forward : Bool
  deriving DecidableEq, Repr

/-- The target decision (R11, R12). -/
def State.targetDecision (s : State) (target : Nat) : Decision :=
  if target = 0 then ⟨true, true⟩
  else if s.numberKnown = true ∧ target = s.cfg.number then ⟨true, false⟩
  else if target = 241 ∧ s.isTerminus = true then ⟨true, false⟩
  else ⟨false, true⟩

/-- A copy of a delivered frame for the centre, at a TERMINUS (R13). -/
def State.copyToCentre (s : State) (kind : Byte) (f : Frame) : State :=
  if s.isTerminus then s.placeOrDrop (centreCopy kind f.origin f.payload) else s

/-- A code byte of a payload lies in the range of the values that its entry names. -/
def codeIn (p : List Byte) (off lo hi : Nat) : Bool := decide (lo ≤ field p off 1) && decide (field p off 1 ≤ hi)

/-- An SRPT against its entry in 12.3: LOAD, 20 bytes, with page, outcome and cause; CLAIM, 13 bytes, with command, outcome and
page; DISPLAY, 20 bytes, with page or BLANK and the claimant's type (R204). -/
def srptFits (p : List Byte) : Bool :=
  (p.length == 20 && codeIn p 0 1 1 && codeIn p 1 0 3 && codeIn p 3 1 4 && codeIn p 4 0 6) ||
  (p.length == 13 && codeIn p 0 2 2 && codeIn p 1 1 4 && codeIn p 2 1 6 && codeIn p 3 0 3) ||
  (p.length == 20 && codeIn p 0 3 3 && (codeIn p 1 0 3 || codeIn p 1 255 255) && codeIn p 2 0 3)

/-- A WRPT against its entry in 12.3: 84 bytes, and the state of each rule (R204). -/
def wrptFits (p : List Byte) : Bool := p.length == 84 && (List.range 8).all fun i => codeIn p (54 + 3 * i) 0 4

/-- The value of an NSTA item against its entry in 12.3. -/
abbrev ValueCheck : Type := List Byte → Bool

/-- A value of one length (12.3). -/
def valueOf (n : Nat) : ValueCheck := fun v => v.length == n

/-- A value of one length, or of length 0 (12.3). -/
def valueOrNone (n : Nat) : ValueCheck := fun v => v.length == n || v.length == 0

/-- A value of one length whose bytes at some offsets are codes of a range (12.3). -/
def codedValue (n : Nat) (codes : List (Nat × Nat × Nat)) : ValueCheck := fun v =>
  v.length == n && codes.all fun c => codeIn v c.1 c.2.1 c.2.2

/-- A list value: the number held, the number carried, and as many elements of one size, whose bytes at some offsets are codes
of a range (12.3). -/
def listValue (size : Nat) (codes : List (Nat × Nat × Nat)) : ValueCheck := fun v =>
  let carried := field v 1 1
  v.length == 2 + size * carried && decide (carried ≤ field v 0 1) &&
    (List.range carried).all fun i => codes.all fun c => codeIn v (2 + size * i + c.1) c.2.1 c.2.2

/-- An item given for a terminus: of length 0 at a ROADSIDE node (12.3). -/
def terminusValue (terminus : Bool) (check : ValueCheck) : ValueCheck := if terminus then check else valueOf 0

/-- The displayed page, 0..3 or 255, and the claimant's type (12.3). -/
def displayValue : ValueCheck := fun v =>
  codedValue 4 [(1, 0, 3)] v && (codeIn v 0 0 3 || codeIn v 0 255 255)

/-- The items of a part in the order of the NSTA table of 12.3. -/
def nstaItems (terminus : Bool) : Nat → List ValueCheck
  | 1 => [codedValue 2 [(0, 0, 2), (1, 0, 2)], valueOf 14, valueOf 14, valueOf 1, valueOf 1, valueOf 2,
      codedValue 4 [(0, 0, 2), (2, 0, 2)], valueOf 2, listValue 6 [(1, 0, 2), (3, 1, 2)]]
  | 2 => [valueOf 6, valueOf 1, codedValue 1 [(0, 0, 1)], valueOf 4, valueOf 2, valueOf 1, valueOf 6, valueOf 8,
      codedValue 16 ((List.range 8).map fun i => (2 * i, 0, 4)), valueOf 1, valueOf 8, valueOf 1]
  | 3 => [valueOf 2, valueOf 4, valueOf 1, valueOf 2, valueOf 2, valueOf 1, valueOf 6, valueOf 1, valueOf 1,
      codedValue 2 [(0, 0, 2)], codedValue 3 [(0, 0, 3)], valueOf 8, codedValue 3 [(0, 0, 2), (2, 0, 2)], valueOf 2,
      valueOrNone 14, valueOrNone 6, valueOf 12, terminusValue terminus (valueOf 12),
      terminusValue terminus (valueOf 1)]
  | 4 => [valueOf 8, terminusValue terminus (valueOf 1), listValue 11 [(2, 0, 2), (3, 1, 9), (5, 0, 2)],
      terminusValue terminus (listValue 2 [])]
  | 5 => [valueOf 4, codedValue 76 ((List.range 4).map fun i => (19 * i, 0, 2)), valueOf 12, displayValue,
      codedValue 3 [(2, 1, 2)], valueOf 1, valueOf 12, valueOf 12, listValue 19 [(0, 0, 3), (3, 0, 3)]]
  | _ => []

/-- The items of a part against their table, numbered in order from a number on: item number, value length, value (12.3). A
part may end after any item, since R197 cuts a part that would pass 256 bytes. -/
def itemsFit : Nat → List ValueCheck → List Byte → Bool
  | _, _, [] => true
  | _, _, [_] => false
  | _, [], _ :: _ :: _ => false
  | n, check :: rest, number :: length :: l =>
    number.toNat == n && decide (length.toNat ≤ l.length) && check (l.take length.toNat) &&
      itemsFit (n + 1) rest (l.drop length.toNat)

/-- An NSTA part against its entry in 12.3: 12 to 256 bytes, the part, the role and the items (R204, log entry 26). -/
def nstaFits (p : List Byte) : Bool :=
  decide (12 ≤ p.length) && decide (p.length ≤ 256) && codeIn p 2 1 5 && codeIn p 4 1 2 &&
    itemsFit 1 (nstaItems (field p 4 1 == 2) (field p 2 1)) (p.drop 12)

/-- The payload of a delivered SRPT, WRPT or NSTA against its entry in 12.3: its length and every code whose values the entry
names (R204; which fields these are is log entry 26, DEDUCED). -/
def reportFits (f : Frame) : Bool :=
  match f.kind with
  | .srpt => srptFits f.payload
  | .wrpt => wrptFits f.payload
  | .nsta => nstaFits f.payload
  | _ => true

/-- A delivered report copied to the centre; one that fails the check is dropped uncounted, as R204 has it for the other
frames its check names (DEDUCED, log entry 26). -/
def State.reportToCentre (s : State) (kind : Byte) (f : Frame) : State :=
  if reportFits f then s.copyToCentre kind f else s

/-- A frame delivered in RUNNING to the block that owns its kind (R13). Of the two owners of a WALR at a TERMINUS Sign Display
acts first, so the report of an eviction may take the last place of the outbound queue before the ALERT-IN copy; R13 gives no
order (DESIGN CHOICE, log entry 11). -/
def State.toOwner (s : State) (p : PortId) (f : Frame) : State :=
  match f.kind with
  | .beat => s.takeBeat p f
  | .creq => s.takeCallFrame p f
  | .cacc => s.takeCallFrame p f
  | .crel => s.takeCallFrame p f
  | .voic => s.takeCallFrame p f
  | .walr => (s.takeWalr f.origin f.payload).copyToCentre 0x87 f
  | .scmd => s.takeScmd f.origin (some p) f.payload
  | .sdat => s.takeSdat f.origin (some p) f.payload
  | .trec => if s.isTerminus then s.receiveTrec p f else s
  | .tack => s.tackDelivered f
  | .srpt => s.reportToCentre 0x85 f
  | .wrpt => s.reportToCentre 0x86 f
  | .nsta => s.reportToCentre 0x88 f

/-- Delivery by node state (R13). -/
def State.deliver (s : State) (p : PortId) (f : Frame) : State :=
  match s.node with
  | .running => s.toOwner p f
  | .loading => if f.kind = .beat then s.takeBeat p f else s
  | .scanning => if f.kind = .beat then s.takeBeat p f else s
  | .repeaterOnly => s
  | .held => s

/-- The port counts a damaged frame; a PROBING port's probe count becomes 0 (R5, R8). -/
def State.damaged (s : State) (p : PortId) (bumped : LineCounters → LineCounters) : State :=
  let q := s.port p
  s.setPort p { q with counters := bumped q.counters, probe := if q.state = .probing then 0 else q.probe }

/-- A port state acts on a good frame (R5, R6). -/
def State.goodForPort (s : State) (p : PortId) : State :=
  let q := s.port p
  let q' := { q with counters := { q.counters with receivedGood := bump q.counters.receivedGood } }
  match q.state with
  | .probing =>
    if 2 ≤ q.probe + 1 then (s.setPort p q').enterLit p else s.setPort p { q' with probe := q.probe + 1 }
  | .lit => s.setPort p { q' with silence := s.startTimer s.silenceUs }
  | .dark => s.setPort p q'

/-- A number clash (R10, R26). -/
def State.clashOn (s : State) (p : PortId) : State :=
  let q := s.port p
  { s.setPort p { q with counters := { q.counters with numberClashes := bump q.counters.numberClashes } } with
    clash := true }

/-- A good frame after its port has acted: the number clash, then forwarding and delivery (R9 to R14). -/
def State.goodFrame (s : State) (p : PortId) (f : Frame) : State :=
  if s.numberKnown = true ∧ f.origin = s.cfg.number then s.clashOn p
  else
    let d := s.targetDecision f.target
    let t := if d.forward then s.forward p f else s
    if d.deliver then t.deliver p f else t

/-- A receiver has taken in a whole frame (R1, R8, R9). -/
def State.takeFrame (s : State) (p : PortId) (bytes : List Byte) : State :=
  if (s.port p).state = .dark then s
  else
    match checkFrame bytes with
    | .malformed => s.damaged p fun c => { c with malformed := bump c.malformed }
    | .checkError => s.damaged p fun c => { c with checkErrors := bump c.checkErrors }
    | .good f => (s.goodForPort p).goodFrame p f

end Sys2Proof.Machine
end

