-- ==== Sys2Proof/Machine/LineCmds.lean ====
section
/-! DEFINITION. The meanings of the commands of the stretch line and of the Reach View (chapters 1 and 2). -/

namespace Sys2Proof.Machine

/-- LIGHT_PRESENT (R1, R4). While RESET is held the ports keep their start values (R201, log entry 12). -/
def execLightPresent (p : PortId) (s : State) : Host.Outcome State Fault Refusal :=
  .next (if s.node = .held then s
    else
      let t := s.setPort p { s.port p with light := true }
      if (t.port p).state = .dark then t.enterProbing p else t)

/-- LIGHT_LOST (R1 to R3). -/
def execLightLost (p : PortId) (s : State) : Host.Outcome State Fault Refusal :=
  .next (if s.node = .held then s
    else
      let t := s.setPort p { s.port p with light := false }
      if (t.port p).state = .dark then t else t.enterDark p)

/-- PORT_SILENCE_TIMER_EXPIRY (R2, R6). -/
def execPortSilenceTimerExpiry (p : PortId) (s : State) : Host.Outcome State Fault Refusal :=
  .next (if (s.port p).state = .lit ∧ (s.port p).silence.isSome = true then s.enterDark p else s)

/-- FRAME_RECEIVED (R8 to R15). -/
def execFrameReceived (p : PortId) (bytes : List Byte) (s : State) : Host.Outcome State Fault Refusal :=
  .next (s.takeFrame p bytes)

/-- FRAME_SEND_END (R20, R23). -/
def execFrameSendEnd (p : PortId) (s : State) : Host.Outcome State Fault Refusal :=
  .next (if (s.port p).sending.isSome then (s.setPort p { s.port p with sending := none }).arbitrate p else s)

/-- BEAT_TIMER_EXPIRY (R27). -/
def execBeatTimerExpiry (s : State) : Host.Outcome State Fault Refusal :=
  .next (if s.reach.beatTimer.isSome then s.startBeats else s)

/-- REACH_ENTRY_AGE_LIMIT (R33, R38). -/
def execReachEntryAgeLimit (p : PortId) (node : Nat) (s : State) : Host.Outcome State Fault Refusal :=
  .next (s.removeAged p node)

end Sys2Proof.Machine
end

