-- ==== Sys2Proof/Machine/PortCmds.lean ====
section
/-! DEFINITION. The meanings of the commands of the equipment port and of node status (chapter 11). -/

namespace Sys2Proof.Machine

/-- STATUS_ASK (R192, R194): answered in RUNNING; in SCANNING refused with a STATUS, and counted before it is built (log
entry 16). -/
def execStatusAsk (origin : Byte) (s : State) : Host.Outcome State Fault Refusal :=
  .next (s.dispatch true true (fun t => t.answerStatus origin) fun t => t.answerStatus origin)

/-- SEND_SIGN (R192, R193); a kind, target, zone or payload that R193 excludes fails check 4 of R191. -/
def execSendSign (kind target zone : Byte) (payload : List Byte) (s : State) : Host.Outcome State Fault Refusal :=
  .next (s.dispatch (sendSignOk kind target zone payload) s.isTerminus
    (fun t => t.sendSignFrame kind target zone payload) id)

/-- OUTBOUND_TRANSFER_START (R190, R195). -/
def execOutboundTransferStart (s : State) : Host.Outcome State Fault Refusal :=
  .next (match s.equip.transfer, s.equip.outbound with
    | none, m :: rest =>
      if s.numberKnown then { s with equip := { s.equip with transfer := some m, outbound := rest } } else s
    | _, _ => s)

/-- OUTBOUND_TRANSFER_END (R195). -/
def execOutboundTransferEnd (s : State) : Host.Outcome State Fault Refusal :=
  .next { s with equip := { s.equip with transfer := none } }

/-- STATUS_TIMER_EXPIRY (R197, R198). -/
def execStatusTimerExpiry (s : State) : Host.Outcome State Fault Refusal :=
  .next (if s.equip.statusTimer.isSome then
      let t := s.sendNsta
      { t with equip := { t.equip with statusTimer := t.statusTimerAnew } }
    else s)

/-- BAD_MESSAGE (R191): bytes that fail one of the four checks. -/
def execBadMessage (bytes : List Byte) (s : State) : Host.Outcome State Fault Refusal :=
  .next (if s.portReceives && (parseInbound bytes).isNone then s.countBad else s)

end Sys2Proof.Machine
end

