-- ==== Sys2Proof/Machine/DisplayOps.lean ====
section
/-! DEFINITION. The frame end of Sign Display (R169 to R174). -/

namespace Sys2Proof.Machine

/-- A claim whose expiry is present and due (R170). -/
def Claim.expired (c : Claim) (lt : LTime) : Bool := c.expiry.any fun t => ltDue t lt

/-- Claims whose expiry is due leave the list (R170). -/
def State.expireClaims (s : State) : State :=
  { s with display := { s.display with claims := s.display.claims.filter fun c => !c.expired s.time.lt } }

/-- A claim qualifies: its page READY and its show-at absent or due (R171). -/
def State.qualifies (s : State) (c : Claim) : Bool :=
  (s.pages.records[c.page]).state == .ready && c.showAt.all fun t => ltDue t s.time.lt

/-- The claim that is displayed (R171). -/
def State.selected (s : State) : Option Claim := s.display.claims.find? s.qualifies

/-- The level of a reading through the breakpoints and band levels (R172). -/
def bandLevel (breakpoints : List Int) (levels : List Nat) (a : Int) : Nat :=
  levels.getD (breakpoints.filter fun p => decide (p ≤ a)).length 1

/-- The requested brightness (R172). -/
def State.requestedLevel (s : State) : Nat :=
  let c := s.weather.channels[s.cfg.ambient]
  match s.cfg.brightnessMode with
  | .fixed => s.cfg.fixedLevel
  | .mapped => if c.usable then bandLevel s.cfg.breakpoints s.cfg.bandLevels c.value else s.cfg.fixedLevel

/-- The applied brightness from the request, the power budget and the drive load (R173). -/
def appliedLevel (r budget load : Nat) : Nat := if load = 0 then r else max 1 (min r (budget / load))

/-- The budget has forced the brightness below the request (R173). -/
def overBudget (r budget load : Nat) : Bool := decide (0 < load) && decide (budget / load < r)

/-- The drive load of what is selected, 0 for BLANK (R173). -/
def State.selectedLoad (s : State) : Nat :=
  match s.selected with
  | some c => (s.pages.records[c.page]).drive
  | none => 0

/-- Selection and brightness taken at a frame end, and what they change counted (R171 to R174). -/
def State.applySelection (s : State) : State :=
  let c := s.selected
  let page := c.map (·.page)
  let who := c.map (·.claimant)
  let r := s.requestedLevel
  let forced := overBudget r s.cfg.powerBudget s.selectedLoad
  let changed := decide (page ≠ s.display.page ∨ who ≠ s.display.claimant)
  { s with display :=
    { s.display with
      page := page, claimant := who, requested := r
      applied := appliedLevel r s.cfg.powerBudget s.selectedLoad
      overload := forced
      overloads := if forced && !s.display.overload then bump s.display.overloads else s.display.overloads
      owed := s.display.owed || changed
      changes := if changed then bump s.display.changes else s.display.changes } }

/-- A DISPLAY report's payload (R174, 12.3). -/
def State.displayPayload (s : State) : List Byte :=
  [3, s.display.pageByte] ++ claimantBytes s.display.claimant ++
    [BitVec.ofNat 8 ((s.selected.map (·.priority)).getD 0), BitVec.ofNat 8 s.display.requested,
      BitVec.ofNat 8 s.display.applied] ++
    bytesBE 4 s.selectedLoad ++ [flagByte s.display.overload, BitVec.ofNat 8 s.display.claims.length] ++
    bytesLT s.time.lt

/-- The report is no longer owed. -/
def State.clearOwed (s : State) : State := { s with display := { s.display with owed := false } }

/-- An owed display report is tried (R174). -/
def State.tryDisplayReport (s : State) : State :=
  if s.display.owed then
    match s.terminusChoice with
    | .terminus _ p _ =>
      let f := s.ownFrame .srpt 255 241 s.displayPayload
      match (s.port p).offerAnswer f with
      | .refused => s.offer p f
      | _ => (s.offer p f).clearOwed
    | .self => if s.queueRoom then (s.placeTail (centreCopy 0x85 s.cfg.number s.displayPayload)).clearOwed else s
    | .none => s
  else s

/-- The frame timer anew, one frame period (R169). -/
def State.frameTimerAnew (s : State) : State :=
  { s with display := { s.display with frameTimer := s.framePeriod } }

/-- A frame end (R169 to R174). -/
def State.endFrame (s : State) : State := s.expireClaims.applySelection.tryDisplayReport.frameTimerAnew

end Sys2Proof.Machine
end

