-- ==== Sys2Proof/Machine/SignCmds.lean ====
section
/-! DEFINITION. The meanings of the commands of the sign blocks (chapters 8 and 9). -/

namespace Sys2Proof.Machine

/-- LOAD_TIMER_EXPIRY (R149, R151). -/
def execLoadTimerExpiry (page : Fin 4) (s : State) : Host.Outcome State Fault Refusal :=
  .next (if (s.pages.records[page]).state = .loading ∧ (s.pages.records[page]).timer.isSome = true then
      s.abortLoad page .timeout
    else s)

/-- FRAME_END (R169 to R174). -/
def execFrameEnd (s : State) : Host.Outcome State Fault Refusal :=
  .next (if s.display.frameTimer.isSome then s.endFrame else s)

end Sys2Proof.Machine
end

