-- ==== Sys2Proof/Machine/StartOps.lean ====
section
/-! DEFINITION. The changes of node state (R39, R41, R61, R119, R199, R201), the frame end's report-owed start (R159), and
what follows from the generation mark (R122). -/

namespace Sys2Proof.Machine

/-! ### Starts (R201) -/

/-- A level line at a start: its pin is outside the part and keeps its level (R59). -/
def LevelState.restart (v : LevelState) : LevelState := { LevelState.initial with pin := v.pin }

/-- Input Watch at a start. -/
def Inputs.restart (i : Inputs) : Inputs :=
  { hookA := i.hookA.restart, hookB := i.hookB.restart, contacts := i.contacts.map LevelState.restart,
    powerWarn := i.powerWarn.restart, pulses := Inputs.initial.pulses }

/-- Every item at its start value in a given node state; the array keeps what the last run left, an operation in progress
cut short (R201). -/
def State.restart (s : State) (n : NodeState) (timer : Timer) : State :=
  let t := s.cutArray
  { State.reset with node := n, loadTimer := timer, inputs := s.inputs.restart, array := t.array,
                     freeCount := t.freeCount, pending := s.pending }

/-! ### LOADING to SCANNING or REPEATER-ONLY (R199) -/

/-- The node enters REPEATER-ONLY: nothing is reported, and every block but the line ports keeps its start values, so the
Reach View, the one block that acted in LOADING, returns to them (R39, R199). -/
def State.enterRepeaterOnly (s : State) : State :=
  { s with node := .repeaterOnly, loadTimer := none, reach := State.reset.reach }

/-! ### Entry to RUNNING (R201) -/

/-- The window timer of a pulse channel, with the count at 0 (R68). -/
def State.startPulse (s : State) (ch : PulseId) : State :=
  s.setPulse ch { pulseGet s.inputs.pulses ch with count := 0, window := s.startTimer (s.pulseWindowUs ch) }

/-- The frame timer starts and a display report is owed, at a node whose sign is present (R159). -/
def State.startFrames (s : State) : State :=
  if s.signPresent then
    { s with display := { s.display with frameTimer := s.framePeriod, owed := true } }
  else s

/-- The report timer starts at a node with WEATHER (R176). -/
def State.startReports (s : State) : State :=
  if s.cfg.services.weather then
    { s with weather := { s.weather with reportTimer := s.startTimer (s.cfg.reportInterval * 1000000) } }
  else s

/-- The grade timer starts (R53). -/
def State.startGrade (s : State) : State := { s with time := { s.time with gradeTimer := s.gradeTimerAnew } }

/-- The first NSTA and the status timer (R197). -/
def State.startStatus (s : State) : State :=
  let t := s.sendNsta
  { t with equip := { t.equip with statusTimer := t.statusTimerAnew } }

/-- The node enters RUNNING; its entry actions are taken in the order in which R201 lists them. -/
def State.enterRunning (s : State) : State :=
  let t := { s with node := .running }.startBeats
  let u := ((t.reportChange []).entryReport.startGrade.startPulse .wind).startPulse .rain
  u.startFrames.startReports.startStatus.runToll

/-! ### Entry to SCANNING (R199, R201) -/

/-- The entries of the own number leave both parts, unreported (R39). -/
def State.dropOwnEntries (s : State) : State :=
  { s with reach := { s.reach with east := removeNode s.cfg.number s.reach.east,
                                   west := removeNode s.cfg.number s.reach.west } }

/-- An accepted image: K computed, levels sampled, own-number entries removed, the scan begun; a node without TOLL goes on
to RUNNING at once (R119, R199, R201). -/
def State.enterScanning (s : State) (c : Config) : State :=
  let t := { s with node := .scanning, cfg := c, loadTimer := none,
                    time := { s.time with k := some (rateOf (referenceHz c.reference) c.trim) } }
  let u := t.sampleLines.dropOwnEntries
  if c.services.toll then { u with spool := { u.spool with scanReading := true } } else u.enterRunning

/-- The read of the image ends (R199). -/
def State.imageRead (s : State) (image : Option (List Byte)) : State :=
  if s.node = .loading then
    match image.bind parseImage with
    | some c => s.enterScanning c
    | none => s.enterRepeaterOnly
  else s

/-! ### After the generation mark (R106, R119, R122) -/

/-- The spool's generation is settled, marked or not: SCANNING ends, or a roll ends (R106, R119, R122). -/
def State.generationSettled (s : State) (value : Nat) (fault : Bool) : State :=
  let t := { s with spool :=
    { s.spool with generation := value, nextSeq := 1, genJob := none, op := .idle,
                   markFault := s.spool.markFault || fault } }
  if t.node = .scanning then t.enterRunning else t.runToll

/-- A generation mark's next stage is taken up (R122). -/
def State.genStage (s : State) (value : Nat) (stage : GenStage) : State :=
  { s with spool := { s.spool with genJob := some ⟨value, stage⟩, op := .idle } }.startGenJob.pump

/-- The generation mark being programmed: its place and the job. -/
def State.genMarkRun (s : State) : Option (Nat × GenJob) :=
  match s.spool.op, s.spool.genJob with
  | .genMark place, some j => some (place, j)
  | _, _ => none

/-- A generation mark's program ends within its limit (R122). -/
def State.genMarkEnd (s : State) : State :=
  match s.genMarkRun with
  | some (place, j) =>
    { s with array := { s.array with marks := keySet s.array.marks place j.value } }.generationSettled j.value false
  | none => s

/-- Whether a job is at its second place. -/
def GenJob.isSecond (j : GenJob) : Bool :=
  match j.stage with
  | .program _ second => second
  | .eraseSector => false

/-- A generation mark's program reaches its limit: the next erased place is tried once, or MARK-FAULT (R122). -/
def State.genMarkLimit (s : State) : State :=
  match s.genMarkRun with
  | some (place, j) =>
    let t := { s with array := s.array.abandonGenMark (Config.freeMark s.freeCount) place,
                      freeCount := s.freeCount + 1 }
    match (if j.isSecond then none else s.array.erasedPlace (place + 1)) with
    | some k => t.genStage j.value (.program k true)
    | none => t.generationSettled j.value true
  | none => s

/-- The mark places after an erase that did not check erased: free values (log entry 4). -/
def State.marksInPart (s : State) : State :=
  { s with
    array := { s.array with marks :=
      (List.range 32).filterMap fun (k : Nat) => (Config.freeMark (s.freeCount + k)).map fun v => (k, v) }
    freeCount := s.freeCount + 32 }

/-- The mark-sector erase ends or reaches its limit, and is checked (R122). -/
def State.markEraseEnd (s : State) (erased : Bool) : State :=
  match s.spool.op, s.spool.genJob with
  | .markSectorErase, some j =>
    if erased then
      { s with array := { s.array with marks := [] } }.genStage j.value (.program 0 false)
    else s.marksInPart.generationSettled j.value true
  | _, _ => s

end Sys2Proof.Machine
end

