-- ==== Sys2Proof/Machine/StartCmds.lean ====
section
/-! DEFINITION. The meanings of the commands of a start: chapters 6 (start scan) and 11. -/

namespace Sys2Proof.Machine

/-- START (R201). -/
def execStart (s : State) : Host.Outcome State Fault Refusal := .next (s.restart .loading (some ⟨0, 50000⟩))

/-- CONFIGURATION_IMAGE_READ_END (R199, R200). -/
def execConfigurationImageReadEnd (image : Option (List Byte)) (s : State) : Host.Outcome State Fault Refusal :=
  .next (s.imageRead image)

/-- LOADING_READ_TIMEOUT (R199). -/
def execLoadingReadTimeout (s : State) : Host.Outcome State Fault Refusal := .next (s.imageRead none)

/-- START_SCAN_READ_END (R120 to R122). -/
def execStartScanReadEnd (s : State) : Host.Outcome State Fault Refusal :=
  .next (if s.spool.scanReading then s.scan else s)

/-- GENERATION_MARK_PROGRAM_END (R106, R119, R122). -/
def execGenerationMarkProgramEnd (s : State) : Host.Outcome State Fault Refusal := .next s.genMarkEnd

/-- GENERATION_MARK_PROGRAM_LIMIT (R122). -/
def execGenerationMarkProgramLimit (s : State) : Host.Outcome State Fault Refusal := .next s.genMarkLimit

/-- MARK_SECTOR_ERASE_END (R122). -/
def execMarkSectorEraseEnd (erased : Bool) (s : State) : Host.Outcome State Fault Refusal := .next (s.markEraseEnd erased)

/-- MARK_SECTOR_ERASE_LIMIT (R122): the sector is checked as at the end. No counter rises: R116 counts the limit of a batch
erase, and R122 says nothing of one for this erase (DEDUCED, log entry 17). -/
def execMarkSectorEraseLimit (erased : Bool) (s : State) : Host.Outcome State Fault Refusal :=
  .next (s.markEraseEnd erased)

/-- RESET_HELD (R201). -/
def execResetHeld (s : State) : Host.Outcome State Fault Refusal := .next (s.restart .held none)

end Sys2Proof.Machine
end

