-- ==== Sys2Proof/Machine/TimeCmds.lean ====
section
/-! DEFINITION. The meanings of the commands of Line Time (chapter 3). -/

namespace Sys2Proof.Machine

/-- LT_CARRY (R45, R46). -/
def execLtCarry (s : State) : Host.Outcome State Fault Refusal := .next s.passToCarry

/-- GRADE_TIMER_EXPIRY (R53). -/
def execGradeTimerExpiry (s : State) : Host.Outcome State Fault Refusal :=
  .next (if s.time.gradeTimer.isSome then
      { s with time := { s.time with grade := s.time.grade - 1, gradeTimer := s.gradeTimerAnew } }
    else s)

/-- The value of a TIME message becomes pending at an enabled node (R54). -/
def State.takeTime (s : State) (v : LTime) : State :=
  if s.timeInputEnabled then { s with time := { s.time with value := some v, lapse := s.startTimer 2000000 } } else s

/-- TIME (R54, R192). -/
def execTime (v : LTime) (s : State) : Host.Outcome State Fault Refusal :=
  .next (s.dispatch true s.isTerminus (fun t => t.takeTime v) id)

/-- TIME_VALUE_LAPSE (R54). -/
def execTimeValueLapse (s : State) : Host.Outcome State Fault Refusal :=
  .next (if s.time.lapse.isSome then { s with time := s.time.dropValue } else s)

/-- TIME_INPUT_PULSE (R54 to R56). -/
def execTimeInputPulse (s : State) : Host.Outcome State Fault Refusal := .next s.timePulse

/-- The lock lapses: the input is unlocked and the grade timer restarts (R56). -/
def State.unlock (s : State) : State :=
  let t := { s with time := { s.time with lock := none } }
  { t with time := { t.time with gradeTimer := t.gradeTimerAnew } }

/-- INPUT_LOCK_LAPSE (R56). -/
def execInputLockLapse (s : State) : Host.Outcome State Fault Refusal :=
  .next (if s.time.lock.isSome then s.unlock else s)

end Sys2Proof.Machine
end

