-- ==== Sys2Proof/Machine/TollOps.lean ====
section
/-! DEFINITION. What the ends of array operations do at the Toll Spool (R105 to R117). -/

namespace Sys2Proof.Machine

/-! ### Submissions (R105, R107, R108) -/

/-- The causes of TOLL-REFUSED (R105, 12.4). -/
inductive TollCause where
  | absent
  | fault
  | inhibited
  | busy
  | full
  | notReady
  deriving DecidableEq, Repr

/-- The code of a cause (12.4). -/
def TollCause.code : TollCause → Byte
  | .absent => 1
  | .fault => 2
  | .inhibited => 3
  | .busy => 4
  | .full => 5
  | .notReady => 6

/-- TOLL-REFUSED (12.4). -/
def tollRefused (tag : Byte) (c : TollCause) : CabMsg := ⟨0x82, [tag, c.code]⟩

/-- TOLL-TAKEN (12.4). -/
def tollTaken (tag : Byte) (p : Position) : CabMsg := ⟨0x81, tag :: bytesPos p⟩

/-- The first condition of R105 that refuses a submission. -/
def State.refusal (s : State) : Option TollCause :=
  if s.cfg.services.toll = false then some .absent
  else if s.spool.markFault then some .fault
  else if s.powerFailing then some .inhibited
  else if s.spool.held.isSome || s.spool.genJob.isSome then some .busy
  else if s.spool.filling.isNone then some .full
  else none

/-- A submission held, its sequence given (R105, R106). -/
def State.holdSubmission (s : State) (tag : Byte) (gantry : BitVec 16) (lane : Byte) (body : List Byte) : State :=
  let h : HeldSubmission :=
    { tag := tag, seq := s.spool.nextSeq, gantry := gantry, lane := lane, body := body, stamp := none }
  { s with spool := { s.spool with held := some h } }

/-- A TOLL-SUBMIT in RUNNING (R105). -/
def State.submit (s : State) (tag : Byte) (gantry : BitVec 16) (lane : Byte) (body : List Byte) : State :=
  if s.spool.answer.isSome then
    { s with spool := { s.spool with unanswered := bump s.spool.unanswered } }
  else
    match s.refusal with
    | some c => s.answerSpool (tollRefused tag c)
    | none => (s.holdSubmission tag gantry lane body).pump

/-- The record of a held submission (R101, R107). -/
def HeldSubmission.record (h : HeldSubmission) (generation : Nat) : TollRecord :=
  let st := h.stamp.getD ⟨0, 0, false⟩
  { pos := ⟨generation, h.seq⟩, stamp := st.lt, grade := st.grade, settled := st.settled, gantry := h.gantry,
    lane := h.lane, body := h.body }

/-- The next sequence after a record became FILLED, or the generation roll it starts (R106). -/
def State.advanceSeq (s : State) (seq : Nat) : State :=
  if seq < 4294967295 then { s with spool := { s.spool with nextSeq := seq + 1 } }
  else s.wantGenMark (nextGeneration s.spool.generation)

/-- A slot becomes FILLED with the record of the held submission, which is no longer held (R107). -/
def State.fillSlot (s : State) (slot : Nat) (h : HeldSubmission) : State :=
  let r := h.record s.spool.generation
  { s with
    array := { s.array with slots := keySet s.array.slots slot ⟨some r, true, false⟩ }
    spool := { s.spool with slots := keySet s.spool.slots slot (.filled r.pos), held := none, op := .idle } }

/-- A record program ends within its limit (R106, R107, R109, R127). -/
def State.recordEnd (s : State) : State :=
  match s.spool.op, s.spool.held with
  | .recordProgram slot _, some h =>
    let t := ((s.fillSlot slot h).advanceSeq h.seq).sectorChange
    (t.answerSpool (tollTaken h.tag ⟨s.spool.generation, h.seq⟩)).windowIntake.runToll
  | _, _ => s

/-- The held submission is refused after its program failed; its sequence is given back (R108). -/
def State.giveUp (s : State) (tag : Byte) (c : TollCause) : State :=
  ({ s with spool := { s.spool with held := none } }.answerSpool (tollRefused tag c)).runToll

/-- A slot becomes VOID and its sector weak with a WEAK mark pending; the fault is counted (R108). -/
def State.voidSlot (s : State) (slot : Nat) : State :=
  let p := s.spool.weaken (sectorOf slot)
  { s with spool :=
    { p with slots := keySet p.slots slot .void, op := .idle, programFaults := bump p.programFaults } }

/-- The retry of a failed record program, or the refusal that takes its place (R108). -/
def State.retryRecord (s : State) (tag : Byte) : State :=
  match s.spool.nextSlot with
  | none => s.giveUp tag .full
  | some k => if s.powerFailing then s.giveUp tag .inhibited else s.startRecord k true

/-- A record program reaches its limit (R108). -/
def State.recordLimit (s : State) : State :=
  match s.spool.op, s.spool.held with
  | .recordProgram slot retry, some h =>
    let t := (s.voidSlot slot).sectorChange
    if retry then t.giveUp h.tag .fault else t.retryRecord h.tag
  | _, _ => s

/-! ### Marks (R112, R113) -/

/-- The pending flag of a mark cleared in working memory. -/
def Spool.clearPending (p : Spool) : MarkTarget → Spool
  | .weak n => p.setSector n { p.sector n with weakMark := false }
  | .bad n => p.setSector n { p.sector n with badMark := false }
  | .delivered k =>
    match keyGet p.slots k with
    | some (.delivered q _) => { p with slots := keySet p.slots k (.delivered q false) }
    | _ => p

/-- The sector a mark lies in. -/
def MarkTarget.sector : MarkTarget → Nat
  | .weak n => n
  | .bad n => n
  | .delivered k => sectorOf k

/-- The array is idle again. -/
def State.opDone (s : State) : State := { s with spool := { s.spool with op := .idle } }

/-- A mark program ends within its limit (R112, R113). -/
def State.markEnd (s : State) : State :=
  match s.spool.op with
  | .markProgram m =>
    let t := { s with array := s.array.setMark m, spool := s.spool.clearPending m }
    (t.opDone.reclaimFull m.sector).runToll
  | _ => s

/-- The sector of a DELIVERED mark that failed becomes weak; sector marks leave it as it is (R112, R113). -/
def Spool.weakenFor (p : Spool) : MarkTarget → Spool
  | .delivered k => p.weaken (sectorOf k)
  | _ => p

/-- A mark program reaches its limit (R112, R113). -/
def State.markLimit (s : State) : State :=
  match s.spool.op with
  | .markProgram m =>
    let p := (s.spool.clearPending m).weakenFor m
    let t := { s.takeBit.2 with array := s.array.abandonMark s.takeBit.1 m,
                                spool := { p with markFaults := bump p.markFaults } }
    (t.opDone.reclaimFull m.sector).runToll
  | _ => s

/-! ### Reads (R111, R128) -/

/-- The record cells of a slot. -/
def TollArray.recordOf (a : TollArray) (slot : Nat) : Option TollRecord := (keyGet a.slots slot).bind (·.record)

/-- A read ends, with its record or, at its limit, with none (R111, R128). -/
def State.endRead (s : State) (ended : Bool) : State :=
  match s.spool.op with
  | .read q slot => (s.opDone.readResult q (if ended then s.array.recordOf slot else none)).runToll
  | _ => s

/-! ### Erases (R114 to R117) -/

/-- The close timer expires (R114). -/
def State.closeBatch (s : State) : State :=
  match s.spool.batch with
  | some b =>
    if b.timer.isSome then
      { s with spool := { s.spool with batch := some { b with closed := true, timer := none } } }.pump
    else s
  | none => s

/-- The erase is SUSPENDED, and the waiting record program or read begins (R117). -/
def State.suspensionDone (s : State) : State :=
  match s.spool.erase with
  | some e =>
    if e.phase = .suspending then
      { s with spool := { s.spool with erase := some { e with phase := .suspended } } }.pump
    else s
  | none => s

/-- A sector of the batch that checks erased becomes EMPTY (R116). -/
def State.sectorErased (s : State) (n : Nat) : State :=
  let p := s.spool.setSector n ⟨.empty, false, false, false⟩
  { s with array := s.array.eraseSector n,
           spool := { p with slots := p.slots.filter fun e => sectorOf e.1 != n } }

/-- A sector of the batch that does not check erased becomes BAD, its BAD mark pending (R116). -/
def State.sectorFailed (s : State) (n : Nat) : State :=
  { s with spool := s.spool.setSector n { s.spool.sector n with state := .bad, badMark := true } }.eraseInPart [n]

/-- A sector of the batch at the end of its erase (R116). -/
def State.checkSector (failed : List (Fin 63)) (s : State) (n : Nat) : State :=
  if failed.any (fun i => (i : Nat) == n) then s.sectorFailed n else s.sectorErased n

/-- The spool that is full takes the first EMPTY sector after the fill point (R109, R116). -/
def State.endFull (s : State) : State :=
  if s.spool.filling.isNone then { s with spool := s.spool.fillAfter s.spool.fillPoint } else s

/-- An erase in a phase can end: the array reports it done while ACTIVE or still SUSPENDING (DEDUCED, log entry 18), and its
active erase time, which does not count while SUSPENDING or SUSPENDED, reaches the limit while ACTIVE (R116, R117). -/
def ErasePhase.ends (limit : Bool) : ErasePhase → Bool
  | .active => true
  | .suspending => !limit
  | .suspended => false

/-- The erase ends: each sector of the batch is checked (R116, R117). -/
def State.endErase (s : State) (failed : List (Fin 63)) (limit : Bool) : State :=
  match s.spool.erase with
  | some e =>
    if e.phase.ends limit = false then s
    else
      let t := e.sectors.foldl (State.checkSector failed) s
      let faults := (if limit then bump t.spool.eraseFaults else t.spool.eraseFaults)
      let p := { t.spool with erase := none, eraseFaults := faults }
      ({ t with spool := p }).endFull.runToll
  | none => s

/-! ### Delivery's timers (R130, R133) -/

/-- The retry timer expires and building resumes (R130). -/
def State.retryEnd (s : State) : State :=
  if s.sending.retry.isSome then { s with sending := { s.sending with retry := none } }.runToll else s

/-- The send age of an entry, the time on the reference oscillator since its last offer, has reached 2 s (R133). -/
def State.sendAgeReached (s : State) (e : WindowEntry) : Bool :=
  decide (2000000 * referenceHz s.cfg.reference ≤ (s.refTime - e.sentAt) * 1000000)

/-- The first entry, sent and not due, has reached the send age of 2 s: every entry is due (R133). -/
def State.goBackNow (s : State) : State :=
  match s.sending.window with
  | e :: _ =>
    if e.sent = true ∧ e.due = false ∧ s.sendAgeReached e = true then
      { s with sending :=
        { s.sending with window := s.sending.window.map fun (x : WindowEntry) => { x with due := true },
                         goBacks := bump s.sending.goBacks } }.runToll
    else s
  | [] => s

end Sys2Proof.Machine
end

