-- ==== Sys2Proof/Machine/TollCmds.lean ====
section
/-! DEFINITION. The meanings of the commands of the Toll Spool and of Toll Delivery (chapters 6 and 7). -/

namespace Sys2Proof.Machine

/-- TOLL_SUBMIT (R105, R192); a body without 40 bytes fails check 4 of R191. -/
def execTollSubmit (tag : Byte) (gantry : BitVec 16) (lane : Byte) (body : List Byte) (s : State) :
    Host.Outcome State Fault Refusal :=
  .next (s.dispatch (body.length == 40) true (fun t => t.submit tag gantry lane body)
    fun t => t.placeOrDrop (tollRefused tag .notReady))

/-- ERASE_SUSPENSION_COMPLETE (R117). -/
def execEraseSuspensionComplete (s : State) : Host.Outcome State Fault Refusal := .next s.suspensionDone

/-- RECORD_PROGRAM_END (R107). -/
def execRecordProgramEnd (s : State) : Host.Outcome State Fault Refusal := .next s.recordEnd

/-- RECORD_PROGRAM_LIMIT (R108). -/
def execRecordProgramLimit (s : State) : Host.Outcome State Fault Refusal := .next s.recordLimit

/-- ANSWER_PLACE_DRAIN (R107, R195). -/
def execAnswerPlaceDrain (s : State) : Host.Outcome State Fault Refusal :=
  .next s.drainAnswer

/-- MARK_PROGRAM_END (R112, R113). -/
def execMarkProgramEnd (s : State) : Host.Outcome State Fault Refusal := .next s.markEnd

/-- MARK_PROGRAM_LIMIT (R112, R113). -/
def execMarkProgramLimit (s : State) : Host.Outcome State Fault Refusal := .next s.markLimit

/-- READ_END (R111, R128). -/
def execReadEnd (s : State) : Host.Outcome State Fault Refusal := .next (s.endRead true)

/-- READ_LIMIT (R111, R128). -/
def execReadLimit (s : State) : Host.Outcome State Fault Refusal := .next (s.endRead false)

/-- CLOSE_TIMER_EXPIRY (R114, R115). -/
def execCloseTimerExpiry (s : State) : Host.Outcome State Fault Refusal := .next s.closeBatch

/-- ERASE_DONE (R116). -/
def execEraseDone (failed : List (Fin 63)) (s : State) : Host.Outcome State Fault Refusal :=
  .next (s.endErase failed false)

/-- ERASE_LIMIT (R116). -/
def execEraseLimit (failed : List (Fin 63)) (s : State) : Host.Outcome State Fault Refusal :=
  .next (s.endErase failed true)

/-- RETRY_TIMER_EXPIRY (R130). -/
def execRetryTimerExpiry (s : State) : Host.Outcome State Fault Refusal := .next s.retryEnd

/-- GO_BACK (R133). -/
def execGoBack (s : State) : Host.Outcome State Fault Refusal := .next s.goBackNow

end Sys2Proof.Machine
end

