-- ==== Sys2Proof/Machine/WeatherCmds.lean ====
section
/-! DEFINITION. The meanings of the commands of Weather Monitor (chapter 10). -/

namespace Sys2Proof.Machine

/-- READING (R178, R192). -/
def execReading (channel : Byte) (value : BitVec 16) (valid : Bool) (s : State) : Host.Outcome State Fault Refusal :=
  .next (s.dispatch true true (fun t => t.takeReading channel value valid) id)

/-- A reading channel replaced. -/
def State.setChannel (s : State) (c : Fin 8) (v : ReadingChannel) : State :=
  { s with weather := { s.weather with channels := s.weather.channels.set c v } }

/-- STALE_TIMER_EXPIRY (R179). -/
def execStaleTimerExpiry (channel : Fin 8) (s : State) : Host.Outcome State Fault Refusal :=
  .next (if (s.weather.channels[channel]).timer.isSome then
      s.setChannel channel { s.weather.channels[channel] with stale := true, timer := none }
    else s)

/-- RENEWAL_TIMER_EXPIRY (R185). -/
def execRenewalTimerExpiry (rule : Fin 8) (s : State) : Host.Outcome State Fault Refusal :=
  .next (if (s.weather.rules[rule]).renewal.isSome then s.renew rule else s)

/-- GATHERING_WINDOW_EXPIRY (R187). -/
def execGatheringWindowExpiry (s : State) : Host.Outcome State Fault Refusal :=
  .next (if s.weather.windowTimer.isSome then s.sendWalr else s)

/-- The report timer anew (R188). -/
def State.reportTimerAnew (s : State) : State :=
  { s with weather := { s.weather with reportTimer := s.startTimer (s.cfg.reportInterval * 1000000) } }

/-- REPORT_TIMER_EXPIRY (R188). -/
def execReportTimerExpiry (s : State) : Host.Outcome State Fault Refusal :=
  .next (if s.weather.reportTimer.isSome then s.sendWrpt.reportTimerAnew else s)

end Sys2Proof.Machine
end

