-- ==== Sys2Proof/Machine/Dispatch.lean ====
section
/-! DEFINITION. The dispatch: one arm per command. -/

namespace Sys2Proof.Machine

/-- The effect of a command on everything but the queue. -/
def exec (i : Instr) (s : State) : Host.Outcome State Fault Refusal :=
  match i with
  | .start => Sys2Proof.Machine.execStart s
  | .configurationImageReadEnd image => Sys2Proof.Machine.execConfigurationImageReadEnd image s
  | .loadingReadTimeout => Sys2Proof.Machine.execLoadingReadTimeout s
  | .startScanReadEnd => Sys2Proof.Machine.execStartScanReadEnd s
  | .generationMarkProgramEnd => Sys2Proof.Machine.execGenerationMarkProgramEnd s
  | .generationMarkProgramLimit => Sys2Proof.Machine.execGenerationMarkProgramLimit s
  | .markSectorEraseEnd erased => Sys2Proof.Machine.execMarkSectorEraseEnd erased s
  | .markSectorEraseLimit erased => Sys2Proof.Machine.execMarkSectorEraseLimit erased s
  | .lightPresent p => Sys2Proof.Machine.execLightPresent p s
  | .lightLost p => Sys2Proof.Machine.execLightLost p s
  | .portSilenceTimerExpiry p => Sys2Proof.Machine.execPortSilenceTimerExpiry p s
  | .frameReceived p bytes => Sys2Proof.Machine.execFrameReceived p bytes s
  | .frameSendEnd p => Sys2Proof.Machine.execFrameSendEnd p s
  | .beatTimerExpiry => Sys2Proof.Machine.execBeatTimerExpiry s
  | .reachEntryAgeLimit p node => Sys2Proof.Machine.execReachEntryAgeLimit p node s
  | .ltCarry => Sys2Proof.Machine.execLtCarry s
  | .gradeTimerExpiry => Sys2Proof.Machine.execGradeTimerExpiry s
  | .time v => Sys2Proof.Machine.execTime v s
  | .timeValueLapse => Sys2Proof.Machine.execTimeValueLapse s
  | .timeInputPulse => Sys2Proof.Machine.execTimeInputPulse s
  | .inputLockLapse => Sys2Proof.Machine.execInputLockLapse s
  | .pinChange line level => Sys2Proof.Machine.execPinChange line level s
  | .filterWaitEnd line => Sys2Proof.Machine.execFilterWaitEnd line s
  | .pulseEdge ch => Sys2Proof.Machine.execPulseEdge ch s
  | .pulseWindowEnd ch => Sys2Proof.Machine.execPulseWindowEnd ch s
  | .attemptTimerExpiry e => Sys2Proof.Machine.execAttemptTimerExpiry e s
  | .ringOutAttemptTimerExpiry e => Sys2Proof.Machine.execRingOutAttemptTimerExpiry e s
  | .roadsideSilenceTimerExpiry e => Sys2Proof.Machine.execRoadsideSilenceTimerExpiry e s
  | .terminusSilenceTimerExpiry e => Sys2Proof.Machine.execTerminusSilenceTimerExpiry e s
  | .roadsideKeepTimerExpiry e => Sys2Proof.Machine.execRoadsideKeepTimerExpiry e s
  | .queuedKeepTimerExpiry e => Sys2Proof.Machine.execQueuedKeepTimerExpiry e s
  | .roadsideRingTimerExpiry e => Sys2Proof.Machine.execRoadsideRingTimerExpiry e s
  | .callingRingTimerExpiry e => Sys2Proof.Machine.execCallingRingTimerExpiry e s
  | .releaseTimerExpiry k => Sys2Proof.Machine.execReleaseTimerExpiry k s
  | .playTimerExpiry e => Sys2Proof.Machine.execPlayTimerExpiry e s
  | .voiceSamplesComplete ph samples => Sys2Proof.Machine.execVoiceSamplesComplete ph samples s
  | .toneCadenceStep ph => Sys2Proof.Machine.execToneCadenceStep ph s
  | .ringCadenceStep ph => Sys2Proof.Machine.execRingCadenceStep ph s
  | .ringOut node phone => Sys2Proof.Machine.execRingOut node phone s
  | .hangup ref => Sys2Proof.Machine.execHangup ref s
  | .consoleVoice ref samples => Sys2Proof.Machine.execConsoleVoice ref samples s
  | .pendingListDrain => Sys2Proof.Machine.execPendingListDrain s
  | .tollSubmit tag gantry lane body => Sys2Proof.Machine.execTollSubmit tag gantry lane body s
  | .eraseSuspensionComplete => Sys2Proof.Machine.execEraseSuspensionComplete s
  | .recordProgramEnd => Sys2Proof.Machine.execRecordProgramEnd s
  | .recordProgramLimit => Sys2Proof.Machine.execRecordProgramLimit s
  | .answerPlaceDrain => Sys2Proof.Machine.execAnswerPlaceDrain s
  | .markProgramEnd => Sys2Proof.Machine.execMarkProgramEnd s
  | .markProgramLimit => Sys2Proof.Machine.execMarkProgramLimit s
  | .readEnd => Sys2Proof.Machine.execReadEnd s
  | .readLimit => Sys2Proof.Machine.execReadLimit s
  | .closeTimerExpiry => Sys2Proof.Machine.execCloseTimerExpiry s
  | .eraseDone failed => Sys2Proof.Machine.execEraseDone failed s
  | .eraseLimit failed => Sys2Proof.Machine.execEraseLimit failed s
  | .retryTimerExpiry => Sys2Proof.Machine.execRetryTimerExpiry s
  | .goBack => Sys2Proof.Machine.execGoBack s
  | .loadTimerExpiry page => Sys2Proof.Machine.execLoadTimerExpiry page s
  | .frameEnd => Sys2Proof.Machine.execFrameEnd s
  | .reading channel value valid => Sys2Proof.Machine.execReading channel value valid s
  | .staleTimerExpiry channel => Sys2Proof.Machine.execStaleTimerExpiry channel s
  | .renewalTimerExpiry rule => Sys2Proof.Machine.execRenewalTimerExpiry rule s
  | .gatheringWindowExpiry => Sys2Proof.Machine.execGatheringWindowExpiry s
  | .reportTimerExpiry => Sys2Proof.Machine.execReportTimerExpiry s
  | .statusAsk origin => Sys2Proof.Machine.execStatusAsk origin s
  | .sendSign kind target zone payload => Sys2Proof.Machine.execSendSign kind target zone payload s
  | .outboundTransferStart => Sys2Proof.Machine.execOutboundTransferStart s
  | .outboundTransferEnd => Sys2Proof.Machine.execOutboundTransferEnd s
  | .statusTimerExpiry => Sys2Proof.Machine.execStatusTimerExpiry s
  | .badMessage bytes => Sys2Proof.Machine.execBadMessage bytes s
  | .resetHeld => Sys2Proof.Machine.execResetHeld s

end Sys2Proof.Machine
end

