-- ==== Sys2Proof/Safety.lean ====
section
/-! DEFINITION. The terms that claims use: the items of the state one by one, and what it means that a command leaves all
but some of them as they were. -/

namespace Sys2Proof.Machine

/-- The items of the state, one for each field. -/
inductive Part where
  | node
  | cfg
  | loadTimer
  | east
  | west
  | clash
  | reach
  | time
  | inputs
  | calls
  | array
  | spool
  | sending
  | receipt
  | pages
  | display
  | weather
  | equip
  | refTime
  | freeCount
  | pending
  deriving DecidableEq, Repr

/-- The type of an item. -/
abbrev Part.Content : Part → Type
  | .node => NodeState
  | .cfg => Config
  | .loadTimer => Timer
  | .east => LinePort
  | .west => LinePort
  | .clash => Bool
  | .reach => ReachView
  | .time => LineTime
  | .inputs => Inputs
  | .calls => Calls
  | .array => TollArray
  | .spool => Spool
  | .sending => Sending
  | .receipt => Receipt
  | .pages => Pages
  | .display => Display
  | .weather => Weather
  | .equip => Equip
  | .refTime => Nat
  | .freeCount => Nat
  | .pending => List Instr

/-- The content of one item. -/
def State.item (s : State) : (k : Part) → k.Content
  | .node => s.node
  | .cfg => s.cfg
  | .loadTimer => s.loadTimer
  | .east => s.east
  | .west => s.west
  | .clash => s.clash
  | .reach => s.reach
  | .time => s.time
  | .inputs => s.inputs
  | .calls => s.calls
  | .array => s.array
  | .spool => s.spool
  | .sending => s.sending
  | .receipt => s.receipt
  | .pages => s.pages
  | .display => s.display
  | .weather => s.weather
  | .equip => s.equip
  | .refTime => s.refTime
  | .freeCount => s.freeCount
  | .pending => s.pending

/-- Every item that is not listed is as before. -/
def SameBut (changed : List Part) (s t : State) : Prop := ∀ k, k ∉ changed → t.item k = s.item k

/-! ### What every step keeps -/

/-- The stores of one class are within the capacities of R16; the consecutive-transit count is within 4, and 0 while the
local queue is empty (R22). -/
def Lane.Fits (l : Lane) (urgent : Bool) : Prop :=
  l.transit.length ≤ transitCapacity urgent ∧ l.own.length ≤ localCapacity urgent ∧ l.credit ≤ 4 ∧
    (l.own = [] → l.credit = 0)

/-- What R1, R2, R4, R5, R16 and R20 say of a port in each of its states: a DARK port holds nothing; a PROBING port holds
and sends own BEATs alone; a LIT port is within its capacities; and a free transmitter leaves no frame waiting. -/
def LinePort.Sound (q : LinePort) : Prop :=
  match q.state with
  | .dark =>
    q.probe = 0 ∧ q.silence = none ∧ q.urgent = Lane.initial ∧ q.bulk = Lane.initial ∧ q.sending = none
  | .probing =>
    q.probe ≤ 1 ∧ q.silence = none ∧ q.urgent.transit = [] ∧ q.urgent.Fits true ∧ q.bulk = Lane.initial ∧
      (∀ f ∈ q.urgent.own, f.kind = .beat) ∧ (∀ f, q.sending = some f → f.kind = .beat) ∧
      (q.sending = none → q.urgent.own = [])
  | .lit =>
    q.probe = 0 ∧ q.silence.isSome = true ∧ q.urgent.Fits true ∧ q.bulk.Fits false ∧
      (q.sending = none → q.urgent.transit = [] ∧ q.urgent.own = [] ∧ q.bulk.transit = [] ∧ q.bulk.own = [])

/-- Both line ports are sound. -/
def State.PortsSound (s : State) : Prop := s.east.Sound ∧ s.west.Sound

/-- The outbound queue is within its capacity (R195). -/
def Equip.Fits (e : Equip) : Prop := e.outbound.length ≤ 32

/-- One part of the Reach View: at most 16 entries, no node twice, nearer entries first (R30, R31). -/
def PartSound (l : List ReachEntry) : Prop :=
  l.length ≤ 16 ∧ (l.Pairwise fun a b => a.nearer b = true) ∧ (l.map fun e => e.node).Nodup

/-- Both parts of the Reach View are sound. -/
def ReachView.Sound (r : ReachView) : Prop := PartSound r.east ∧ PartSound r.west

/-- Every known receipt entry expects the successor of the position it accepted last (R135, R138), and the table lists each
origin once. -/
def Receipt.Sound (r : Receipt) : Prop := keysRising r.table = true ∧ ∀ e ∈ r.table, e.2.expected = posSucc e.2.last

/-- The claim list holds at most 8 claims, in falling priority, and at most one of each claimant (R160, R161). -/
def Display.ListSound (d : Display) : Prop :=
  d.claims.length ≤ 8 ∧ (d.claims.Pairwise fun a b => b.priority ≤ a.priority) ∧
    (d.claims.map fun c => c.claimant).Nodup

/-- The pixel store is in its canonical form, and what it lists are colours 1..15 of pixels of the four pages (R144). -/
def Pages.PixelsSound (g : Pages) : Prop :=
  Memory.wf g.pixels = true ∧ ∀ c ∈ g.pixels, c.1 < 65536 ∧ c.2.toNat < 16

/-- Every store of the spool and of the array holds each key once, keys rising: one state for each slot and each record
sector, and one content for each cell group of the array (R101, R102, R103). -/
def State.StoresRising (s : State) : Prop :=
  keysRising s.array.headers = true ∧ keysRising s.array.slots = true ∧ keysRising s.array.marks = true ∧
    keysRising s.spool.slots = true ∧ keysRising s.spool.sectors = true

/-- Width and height of the sign are within the ranges of R142. -/
def State.SignSized (s : State) : Prop := s.cfg.signWidth ≤ 256 ∧ s.cfg.signHeight ≤ 64

/-- The displayed page, when there is one, is READY (R147). -/
def State.ShownReady (s : State) : Prop := ∀ p, s.display.page = some p → (s.pages.records[p]).state = .ready

/-- What the sign blocks keep. -/
def State.SignSound (s : State) : Prop := s.SignSized ∧ s.pages.PixelsSound ∧ s.ShownReady

end Sys2Proof.Machine
end

