-- ==== Sys2Proof/Certificates/Slice0/Obligations.lean ====
section
/-! DEFINITION. The statements for the provers. Each says in its docstring which rule of spec/ it follows; where a clause
rests on a choice of the model, the log entry is named. -/

open Sys2Proof Sys2Proof.Machine

/-! ### The machine -/

/-- The command at the front of the queue is what a step runs, with the queue's rest; what stands there is first in, first
out (the model's queue, log entry 13). -/
def Obligations.StepRunsTheFrontCommand : Prop :=
  ∀ (s : State) (c : Instr) (rest : List Instr), s.pending = c :: rest →
    step s = exec c { s with pending := rest }

/-- On an empty queue one period of the reference oscillator passes (the model's choice, log entry 1). In SCANNING and
RUNNING it adds K to the accumulator modulo 2^32 and a carry is counted or withheld (R45, R46); in LOADING and
REPEATER-ONLY only the reference time moves; while RESET is held nothing does. -/
def Obligations.IdleStepIsOneReferencePeriod : Prop :=
  ∀ s : State, s.pending = [] →
    (s.node = .held → step s = .next s) ∧
    (s.node = .loading ∨ s.node = .repeaterOnly → step s = .next { s with refTime := s.refTime + 1 }) ∧
    (∀ k, s.node = .scanning ∨ s.node = .running → s.time.k = some k →
      (s.time.acc.toNat + k.toNat < 2 ^ 32 →
        step s = .next { s with refTime := s.refTime + 1, time := { s.time with acc := s.time.acc + k } }) ∧
      (2 ^ 32 ≤ s.time.acc.toNat + k.toNat →
        step s = .next { s with refTime := s.refTime + 1,
                                time := LineTime.countCarry { s.time with acc := s.time.acc + k } }))

/-- Every command is answered by a next state, in every state: none faults and none is refused. This says nothing of what a
command does. A command whose timer is stopped or whose condition fails changes nothing (log entry 1), one while RESET is held
changes nothing but a pin (log entry 12), and an ill-formed message is counted (log entry 16): these are the model's choices. -/
def Obligations.EveryCommandIsAnswered : Prop :=
  ∀ (c : Instr) (s : State), ∃ t, exec c s = .next t

/-! ### The stretch line (chapter 1) -/

/-- Light at a DARK port makes it PROBING with probe count 0, and a RUNNING node then offers its BEAT (R4); light at a port
in PROBING or LIT, and light lost at a DARK port, change nothing but what the receiver reported (R1, R3). While RESET is
held neither changes anything (log entry 12). -/
def Obligations.LightEventsThatKeepOrRaiseAPort : Prop :=
  ∀ (s : State) (p : PortId),
    let q := s.port p
    (s.node = .held → exec (.lightPresent p) s = .next s ∧ exec (.lightLost p) s = .next s) ∧
    (s.node ≠ .held → q.state = .dark → s.node ≠ .running →
      exec (.lightPresent p) s = .next (s.setPort p { q with light := true, state := .probing, probe := 0 })) ∧
    (q.state = .dark → s.node = .running →
      exec (.lightPresent p) s =
        .next ((s.setPort p { q with light := true, state := .probing, probe := 0 }).offerBeat p)) ∧
    (s.node ≠ .held → q.state ≠ .dark → exec (.lightPresent p) s = .next (s.setPort p { q with light := true })) ∧
    (s.node ≠ .held → q.state = .dark → exec (.lightLost p) s = .next (s.setPort p { q with light := false }))

/-- A port that enters DARK, by light lost in PROBING or LIT (R3) or by its silence timer in LIT (R6). Every frame it holds
or sends is one dark discard, its stores, counts and timer are cleared and its other counters stay, in every node state (R2; a
frame counts as sent until its FRAME_SEND_END, log entry 10). The Reach View loses its part, and a RUNNING node whose part
held an entry reports it: the loss of each TERMINUS of the part, nearest first, to Call Control, then the terminus choice (R38;
the order is log entry 11). No report
makes the port count more. After the silence timer a port with light is PROBING with probe count 0 (R4), where a RUNNING node
offers its BEAT. Outside RUNNING nothing but the port and the Reach View changes. -/
def Obligations.EntryIntoDark : Prop :=
  ∀ (s : State) (p : PortId),
    let q := s.port p
    let lost := q.urgent.transit.length + q.urgent.own.length + q.bulk.transit.length + q.bulk.own.length +
      (if q.sending.isSome then 1 else 0)
    let dark : LinePort :=
      { state := .dark, light := q.light, probe := 0, silence := none, urgent := Lane.initial, bulk := Lane.initial,
        sending := none, counters := { q.counters with darkDiscards := bumpBy lost q.counters.darkDiscards } }
    let termini := ((s.reach.part p).filter fun e => e.role == .terminus).map fun e => e.node
    let emptied (u : LinePort) : State := { s.setPort p u with reach := s.reach.setPart p [] }
    let told (t : State) : State :=
      if s.node = .running ∧ s.reach.part p ≠ [] then (termini.foldl State.callsLoss t).reportChoice else t
    let lit (t : State) : State := t.setPort p { dark with state := .probing }
    let facts (t : State) (u : LinePort) : Prop := t.port p = u ∧ t.reach.part p = [] ∧
      t.reach.part (opposite p) = s.reach.part (opposite p) ∧
      (s.node ≠ .running → t.port (opposite p) = s.port (opposite p) ∧ SameBut [.east, .west, .reach] s t)
    (s.node ≠ .held → q.state ≠ .dark →
      let t := told (emptied { dark with light := false })
      exec (.lightLost p) s = .next t ∧ facts t { dark with light := false }) ∧
    (q.state = .lit → q.silence.isSome = true →
      let t := told (emptied dark)
      (q.light = false → exec (.portSilenceTimerExpiry p) s = .next t ∧ facts t dark) ∧
      (q.light = true → s.node ≠ .running →
        exec (.portSilenceTimerExpiry p) s = .next (lit t) ∧ facts (lit t) { dark with state := .probing }) ∧
      (q.light = true → s.node = .running →
        exec (.portSilenceTimerExpiry p) s = .next ((lit t).offerBeat p) ∧ ∃ beat : Frame, beat.kind = .beat ∧
          facts ((lit t).offerBeat p) { dark with state := .probing, sending := some beat }))

/-- The choice within a class (R21): the transit head before the local head, but the local head when the count is 4; and of
any five frames of a class sent while its local queue is never empty, one at least is the node's own, whatever enters the
stores between the sends. -/
def Obligations.CreditRuleWithinAClass : Prop :=
  (∀ (t f : Frame) (transit own : List Frame) (credit : Nat),
    (credit = 4 → Lane.take ⟨t :: transit, f :: own, credit⟩ = some (f, true, ⟨t :: transit, own, 0⟩)) ∧
    (credit < 4 →
      Lane.take ⟨t :: transit, f :: own, credit⟩ = some (t, false, ⟨transit, f :: own, credit + 1⟩)) ∧
    Lane.take ⟨[], f :: own, credit⟩ = some (f, true, ⟨[], own, 0⟩) ∧
    Lane.take ⟨t :: transit, [], credit⟩ = some (t, false, ⟨transit, [], 0⟩)) ∧
  (∀ (lanes after : Fin 5 → Lane) (sent : Fin 5 → Frame) (mine : Fin 5 → Bool),
    (∀ i, (lanes i).own ≠ []) →
    (∀ i, (lanes i).take = some (sent i, mine i, after i)) →
    (∀ i j : Fin 5, (j : Nat) = i + 1 → ∃ a b,
      lanes j = { after i with transit := (after i).transit ++ a, own := (after i).own ++ b }) →
    (lanes 0).credit ≤ 4 → ∃ i, mine i = true)

/-- At the end of a sending the port's transmitter is free (R23) and the output arbiter chooses an URGENT frame when an URGENT
store holds one and a BULK frame otherwise (R20), within the class by the credit rule (`Lane.take`, R21, R22). The node's own
BEAT takes its time fields then (R18, R28), its SETTLED flag sent as 1 (log entry 6, DEDUCED). With all stores empty nothing
is sent; nothing else changes. -/
def Obligations.SendEndHandsOverTheArbitersChoice : Prop :=
  ∀ (s : State) (p : PortId) (f₀ : Frame), (s.port p).sending = some f₀ → (s.port p).state ≠ .dark →
    let q : LinePort := { s.port p with sending := none }
    let filled (f : Frame) (own : Bool) : Frame :=
      if own = true ∧ f.kind = .beat then
        { f with payload := f.payload.take 5 ++ [BitVec.ofNat 8 s.time.grade] ++ bytesLT s.time.lt ++
                              [if s.time.settled then 1 else 0] ++ f.payload.drop 13 }
      else f
    (q.urgent.transit = [] → q.urgent.own = [] → q.bulk.transit = [] → q.bulk.own = [] →
      exec (.frameSendEnd p) s = .next (s.setPort p q)) ∧
    (∀ f own l, q.urgent.take = some (f, own, l) →
      exec (.frameSendEnd p) s = .next (s.setPort p { q with urgent := l, sending := some (filled f own) })) ∧
    (q.urgent.transit = [] → q.urgent.own = [] → ∀ f own l, q.bulk.take = some (f, own, l) →
      exec (.frameSendEnd p) s = .next (s.setPort p { q with bulk := l, sending := some (filled f own) }))

/-- A job's offer (R17): appended to the local queue of its class at a LIT port with room, and at a PROBING port for a BEAT;
one local refusal where the queue is full; one dark discard elsewhere. The output arbiter then acts where the frame was
taken (R20). -/
def Obligations.OffersAreAnsweredByPortAndQueue : Prop :=
  ∀ (s : State) (p : PortId) (f : Frame),
    let q := s.port p
    let open' := q.state = .lit ∨ (q.state = .probing ∧ f.kind = .beat)
    let capacity := if f.kind.isUrgent then 8 else 16
    (open' → f.kind.isUrgent = true → q.urgent.own.length < capacity →
      q.offerAnswer f = .taken ∧
      s.offer p f = (s.setPort p { q with urgent := { q.urgent with own := q.urgent.own ++ [f] } }).arbitrate p) ∧
    (open' → f.kind.isUrgent = false → q.bulk.own.length < capacity →
      q.offerAnswer f = .taken ∧
      s.offer p f = (s.setPort p { q with bulk := { q.bulk with own := q.bulk.own ++ [f] } }).arbitrate p) ∧
    (open' → capacity ≤ (if f.kind.isUrgent then q.urgent.own else q.bulk.own).length →
      q.offerAnswer f = .refused ∧
      s.offer p f =
        s.setPort p { q with counters := { q.counters with localRefusals := bump q.counters.localRefusals } }) ∧
    (¬ open' →
      q.offerAnswer f = .discarded ∧
      s.offer p f = s.setPort p { q with counters := { q.counters with darkDiscards := bump q.counters.darkDiscards } })

/-- A frame received at a DARK port is not taken (R1). A frame that fails a check of R8 is discarded and counted once, by
the first check that fails, and the probe count of a PROBING port becomes 0 (R5, R8); nothing else changes. -/
def Obligations.DamagedFramesAreCountedAndDiscarded : Prop :=
  ∀ (s : State) (p : PortId) (b : List Byte),
    let q := s.port p
    let n := b.length
    let counted (c : LineCounters) : State :=
      s.setPort p { q with counters := c, probe := if q.state = .probing then 0 else q.probe }
    let malformed := counted { q.counters with malformed := bump q.counters.malformed }
    let checkError := counted { q.counters with checkErrors := bump q.counters.checkErrors }
    let check := bytesBE 4 (crc32 (b.take (n - 4))).toNat
    (q.state = .dark → exec (.frameReceived p b) s = .next s) ∧
    (q.state ≠ .dark → n < 11 ∨ 267 < n → exec (.frameReceived p b) s = .next malformed) ∧
    (q.state ≠ .dark → 11 ≤ n → n ≤ 267 → b.drop (n - 4) ≠ check → exec (.frameReceived p b) s = .next checkError) ∧
    (q.state ≠ .dark → 11 ≤ n → n ≤ 267 → b.drop (n - 4) = check → field b 5 2 ≠ n - 11 →
      exec (.frameReceived p b) s = .next malformed) ∧
    (q.state ≠ .dark → 11 ≤ n → n ≤ 267 → b.drop (n - 4) = check → field b 5 2 = n - 11 →
      field b 0 1 = 0 ∨ 13 < field b 0 1 ∨ 254 < field b 1 1 ∨ field b 2 1 = 0 ∨ field b 3 1 = 0 ∨ 240 < field b 3 1 ∨
        241 < field b 4 1 →
      exec (.frameReceived p b) s = .next malformed)

/-- A good frame counts at its port, which acts on it: a PROBING port's probe count rises and at 2 the port is LIT; a LIT
port's silence timer restarts (R5, R6, R9). The node's own number as origin is a clash, counted and discarded (R10). Otherwise
the frame is forwarded, under its hop limit, to the opposite port with hops raised and all else as it was (R14): one for
another node forwarded alone (R11, R12), one for all (target 0) forwarded and delivered, one for the own number, or for 241 at
a TERMINUS, delivered alone (R12). A delivered frame goes to the owner of its kind in RUNNING; in LOADING and SCANNING a BEAT
alone is used; in REPEATER-ONLY and while RESET is held none is (R13). The owners: the Reach View with Line Time, Call Control
by a payload of its entry's length and codes (R204, 12.3), Sign Display, Sign Page Memory, Toll Delivery, and at a TERMINUS a
copy for the centre, of a report that fits its entry: for an NSTA part its items too, numbered in order, with the lengths and
codes of the table, an item of a terminus empty at a ROADSIDE node, the part ending after any item. That the copy onward is
made before the delivery, and that a WALR acts at Sign Display before its ALERT-IN copy is placed, is log entry 11 (DESIGN
CHOICE; R9 and R13 give no order); that a phone port code above 2 is read as none is log entry 20; which fields of a report
are checked and that one which fails is dropped uncounted is log entry 26 (both DEDUCED). -/
def Obligations.GoodFramesClashOrTravelOn : Prop :=
  ∀ (s : State) (p : PortId) (b : List Byte) (f : Frame), checkFrame b = .good f → (s.port p).state ≠ .dark →
    let q := s.port p
    let counters := { q.counters with receivedGood := bump q.counters.receivedGood }
    let silence := s.startTimer (if s.node = .scanning ∨ s.node = .running then 3 * s.cfg.beatInterval * 1000 else 300000)
    let q' : LinePort :=
      if q.state = .lit then { q with counters := counters, silence := silence }
      else if 2 ≤ q.probe + 1 then { q with counters := counters, state := .lit, probe := 0, silence := silence }
      else { q with counters := counters, probe := q.probe + 1 }
    let known := s.node = .scanning ∨ s.node = .running
    let terminus := known ∧ s.cfg.role = .terminus
    let t := s.setPort p q'
    let onward :=
      if f.hops + 1 < f.hopLimit then t.transitOffer (opposite p) { f with hops := f.hops + 1 } else t
    let copied (kind : Byte) (u : State) : State :=
      if s.cfg.role = .terminus then u.placeOrDrop ⟨kind, BitVec.ofNat 8 f.origin :: f.payload⟩ else u
    let n := f.payload.length
    let num (i : Nat) : Nat := field f.payload i 1
    let ref : CallRef := ⟨f.payload.getD 0 0, f.payload.getD 1 0⟩
    let phone : Option PhoneId := if num 3 = 1 then some .phoneA else if num 3 = 2 then some .phoneB else none
    let requests : List (Nat × CallRequest) := [(1, .ask), (2, .resume), (3, .ring)]
    let answers : List (Nat × CallAnswer) := [(1, .accept), (2, .queued), (3, .busy), (4, .ringing)]
    let causes : List (Nat × ReleaseCause) := [(1, .clear), (2, .hangup), (3, .timeout), (4, .noAnswer)]
    let code (i lo hi : Nat) : Prop := lo ≤ num i ∧ num i ≤ hi
    let srpt := (n = 20 ∧ num 0 = 1 ∧ num 1 ≤ 3 ∧ code 3 1 4 ∧ num 4 ≤ 6) ∨
      (n = 13 ∧ num 0 = 2 ∧ code 1 1 4 ∧ code 2 1 6 ∧ num 3 ≤ 3) ∨
      (n = 20 ∧ num 0 = 3 ∧ (num 1 ≤ 3 ∨ num 1 = 255) ∧ num 2 ≤ 3)
    let coded (v : List Byte) (off lo hi : Nat) : Prop := lo ≤ field v off 1 ∧ field v off 1 ≤ hi
    let sized (k : Nat) (codes : List (Nat × Nat × Nat)) (v : List Byte) : Prop :=
      v.length = k ∧ ∀ c ∈ codes, coded v c.1 c.2.1 c.2.2
    let orEmpty (k : Nat) (v : List Byte) : Prop := v.length = k ∨ v = []
    let listed (size : Nat) (codes : List (Nat × Nat × Nat)) (v : List Byte) : Prop :=
      v.length = 2 + size * field v 1 1 ∧ field v 1 1 ≤ field v 0 1 ∧
        ∀ i, i < field v 1 1 → ∀ c ∈ codes, coded v (2 + size * i + c.1) c.2.1 c.2.2
    let terminal (item : List Byte → Prop) (v : List Byte) : Prop := if num 4 = 2 then item v else v = []
    let shown (v : List Byte) : Prop := sized 4 [(1, 0, 3)] v ∧ (field v 0 1 ≤ 3 ∨ field v 0 1 = 255)
    let items (part : Nat) : List (List Byte → Prop) := match part with
      | 1 => [sized 2 [(0, 0, 2), (1, 0, 2)], sized 14 [], sized 14 [], sized 1 [], sized 1 [], sized 2 [],
          sized 4 [(0, 0, 2), (2, 0, 2)], sized 2 [], listed 6 [(1, 0, 2), (3, 1, 2)]]
      | 2 => [sized 6 [], sized 1 [], sized 1 [(0, 0, 1)], sized 4 [], sized 2 [], sized 1 [], sized 6 [], sized 8 [],
          sized 16 [(0, 0, 4), (2, 0, 4), (4, 0, 4), (6, 0, 4), (8, 0, 4), (10, 0, 4), (12, 0, 4), (14, 0, 4)],
          sized 1 [], sized 8 [], sized 1 []]
      | 3 => [sized 2 [], sized 4 [], sized 1 [], sized 2 [], sized 2 [], sized 1 [], sized 6 [], sized 1 [], sized 1 [],
          sized 2 [(0, 0, 2)], sized 3 [(0, 0, 3)], sized 8 [], sized 3 [(0, 0, 2), (2, 0, 2)], sized 2 [], orEmpty 14,
          orEmpty 6, sized 12 [], terminal (sized 12 []), terminal (sized 1 [])]
      | 4 => [sized 8 [], terminal (sized 1 []), listed 11 [(2, 0, 2), (3, 1, 9), (5, 0, 2)], terminal (listed 2 [])]
      | 5 => [sized 4 [], sized 76 [(0, 0, 2), (19, 0, 2), (38, 0, 2), (57, 0, 2)], sized 12 [], shown,
          sized 3 [(2, 1, 2)], sized 1 [], sized 12 [], sized 12 [], listed 19 [(0, 0, 3), (3, 0, 3)]]
      | _ => []
    let itemised : Prop := ∃ vs : List (List Byte),
      f.payload.drop 12 = ((vs.zipIdx 1).flatMap fun v => [BitVec.ofNat 8 v.2, BitVec.ofNat 8 v.1.length] ++ v.1) ∧
      ∀ (j : Nat) (v : List Byte), vs[j]? = some v → ∃ item, (items (num 2))[j]? = some item ∧ item v
    let delivered (u : State) : Prop := exec (.frameReceived p b) s = .next u
    let judged (fits : Prop) (kind : Byte) (u : State) : Prop :=
      (fits → delivered (copied kind u)) ∧ (¬ fits → delivered u)
    (known → f.origin = s.cfg.number →
      exec (.frameReceived p b) s =
        .next { s.setPort p { q' with counters := { counters with numberClashes := bump counters.numberClashes } } with
                  clash := true }) ∧
    (f.target ≠ 0 → (known → f.origin ≠ s.cfg.number ∧ f.target ≠ s.cfg.number) → (f.target = 241 → ¬ terminus) →
      exec (.frameReceived p b) s = .next onward) ∧
    (∀ u, (known → f.origin ≠ s.cfg.number) →
      (f.target = 0 ∧ u = onward ∨
        f.target ≠ 0 ∧ u = t ∧ (known ∧ f.target = s.cfg.number ∨ f.target = 241 ∧ terminus)) →
      (s.node ≠ .running → f.kind ≠ .beat ∨ s.node = .repeaterOnly ∨ s.node = .held → delivered u) ∧
      (s.node = .loading ∨ known → f.kind = .beat → delivered (u.takeBeat p f)) ∧
      (s.node = .running →
        (f.kind = .creq → (n ≠ 5 ∨ (∀ x ∈ requests, x.1 ≠ num 2) → delivered u) ∧
          ∀ q, n = 5 → (num 2, q) ∈ requests →
            delivered (u.takeCreq p f.origin { ref := ref, request := q, phone := phone, attempts := num 4 })) ∧
        (f.kind = .cacc → (n ≠ 4 ∨ (∀ x ∈ answers, x.1 ≠ num 2) → delivered u) ∧
          ∀ a, n = 4 → (num 2, a) ∈ answers →
            delivered (u.takeCacc p f.origin { ref := ref, answer := a, position := num 3 })) ∧
        (f.kind = .crel → (n ≠ 3 ∨ (∀ x ∈ causes, x.1 ≠ num 2) → delivered u) ∧
          ∀ c, n = 3 → (num 2, c) ∈ causes → delivered (u.takeCrel p f.origin ref c)) ∧
        (f.kind = .voic → (n ≠ 44 → delivered u) ∧
          (n = 44 → delivered (u.takeVoic p f.origin ref ⟨BitVec.ofNat 16 (field f.payload 2 2), f.payload.drop 4⟩))) ∧
        (f.kind = .walr → delivered (copied 0x87 (u.takeWalr f.origin f.payload))) ∧
        (f.kind = .scmd → delivered (u.takeScmd f.origin (some p) f.payload)) ∧
        (f.kind = .sdat → delivered (u.takeSdat f.origin (some p) f.payload)) ∧
        (f.kind = .trec → delivered (if s.cfg.role = .terminus then u.receiveTrec p f else u)) ∧
        (f.kind = .tack → delivered (u.tackDelivered f)) ∧
        (f.kind = .srpt → judged srpt 0x85 u) ∧
        (f.kind = .wrpt → judged (n = 84 ∧ ∀ i, i < 8 → code (54 + 3 * i) 0 4) 0x86 u) ∧
        (f.kind = .nsta → judged (12 ≤ n ∧ n ≤ 256 ∧ code 2 1 5 ∧ code 4 1 2 ∧ itemised) 0x88 u)))

/-- A forwarded copy at a transit lane (R15): appended at the tail where the port is LIT and the lane has room, the arbiter
then acting (R20); one transit overflow where the lane holds its full number; one dark discard where the port is not LIT. -/
def Obligations.TransitLanesTakeOrCount : Prop :=
  ∀ (s : State) (p : PortId) (f : Frame),
    let q := s.port p
    (q.state ≠ .lit → s.transitOffer p f =
      s.setPort p { q with counters := { q.counters with darkDiscards := bump q.counters.darkDiscards } }) ∧
    (q.state = .lit → (if f.kind.isUrgent then 4 ≤ q.urgent.transit.length else 8 ≤ q.bulk.transit.length) →
      s.transitOffer p f =
        s.setPort p { q with counters := { q.counters with transitOverflow := bump q.counters.transitOverflow } }) ∧
    (q.state = .lit → f.kind.isUrgent = true → q.urgent.transit.length < 4 → s.transitOffer p f =
      (s.setPort p { q with urgent := { q.urgent with transit := q.urgent.transit ++ [f] } }).arbitrate p) ∧
    (q.state = .lit → f.kind.isUrgent = false → q.bulk.transit.length < 8 → s.transitOffer p f =
      (s.setPort p { q with bulk := { q.bulk with transit := q.bulk.transit ++ [f] } }).arbitrate p)

/-- A frame laid out for the line passes the receive checks and is read back whole (R7, R8, section 12.2): every kind and
every field at every value that the layout admits. -/
def Obligations.FramesReadBackAsLaidOut : Prop :=
  ∀ f : Frame, f.hops ≤ 254 → 1 ≤ f.hopLimit → f.hopLimit ≤ 255 → 1 ≤ f.origin → f.origin ≤ 240 → f.target ≤ 241 →
    f.payload.length ≤ 256 → checkFrame f.wire = .good f

/-- Every command keeps both line ports sound: a DARK port holds nothing, a PROBING port holds and sends own BEATs alone, a
LIT port is within the capacities of R16 with counts of 0..4 that are 0 while the local queue is empty (R22), and a free
transmitter leaves no frame waiting (R1, R2, R4, R5, R16, R20). -/
def Obligations.PortsStaySound : Prop :=
  ∀ s t : State, s.PortsSound → step s = .next t → t.PortsSound

/-! ### The Reach View (chapter 2) -/

/-- At each expiry of the BEAT timer the node offers its BEAT on each port, EAST then WEST, that is LIT or PROBING and holds
no waiting BEAT, with the fields that are fixed at the offer, and the timer starts anew (R27, R28). With the timer stopped
nothing changes. -/
def Obligations.BeatsAreOfferedAtEachExpiry : Prop :=
  ∀ s : State,
    (s.reach.beatTimer = none → exec .beatTimerExpiry s = .next s) ∧
    (s.reach.beatTimer ≠ none →
      let t := (s.offerBeat .east).offerBeat .west
      exec .beatTimerExpiry s =
        .next { t with reach := { s.reach with beatTimer := some ⟨s.refTime, s.cfg.beatInterval * 1000⟩ } }) ∧
    (∀ p : PortId,
      let waits := (s.port p).state = .dark ∨ ∃ f ∈ (s.port p).urgent.own, f.kind = .beat
      (waits → s.offerBeat p = s) ∧
      (¬ waits → s.offerBeat p = s.offer p
        { kind := .beat, hops := 0, hopLimit := 255, origin := s.cfg.number, target := 0,
          payload := [BitVec.ofNat 8 s.cfg.number, if s.cfg.role = .roadside then 1 else 2,
              servicesByte s.cfg.services] ++ bytesBE 2 s.cfg.beatInterval ++ List.replicate 8 0 ++
              bytesBE 2 (s.spool.slots.filter fun e => e.2.filledPos.isSome).length }))

/-- The entry of a node whose age exceeds four times the interval it recorded leaves its part and the other part is not
touched; before that the command changes nothing (R33; that the command names the entry is log entry 1, and that the
age is measured at 25 MHz in LOADING, where R41 has no rate yet, log entry 2). Outside RUNNING
nothing else changes (R39). In RUNNING the loss of a removed TERMINUS entry is reported to Call Control and then the terminus
choice (R38; the order is log entry 11, DESIGN CHOICE), so that the choice last reported is the present one afterwards; where no
terminus is lost and the choice stays, nothing else changes. A report of the choice is made where it differs from the one last
reported, by node or port, and goes to Toll Delivery, which re-steers (R126), and to Call Control (R79). -/
def Obligations.AgedEntriesLeaveTheirPart : Prop :=
  ∀ (s : State) (p : PortId) (n : Nat),
    let hz := if s.cfg.reference = .mhz25 then 25000000 else 19440000
    let aged (e : ReachEntry) : Prop := 4 * e.interval * 1000 * hz < (s.refTime - e.heardAt) * 1000000
    let kept := (s.reach.part p).filter fun e => e.node != n
    let removed : State := { s with reach := s.reach.setPart p kept }
    let termini := ((s.reach.part p).filter fun e => e.node == n && e.role == .terminus).map fun e => e.node
    let t := (termini.foldl State.callsLoss removed).reportChoice
    let r := s.terminusChoice.route
    (s.reportChoice = if r = s.reach.lastReported then s
      else (({ s with reach := { s.reach with lastReported := r } } : State).steerTo r).callsChoice r) ∧
    ((∀ e ∈ s.reach.part p, e.node = n → ¬ aged e) → exec (.reachEntryAgeLimit p n) s = .next s) ∧
    ((∃ e ∈ s.reach.part p, e.node = n) → (∀ e ∈ s.reach.part p, e.node = n → aged e) →
      (s.node ≠ .running → exec (.reachEntryAgeLimit p n) s = .next removed) ∧
      (s.node = .running → (∀ e ∈ s.reach.part p, e.node = n → e.role = .roadside) →
        removed.terminusChoice.route = s.reach.lastReported →
        exec (.reachEntryAgeLimit p n) s = .next removed) ∧
      (s.node = .running → exec (.reachEntryAgeLimit p n) s = .next t ∧ t.reach.part p = kept ∧
        t.reach.part (opposite p) = s.reach.part (opposite p) ∧
        t.reach.lastReported = t.terminusChoice.route ∧
        SameBut [.east, .west, .reach, .calls, .array, .spool, .sending] s t))

/-- A BEAT that meets R29 is accepted with the fields of 12.3. At the table (R31, R32) it refreshes the entry of its sender on
its port, or offers a newcomer, which enters a part that has room, or takes the place of the farthest ROADSIDE entry when it is a
TERMINUS or nearer, and is not kept otherwise. The other part is not touched; entries of other nodes stay as they are. In
RUNNING a changed table reports (R38): a TERMINUS entry refreshed as ROADSIDE is a loss of that terminus to Call Control, and
then the terminus choice is reported to Toll Delivery and Call Control (the order is log entry 11, DESIGN CHOICE). Whether
or not the table kept an entry, RUNNING then hands the BEAT to Line Time's merge with n = hops + 1 (R47); LOADING and SCANNING
do not, and there the part alone may change (R13, R39). -/
def Obligations.AcceptedBeatsRefreshOrOfferAnEntry : Prop :=
  ∀ (s : State) (p : PortId) (f : Frame), f.target = 0 → f.payload.length = 15 → field f.payload 0 1 = f.origin →
    field f.payload 1 1 = 1 ∨ field f.payload 1 1 = 2 → 50 ≤ field f.payload 3 2 → field f.payload 3 2 ≤ 1000 →
    field f.payload 5 1 ≤ 7 → PartSound (s.reach.part p) →
    let b : Beat :=
      { node := f.origin, role := if field f.payload 1 1 = 1 then .roadside else .terminus, interval := field f.payload 3 2
        grade := field f.payload 5 1, ts := BitVec.ofNat 48 (field f.payload 6 6)
        settled := decide (field f.payload 12 1 ≠ 0), backlog := field f.payload 13 2 }
    let t := s.takeBeat p f
    let old := s.reach.part p
    let e : ReachEntry := { node := b.node, hops := f.hops + 1, role := b.role, interval := b.interval,
                            backlog := b.backlog, heardAt := s.refTime }
    let put : State := { s with reach := s.reach.setPart p (t.reach.part p) }
    let demoted := b.role = .roadside ∧ ∃ x ∈ old, x.node = b.node ∧ x.role = .terminus
    let told := (if demoted then put.callsLoss b.node else put).reportChoice
    acceptBeat f = some b ∧
    (s.node = .running →
      (e ∈ t.reach.part p → t = told.merge b (f.hops + 1) ∧ t.reach.lastReported = told.terminusChoice.route) ∧
      (e ∉ t.reach.part p → t = s.merge b (f.hops + 1))) ∧
    (s.node ≠ .running → t = put) ∧
    t.reach.part (opposite p) = s.reach.part (opposite p) ∧ PartSound (t.reach.part p) ∧
    ((∃ x ∈ old, x.node = b.node) → (t.reach.part p).length = old.length ∧
      ∀ x, x ∈ t.reach.part p ↔ x = e ∨ (x ∈ old ∧ x.node ≠ b.node)) ∧
    ((∀ x ∈ old, x.node ≠ b.node) →
      (old.length < 16 → ∀ x, x ∈ t.reach.part p ↔ x = e ∨ x ∈ old) ∧
      (16 ≤ old.length → (∀ x ∈ old, x.role = .terminus) → t.reach.part p = old) ∧
      (16 ≤ old.length → ∀ v ∈ old, v.role = .roadside →
        (∀ x ∈ old, x.role = .roadside → x = v ∨ x.nearer v = true) →
        (b.role = .terminus ∨ e.nearer v = true → ∀ x, x ∈ t.reach.part p ↔ x = e ∨ (x ∈ old ∧ x ≠ v)) ∧
        (¬ (b.role = .terminus ∨ e.nearer v = true) → t.reach.part p = old)))

/-- A rejected BEAT is counted and changes nothing else: wrong target, wrong length, a node number that is not its origin,
an unknown role, an interval outside 50..1000 or a grade above 7 (R29). -/
def Obligations.RejectedBeatsAreOnlyCounted : Prop :=
  ∀ (s : State) (p : PortId) (f : Frame),
    f.target ≠ 0 ∨ f.payload.length ≠ 15 ∨ field f.payload 0 1 ≠ f.origin ∨
      (field f.payload 1 1 ≠ 1 ∧ field f.payload 1 1 ≠ 2) ∨ field f.payload 3 2 < 50 ∨ 1000 < field f.payload 3 2 ∨
      7 < field f.payload 5 1 →
    s.takeBeat p f = { s with reach := { s.reach with badBeat := bump s.reach.badBeat } }

/-- The terminus choice (R35): SELF at a TERMINUS; otherwise NONE where no part holds a TERMINUS entry, and else a TERMINUS
entry with the fewest hops, EAST before WEST, then the lower node number. At a node that is not a TERMINUS it is never SELF.
That a TERMINUS answers SELF in SCANNING too is log entry 25 (DEDUCED). The alternate choice is made in the same order from the
TERMINUS entries of other nodes than the given one, and the terminus presence gives the port that this order prefers among the
given terminus's own entries; both are answered in either role (R36). The node port, in a view that holds each node once on a
port, is that of the node's entry, of its two the one with fewer hops and EAST at equal hops, and without an entry the one LIT
port there is, else NONE (R37); in REPEATER-ONLY it is NONE (R39). A new call's far node and port are those of a terminus
choice that names a terminus (R76). -/
def Obligations.TerminusChoiceIsTheFirstCandidate : Prop :=
  ∀ s : State,
    let first (g : ReachEntry → Prop) (c : TermChoice) : Prop :=
      ((∀ p, ∀ e ∈ s.reach.part p, ¬ g e) → c = .none) ∧
      ((∃ p, ∃ e ∈ s.reach.part p, g e) → ∃ n p h, c = .terminus n p h ∧
        (∃ e ∈ s.reach.part p, g e ∧ e.node = n ∧ e.hops = h) ∧
        (∀ q, ∀ x ∈ s.reach.part q, g x →
          h < x.hops ∨ (h = x.hops ∧ (p = q → n ≤ x.node) ∧ (p ≠ q → p = .east))))
    (s.isTerminus = true → s.terminusChoice = .self) ∧
    (s.isTerminus = false → first (fun e => e.role = .terminus) s.terminusChoice) ∧
    (∀ t : Option Nat, first (fun e => e.role = .terminus ∧ t ≠ some e.node) (s.alternateChoice t)) ∧
    (∀ t : Nat,
      let entry (e : ReachEntry) : Prop := e.role = .terminus ∧ e.node = t
      ((∀ p, ∀ e ∈ s.reach.part p, ¬ entry e) → s.terminusPresence t = none) ∧
      ((∃ p, ∃ e ∈ s.reach.part p, entry e) → ∃ p h, s.terminusPresence t = some p ∧
        (∃ e ∈ s.reach.part p, entry e ∧ e.hops = h) ∧
        (∀ q, ∀ x ∈ s.reach.part q, entry x → h < x.hops ∨ (h = x.hops ∧ (p ≠ q → p = .east))))) ∧
    (∀ t : Nat,
      (s.node = .repeaterOnly → s.nodePort t = none) ∧
      (s.node ≠ .repeaterOnly → s.reach.Sound →
        (∀ a ∈ s.reach.east, ∀ b ∈ s.reach.west, a.node = t → b.node = t →
          s.nodePort t = some (if b.hops < a.hops then .west else .east)) ∧
        (∀ p, (∃ e ∈ s.reach.part p, e.node = t) → (∀ e ∈ s.reach.part (opposite p), e.node ≠ t) →
          s.nodePort t = some p) ∧
        ((∀ p, ∀ e ∈ s.reach.part p, e.node ≠ t) →
          (∀ p, (s.port p).state = .lit → (s.port (opposite p)).state ≠ .lit → s.nodePort t = some p) ∧
          (((s.port .east).state = .lit ↔ (s.port .west).state = .lit) → s.nodePort t = none)))) ∧
    (∀ n p h, s.terminusChoice = .terminus n p h → s.choiceFar = (some n, some p)) ∧
    (s.terminusChoice = .self ∨ s.terminusChoice = .none → s.choiceFar = (none, none))

/-! ### Line Time (chapter 3) -/

/-- Up to the next carry the least number of reference periods passes whose K's bring the accumulator to 2^32, which keeps
the rest (R45); the carry is counted, counted double or withheld by H and the pending carry (R45, R46). Where LT does not
count nothing changes (R41). That LT_CARRY stands for all the periods up to the next carry is log entry 1 (DESIGN CHOICE). -/
def Obligations.CarriesCountOrAreWithheld : Prop :=
  ∀ s : State,
    (s.node ≠ .scanning → s.node ≠ .running → exec .ltCarry s = .next s) ∧
    (∀ k : BitVec 32, s.node = .scanning ∨ s.node = .running → s.time.k = some k → k ≠ 0 →
      ∃ n : Nat, 0 < n ∧ s.time.acc.toNat + (n - 1) * k.toNat < 2 ^ 32 ∧ 2 ^ 32 ≤ s.time.acc.toNat + n * k.toNat ∧
        let t : LineTime := { s.time with acc := BitVec.ofNat 32 (s.time.acc.toNat + n * k.toNat - 2 ^ 32) }
        let next (u : LineTime) : Prop := exec .ltCarry s = .next { s with refTime := s.refTime + n, time := u }
        (t.holdback = 0 → t.carry = false → next { t with lt := t.lt + 1 }) ∧
        (t.holdback = 0 → t.carry = true → next { t with lt := t.lt + 2, carry := false }) ∧
        (0 < t.holdback → t.carry = false → next { t with carry := true }) ∧
        (0 < t.holdback → t.carry = true →
          next { t with lt := t.lt + 1, carry := false, holdback := t.holdback - 1 }))

/-- The merge of a BEAT heard n spans away (R47 to R51): setting in UNSETTLED, a bounded step or a holdback toward a better
source, a bounded step toward an equal one, nothing from a worse one. The grade timer restarts where the rules say so and
stays stopped while the input is locked (R53). -/
def Obligations.MergeByTimeStateAndGrade : Prop :=
  ∀ (s : State) (b : Beat) (n : Nat),
    let e : LTime := b.ts + BitVec.ofNat 48 (n * s.cfg.dhop)
    let d : Int := (e - s.time.lt).toInt
    let ge := b.grade - 1
    let w : Int := s.cfg.window
    let slew := s.cfg.slew
    let anew : Timer := if s.time.lock.isSome then none else some ⟨s.refTime, 8 * s.cfg.beatInterval * 1000⟩
    let settle : LineTime := { s.time with settled := true, grade := ge, gradeTimer := anew }
    let better : LineTime := { s.time with grade := ge, gradeTimer := anew }
    let equal : LineTime := { s.time with gradeTimer := anew }
    let step : LTime := s.time.lt + BitVec.ofNat 48 (min d.toNat slew)
    let next (u : LineTime) : Prop := s.merge b n = { s with time := u }
    (s.time.settled = false →
      (0 < d → next { settle with lt := e }) ∧
      (-w ≤ d → d ≤ 0 → b.settled = true → next settle) ∧
      (d < -w → b.settled = true → next { settle with lt := e }) ∧
      (d ≤ 0 → b.settled = false → next s.time)) ∧
    (s.time.settled = true → s.time.grade < ge →
      (w < d → next { better with lt := step, holdback := 0 }) ∧
      (d < -w → next { better with holdback := min (-d).toNat 10000000,
                                   disputes := if 10000000 < -d then bump s.time.disputes else s.time.disputes }) ∧
      (-w ≤ d → d ≤ w → next { better with holdback := 0 })) ∧
    (s.time.settled = true → ge = s.time.grade →
      (w < d → next { equal with lt := step,
                                 disputes := if (slew : Int) < d then bump s.time.disputes else s.time.disputes }) ∧
      (d ≤ w → next equal)) ∧
    (s.time.settled = true → ge < s.time.grade → next s.time)

/-- The grade timer's expiry lowers the grade by 1 above 0 and restarts the timer, which stays stopped under the lock (R53);
a TIME message in RUNNING at an enabled TERMINUS makes its value pending with a lapse time of 2 s, and its lapse drops it
(R54); the lock's lapse unlocks the input and restarts the grade timer (R56). At a node not enabled a TIME changes nothing
in Line Time; at a ROADSIDE node it is misdirected, and in SCANNING refused as not ready (R192), at a ROADSIDE
node too (log entry 16, DEDUCED). -/
def Obligations.TimersOfLineTime : Prop :=
  ∀ (s : State) (v : LTime),
    let anew : Timer := some ⟨s.refTime, 8 * s.cfg.beatInterval * 1000⟩
    (s.time.gradeTimer ≠ none → exec .gradeTimerExpiry s = .next { s with
      time := { s.time with grade := s.time.grade - 1, gradeTimer := if s.time.lock.isSome then none else anew } }) ∧
    (s.time.gradeTimer = none → exec .gradeTimerExpiry s = .next s) ∧
    (s.node = .running → s.cfg.role = .terminus → s.cfg.timeInput = true → exec (.time v) s = .next { s with
      time := { s.time with value := some v, lapse := some ⟨s.refTime, 2000000⟩ } }) ∧
    (s.node = .running → s.cfg.role = .terminus → s.cfg.timeInput = false → exec (.time v) s = .next s) ∧
    (s.node = .running → s.cfg.role = .roadside → exec (.time v) s = .next { s with
      equip := { s.equip with misdirected := bump s.equip.misdirected } }) ∧
    (s.node = .scanning → exec (.time v) s = .next { s with
      equip := { s.equip with notReady := bump s.equip.notReady } }) ∧
    (s.time.lapse ≠ none → exec .timeValueLapse s = .next { s with
      time := { s.time with value := none, lapse := none } }) ∧
    (s.time.lapse = none → exec .timeValueLapse s = .next s) ∧
    (s.time.lock ≠ none → exec .inputLockLapse s = .next { s with
      time := { s.time with lock := none, gradeTimer := anew } }) ∧
    (s.time.lock = none → exec .inputLockLapse s = .next s)

/-- A pulse at an enabled node in RUNNING: with a value pending and the input unlocked it is accepted, which sets LT forward
or whole, or holds it back, with grade 7 and a lock of 3 s (R55); under the lock it drops the pending value; with none
pending it does nothing (R54, R56). Elsewhere it is ignored. -/
def Obligations.PulsesSetTheTime : Prop :=
  ∀ (s : State),
    let enabled := s.node = .running ∧ s.cfg.role = .terminus ∧ s.cfg.timeInput = true
    let w : Int := s.cfg.window
    let next (u : LineTime) : Prop := exec .timeInputPulse s = .next { s with time := u }
    (¬ enabled → exec .timeInputPulse s = .next s) ∧
    (enabled → s.time.lock ≠ none → next { s.time with value := none, lapse := none }) ∧
    (enabled → s.time.lock = none → s.time.value = none → exec .timeInputPulse s = .next s) ∧
    (∀ v, enabled → s.time.lock = none → s.time.value = some v →
      let d : Int := (v - s.time.lt).toInt
      let taken : LineTime :=
        { s.time with value := none, lapse := none, grade := 7, lock := some ⟨s.refTime, 3000000⟩, gradeTimer := none }
      (s.time.settled = true →
        (w < d → next { taken with lt := v, holdback := 0 }) ∧
        (d < -w → next { taken with
          holdback := min (-d).toNat 10000000
          disputes := if 10000000 < -d then bump s.time.disputes else s.time.disputes }) ∧
        (-w ≤ d → d ≤ w → next { taken with holdback := 0 })) ∧
      (s.time.settled = false →
        (d < -w ∨ w < d → next { taken with settled := true, lt := v }) ∧
        (-w ≤ d → d ≤ w → next { taken with settled := true })))

/-! ### Input Watch (chapter 4) -/

/-- A pin's change of level starts the filter wait when it leaves the filtered level and stops it when it returns, in SCANNING
and RUNNING (R60); in the other node states no wait runs (R61). At a filter wait's end the filtered level takes the pin's, and
the owner of a watched line is told, of POWER-WARN in SCANNING and RUNNING and of the other lines in RUNNING (R60, R62). What
the owners do, POWER-WARN's apart (`TheArrayArbitersOrder`): at a ROADSIDE node with PHONE a hook DEPART with no bound entry
makes a new entry in ASKING with a new reference toward the terminus choice, gives the asking tone, offers the incident alert
on EAST and WEST where the incident zone is not 0, hands its item to Sign Display, and makes the first attempt (R75, R80);
with a RINGING entry it answers the call (R86), and otherwise changes nothing. A hook RETURN frees the bound entry and, unless
it was CLEARED or had no far node, places a release with cause CLEAR (R83). A contact event is applied to the rules in
ascending number (R182 orders the rules of one source; that rules of different masks are taken in ascending number too is log
entry 11, DESIGN CHOICE): each used rule whose mask holds the line works out its group anew, departed when a masked line is
watched and departed, and a change is one evaluation (R65, R66). The entry taken is the lowest free one (log entry 29, DESIGN
CHOICE); that an unused rule keeps its group is log entry 27. -/
def Obligations.FilteredLevelsFollowTheirPins : Prop :=
  ∀ (s : State) (l : LevelLine) (level : Bool),
    let v := s.inputs.line l
    let known := s.node = .scanning ∨ s.node = .running
    let interval : Nat := match l with
      | .hookA => 20000
      | .hookB => 20000
      | .contact _ => 200000
      | .powerWarn => 1000
    let put (u : LevelState) : State := { s with inputs := s.inputs.setLine l u }
    let ended := put { v with filtered := v.pin, wait := none }
    let told := s.watched l = true ∧ (s.node = .running ∨ l = .powerWarn)
    (level = v.pin → exec (.pinChange l level) s = .next s) ∧
    (level ≠ v.pin → ¬ known → exec (.pinChange l level) s = .next (put { v with pin := level })) ∧
    (level ≠ v.pin → known → level ≠ v.filtered →
      exec (.pinChange l level) s = .next (put { v with pin := level, wait := some ⟨s.refTime, interval⟩ })) ∧
    (level ≠ v.pin → known → level = v.filtered →
      exec (.pinChange l level) s = .next (put { v with pin := level, wait := none })) ∧
    (¬ known ∨ v.wait = none → exec (.filterWaitEnd l) s = .next s) ∧
    (known → v.wait ≠ none → v.pin = v.filtered ∨ ¬ told → exec (.filterWaitEnd l) s = .next ended) ∧
    (known → v.wait ≠ none → v.pin ≠ v.filtered → told →
      (∀ i, l = .contact i → exec (.filterWaitEnd l) s = .next (ended.contactEvent i)) ∧
      (v.pin ≠ s.cfg.resting.getLsbD (lineBit l) →
        (l = .hookA → exec (.filterWaitEnd l) s = .next (ended.hookDepart .phoneA)) ∧
        (l = .hookB → exec (.filterWaitEnd l) s = .next (ended.hookDepart .phoneB)) ∧
        (l = .powerWarn → exec (.filterWaitEnd l) s = .next ended.powerDepart)) ∧
      (v.pin = s.cfg.resting.getLsbD (lineBit l) →
        (l = .hookA → exec (.filterWaitEnd l) s = .next (ended.hookReturn .phoneA)) ∧
        (l = .hookB → exec (.filterWaitEnd l) s = .next (ended.hookReturn .phoneB)) ∧
        (l = .powerWarn → exec (.filterWaitEnd l) s = .next ended.powerReturn))) ∧
    (∀ ph : PhoneId,
      let acts := known ∧ s.cfg.role = .roadside ∧ s.cfg.services.phone = true
      let sent (c : CallEntry) (kind : FrameKind) (rest : List Byte) (t : State) : State :=
        match c.far, c.port with
        | some n, some p => t.offer p
            { kind := kind, hops := 0, hopLimit := 255, origin := s.cfg.number, target := n,
              payload := [c.ref.origin, c.ref.num] ++ rest }
        | _, _ => t
      (¬ acts → s.hookDepart ph = s ∧ s.hookReturn ph = s) ∧
      (acts → s.boundCall ph = none → s.hookReturn ph = s ∧ ∀ e, s.freeCallPlace = some e →
        let c : CallEntry :=
          { ref := ⟨BitVec.ofNat 8 s.cfg.number, s.calls.nextRef⟩, near := .phone ph, callersPort := none,
            far := s.choiceFar.1, port := s.choiceFar.2, state := .asking, attempts := 1, resume := false, outSeq := 0,
            playout := Playout.initial, attemptTimer := some ⟨s.refTime, 1000000⟩, silenceTimer := none,
            keepTimer := none, ringTimer := none, conceal := 0, slow := false, busyWait := false, position := 0 }
        let asked := ({ s with calls := { s.calls with nextRef := s.calls.nextRef + 1 } }.setCall e
          (some { c with attempts := 0, attemptTimer := none })).earpiece ph (some .asking)
        let item : AlertItem := { kind := 15, severity := 3, lifetime := s.cfg.incidentHold, withdraw := false }
        let walr : Frame :=
          { kind := .walr, hops := 0, hopLimit := s.cfg.incidentZone, origin := s.cfg.number, target := 0,
            payload := [1, 15, 3] ++ bytesBE 4 s.cfg.incidentHold ++ [0] }
        let alerted :=
          if s.cfg.incidentZone = 0 then asked
          else ((asked.offer .east walr).offer .west walr).alertItem s.cfg.number item
        s.hookDepart ph = sent c .creq [1, if ph = .phoneA then 1 else 2, 1] (alerted.setCall e (some c))) ∧
      (acts → ∀ e c, s.boundCall ph = some e → s.call e = some c → c.near = .phone ph →
        let talking : CallEntry :=
          { c with state := .talking, resume := false, slow := false, busyWait := false, attemptTimer := none,
                   silenceTimer := some ⟨s.refTime, 1000000⟩, keepTimer := none, ringTimer := none,
                   playout := Playout.initial }
        let freed := ((s.setCall e none).earpiece ph none).stopRing ph
        (c.state ≠ .ringing → s.hookDepart ph = s) ∧
        (c.state = .ringing → s.hookDepart ph =
          sent c .cacc [1, 0] (((s.stopRing ph).setCall e (some talking)).earpiece ph none)) ∧
        (c.state = .cleared ∨ c.far = none → s.hookReturn ph = freed) ∧
        (∀ n, c.state ≠ .cleared → c.far = some n → s.hookReturn ph = freed.placeRelease c.ref n c.port .clear))) ∧
    (∀ i : Fin 6,
      let applied (t : State) (n : Fin 8) : State :=
        match (s.rule n).source with
        | .contacts mask =>
          let g := ([0, 1, 2, 3, 4, 5] : List (Fin 6)).any fun j => mask.getLsbD j && s.watched (.contact j) &&
            (s.inputs.line (.contact j)).filtered != s.cfg.resting.getLsbD (2 + j)
          let w := t.weather.rules[n]
          if (s.rule n).kind = 0 ∨ mask.getLsbD i = false ∨ g = w.group then t
          else (t.setRule n { w with group := g }).evaluate n g (!g)
        | _ => t
      s.contactEvent i =
        if s.node = .running ∧ s.cfg.services.weather = true then
          ([0, 1, 2, 3, 4, 5, 6, 7] : List (Fin 8)).foldl applied s
        else s)

/-- A rising edge counts in RUNNING when no edge was counted or 2 ms have passed since the last counted one (R67). At a
window's end the count becomes the history's newest entry of at most 16, the count is 0 and the window restarts (R68); at a
RUNNING node with WEATHER the channel's value is then the scaled mean of its newest counts, at most 65,535, with saturations
counted, and the used rules whose source is the channel are evaluated with it, in ascending rule number, each whole (R177,
R181, R182). Nothing but the inputs, the weather, the display, the ports and the outbound queue may change. -/
def Obligations.PulsesAreCountedInWindows : Prop :=
  ∀ (s : State) (ch : PulseId),
    let v := pulseGet s.inputs.pulses ch
    let put (u : PulseState) : State := { s with inputs := { s.inputs with pulses := pulseSet s.inputs.pulses ch u } }
    let spaced := ∀ e, v.lastEdge = some e → 2000 ≤ (s.refTime - e) * 1000000 / referenceHz s.cfg.reference
    let history := (v.count :: v.history).take 16
    let ended := put { v with history := history, count := 0,
                              window := some ⟨s.refTime, pulseGet s.cfg.pulseWindow ch * 1000000⟩ }
    let m := min (pulseGet s.cfg.depth ch) history.length
    let value := (history.take m).sum * pulseGet s.cfg.scale ch / (m * 256)
    let given : Int := ((min value 65535 : Nat) : Int)
    let stored : State := { ended with weather := { s.weather with
      values := pulseSet s.weather.values ch (some (min value 65535))
      saturations := if 65535 < value then
          pulseSet s.weather.saturations ch (bump (pulseGet s.weather.saturations ch))
        else s.weather.saturations } }
    let judged (t : State) (n : Fin 8) : State :=
      let r := s.rule n
      let raises := if r.sense = .above then decide (r.raiseAt ≤ given) else decide (given ≤ r.raiseAt)
      let clears := if r.sense = .above then decide (given < r.clearAt) else decide (r.clearAt < given)
      if r.kind ≠ 0 ∧ r.source = (match ch with
          | .wind => .wind
          | .rain => .rain) then t.evaluate n raises clears
      else t
    let done := ([0, 1, 2, 3, 4, 5, 6, 7] : List (Fin 8)).foldl judged stored
    (s.node = .running → spaced →
      exec (.pulseEdge ch) s = .next (put { v with count := v.count + 1, lastEdge := some s.refTime })) ∧
    (s.node ≠ .running ∨ ¬ spaced → exec (.pulseEdge ch) s = .next s) ∧
    (v.window = none → exec (.pulseWindowEnd ch) s = .next s) ∧
    (v.window ≠ none → s.node ≠ .running ∨ s.cfg.services.weather = false →
      exec (.pulseWindowEnd ch) s = .next ended) ∧
    (v.window ≠ none → s.node = .running → s.cfg.services.weather = true →
      exec (.pulseWindowEnd ch) s = .next done ∧ done.inputs = ended.inputs ∧
        done.weather.values = stored.weather.values ∧ done.weather.saturations = stored.weather.saturations ∧
        SameBut [.inputs, .weather, .display, .east, .west, .equip] s done)

/-! ### Emergency calls (chapter 5) -/

/-- An attempt timer's expiry in ASKING or RESUMING makes the next attempt (R76, R77, R81): the far node stays while its
terminus is in view and takes the terminus choice otherwise, the attempt count rises, the timer starts for 1 s, or 5 s in the
slow phase, and with a far node and a port one CREQ is offered. At the fifth attempt the alternate choice is taken, or the
slow phase entered with the fault tone; at the tenth the slow phase is entered, and above it the slow phase goes on. That the
wait after a BUSY ends with the next expiry, which starts the timer for 1 s again, is log entry 20 (DEDUCED). -/
def Obligations.AttemptsGoOnAtEachExpiry : Prop :=
  ∀ (s : State) (e : Fin 8) (c : CallEntry), s.call e = some c →
    let offered (d : CallEntry) (t : State) : State :=
      match d.far, d.port with
      | some n, some p => t.offer p
          { kind := .creq, hops := 0, hopLimit := 255, origin := s.cfg.number, target := n,
            payload := [c.ref.origin, c.ref.num, if c.state = .resuming then 2 else 1,
                match c.near with
                  | .phone .phoneA => 1
                  | .phone .phoneB => 2
                  | .console => 0,
                BitVec.ofNat 8 d.attempts] }
      | _, _ => t
    let raised (d : CallEntry) (us : Nat) : CallEntry :=
      { d with busyWait := false, attempts := min 255 (c.attempts + 1), attemptTimer := some ⟨s.refTime, us⟩ }
    let settled : CallEntry :=
      match c.far.bind s.terminusPresence with
      | some p => { c with port := some p }
      | none => { c with far := s.choiceFar.1, port := s.choiceFar.2 }
    let attempted (t : State) (d : CallEntry) : State := offered d (t.setCall e (some d))
    let faultTone : State :=
      match c.near with
      | .phone ph => s.earpiece ph (some .fault)
      | .console => s
    (c.attemptTimer = none ∨ (c.state ≠ .asking ∧ c.state ≠ .resuming) →
      exec (.attemptTimerExpiry e) s = .next s) ∧
    (c.attemptTimer ≠ none → c.state = .resuming ∨ (c.state = .asking ∧ c.attempts ≠ 5 ∧ c.attempts < 10) →
      exec (.attemptTimerExpiry e) s =
        .next (attempted s (raised settled (if c.slow then 5000000 else 1000000)))) ∧
    (c.attemptTimer ≠ none → c.state = .asking → c.attempts = 5 → ∀ n p h, s.alternateChoice c.far = .terminus n p h →
      exec (.attemptTimerExpiry e) s =
        .next (attempted s (raised { c with far := some n, port := some p } (if c.slow then 5000000 else 1000000)))) ∧
    (c.attemptTimer ≠ none → c.state = .asking →
      (c.attempts = 5 ∧ s.alternateChoice c.far = .none) ∨ 10 ≤ c.attempts →
      exec (.attemptTimerExpiry e) s = .next (attempted faultTone (raised { settled with slow := true } 5000000)))

/-- The other timers of a roadside entry: the silence timer of TALKING keeps the call while its terminus is in view and
otherwise resumes it with the fault tone and an attempt (R81); the keep timer of WAITING repeats the ASK (R82); the ring timer
of RINGING frees the entry (R86). A timer that does not run, or an entry in another state, changes nothing. A terminus loss
and a choice change are applied to each entry (R79), in ascending place of the table (R79 gives no order: log entry 11, DESIGN
CHOICE): a loss gives an entry in ASKING or RESUMING with that far node the terminus choice anew, sends one in WAITING to
RESUMING, and leaves any other; a choice gives an entry in ASKING or RESUMING without a far node the new terminus and an
attempt, which in ASKING with the count at 10 or above is one of the slow phase (R77; log entry 20, DEDUCED). That leaving
TALKING or WAITING stops the play timer and ends the wait after a BUSY is log entry 20. -/
def Obligations.TimersOfARoadsideEntry : Prop :=
  ∀ (s : State) (e : Fin 8) (c : CallEntry) (ph : PhoneId), s.call e = some c → c.near = .phone ph →
    let code : Byte := match ph with
      | .phoneA => 1
      | .phoneB => 2
    let creq (d : CallEntry) (request : Byte) (t : State) : State :=
      match d.far, d.port with
      | some n, some p => t.offer p
          { kind := .creq, hops := 0, hopLimit := 255, origin := s.cfg.number, target := n,
            payload := [c.ref.origin, c.ref.num, request, code, BitVec.ofNat 8 d.attempts] }
      | _, _ => t
    let resumed : CallEntry :=
      { c with far := s.choiceFar.1, port := s.choiceFar.2, state := .resuming, resume := true, attempts := 1,
               slow := false, busyWait := false, attemptTimer := some ⟨s.refTime, 1000000⟩, silenceTimer := none,
               keepTimer := none, ringTimer := none, playout := { c.playout with timer := none } }
    let kept : CallEntry := { c with keepTimer := some ⟨s.refTime, 5000000⟩ }
    (c.silenceTimer = none ∨ c.state ≠ .talking → exec (.roadsideSilenceTimerExpiry e) s = .next s) ∧
    (c.silenceTimer ≠ none → c.state = .talking →
      (∀ p, c.far.bind s.terminusPresence = some p → exec (.roadsideSilenceTimerExpiry e) s =
        .next (s.setCall e (some { c with port := some p, silenceTimer := some ⟨s.refTime, 1000000⟩ }))) ∧
      (c.far.bind s.terminusPresence = none →
        exec (.roadsideSilenceTimerExpiry e) s =
          .next (creq resumed 2 ((s.earpiece ph (some .fault)).setCall e (some resumed))))) ∧
    (c.keepTimer = none ∨ c.state ≠ .waiting → exec (.roadsideKeepTimerExpiry e) s = .next s) ∧
    (c.keepTimer ≠ none → c.state = .waiting →
      exec (.roadsideKeepTimerExpiry e) s = .next (creq kept 1 (s.setCall e (some kept)))) ∧
    (c.ringTimer = none ∨ c.state ≠ .ringing → exec (.roadsideRingTimerExpiry e) s = .next s) ∧
    (c.ringTimer ≠ none → c.state = .ringing →
      exec (.roadsideRingTimerExpiry e) s = .next (((s.setCall e none).earpiece ph none).stopRing ph)) ∧
    (∀ n, s.callsLoss n = ([0, 1, 2, 3, 4, 5, 6, 7] : List (Fin 8)).foldl (State.lossForCall n) s) ∧
    (∀ n p, s.callsChoice (.via n p) = ([0, 1, 2, 3, 4, 5, 6, 7] : List (Fin 8)).foldl (State.choiceForCall n p) s) ∧
    s.callsChoice .self = s ∧ s.callsChoice .none = s ∧
    (∀ n, c.far = some n →
      (c.state = .asking ∨ c.state = .resuming →
        State.lossForCall n s e = s.setCall e (some { c with far := s.choiceFar.1, port := s.choiceFar.2 })) ∧
      (c.state = .waiting →
        State.lossForCall n s e = creq resumed 2 ((s.earpiece ph (some .fault)).setCall e (some resumed))) ∧
      (c.state ≠ .asking → c.state ≠ .resuming → c.state ≠ .waiting → State.lossForCall n s e = s)) ∧
    (∀ n, c.far ≠ some n → State.lossForCall n s e = s) ∧
    (∀ n p, s.terminusPresence n = some p →
      let seeking := c.state = .asking ∨ c.state = .resuming
      let d : CallEntry :=
        { c with far := some n, port := some p, attempts := min 255 (c.attempts + 1),
                 attemptTimer := some ⟨s.refTime, if c.slow ∨ c.busyWait then 5000000 else 1000000⟩ }
      let late := c.state = .asking ∧ 10 ≤ c.attempts
      let slow : CallEntry := { d with slow := true, attemptTimer := some ⟨s.refTime, 5000000⟩ }
      (late → c.far = none →
        State.choiceForCall n p s e = creq slow 1 ((s.earpiece ph (some .fault)).setCall e (some slow))) ∧
      (seeking → ¬ late → c.far = none →
        State.choiceForCall n p s e = creq d (if c.state = .resuming then 2 else 1) (s.setCall e (some d))) ∧
      (¬ seeking ∨ c.far ≠ none → State.choiceForCall n p s e = s))

/-- The timers of a terminus's entry: a CONNECTED call silent for its timer is released with cause TIMEOUT and reported lost
(R89); a QUEUED entry not renewed is dropped with CALL-LOST and no release (R88); a ring-out not answered is released with
cause NO-ANSWER and reported lost (R91), each channel freed going to the head of the wait order; a ring-out is sent again each
second (R90), with the attempt count raised (log entry 20, DEDUCED). A timer that does not run, or an entry in another state,
changes nothing. A free channel goes to the head of the wait order (`promote`, R89): it leaves the order, is CONNECTED with a
reset playout and a silence timer of 10 s, its caller is sent ACCEPT and the centre CALL-IN; with no channel free or nobody
waiting nothing changes. That CALL-IN carries the far node as origin node is log entry 20, and a set RESUME flag as 1 log
entry 6 (both DEDUCED). -/
def Obligations.TimersOfATerminusEntry : Prop :=
  ∀ (s : State) (e : Fin 8) (c : CallEntry) (n : Nat), s.call e = some c → c.far = some n →
    let lost (cause : Byte) : CabMsg :=
      ⟨0x8B, [c.ref.origin, c.ref.num, BitVec.ofNat 8 n, cause] ++ bytesBE 2 c.conceal.toNat⟩
    let freed (t : State) (cause : Byte) : State := ((t.setCall e none).leaveWait e).callMessage (lost cause)
    let rung : CallEntry :=
      { c with attempts := min 255 (c.attempts + 1), attemptTimer := some ⟨s.refTime, 1000000⟩ }
    let phone : Byte := match c.callersPort with
      | none => 0
      | some .phoneA => 1
      | some .phoneB => 2
    let connected : CallEntry :=
      { c with state := .connected, attemptTimer := none, silenceTimer := some ⟨s.refTime, 10000000⟩,
               keepTimer := none, ringTimer := none, playout := Playout.initial }
    (c.silenceTimer = none ∨ c.state ≠ .connected → exec (.terminusSilenceTimerExpiry e) s = .next s) ∧
    (c.silenceTimer ≠ none → c.state = .connected →
      exec (.terminusSilenceTimerExpiry e) s = .next (freed (s.placeRelease c.ref n c.port .timeout) 1).promote) ∧
    (c.keepTimer = none ∨ c.state ≠ .queued → exec (.queuedKeepTimerExpiry e) s = .next s) ∧
    (c.keepTimer ≠ none → c.state = .queued → exec (.queuedKeepTimerExpiry e) s = .next (freed s 1)) ∧
    (c.ringTimer = none ∨ c.state ≠ .calling → exec (.callingRingTimerExpiry e) s = .next s) ∧
    (c.ringTimer ≠ none → c.state = .calling →
      exec (.callingRingTimerExpiry e) s = .next (freed (s.placeRelease c.ref n c.port .noAnswer) 2).promote) ∧
    (c.attemptTimer = none ∨ c.state ≠ .calling → exec (.ringOutAttemptTimerExpiry e) s = .next s) ∧
    (c.attemptTimer ≠ none → c.state = .calling → ∀ p, c.port = some p →
      exec (.ringOutAttemptTimerExpiry e) s = .next ((s.setCall e (some rung)).offer p
        { kind := .creq, hops := 0, hopLimit := 255, origin := s.cfg.number, target := n,
          payload := [c.ref.origin, c.ref.num, 3, phone, BitVec.ofNat 8 rung.attempts] })) ∧
    (s.calls.waitOrder = [] ∨ s.cfg.consoleChannels ≤ s.channelsHeld → s.promote = s) ∧
    (∀ rest, s.calls.waitOrder = e :: rest → e ∉ rest → s.channelsHeld < s.cfg.consoleChannels →
      let left : State := { s with calls := { s.calls with waitOrder := rest } }
      let answered : State :=
        match c.port with
        | some p => (left.setCall e (some connected)).offer p
            { kind := .cacc, hops := 0, hopLimit := 255, origin := s.cfg.number, target := n,
              payload := [c.ref.origin, c.ref.num, 1, 0] }
        | none => left.setCall e (some connected)
      s.promote = answered.callMessage
        ⟨0x89, [c.ref.origin, c.ref.num, BitVec.ofNat 8 n, phone, if c.resume then 1 else 0]⟩)

/-- A release sends one CREL when it is placed and one at each 100 ms, and leaves the list after the third; a full list of 8
loses its oldest (R83). -/
def Obligations.ReleasesSendThreeCrels : Prop :=
  ∀ (s : State) (r : Release) (p : PortId), r.port = some p →
    let code : Byte := match r.cause with
      | .clear => 1
      | .hangup => 2
      | .timeout => 3
      | .noAnswer => 4
    let crel (t : State) : State := t.offer p
      { kind := .crel, hops := 0, hopLimit := 255, origin := s.cfg.number, target := r.far,
        payload := [r.ref.origin, r.ref.num, code] }
    let withList (l : List Release) : State := { s with calls := { s.calls with releases := l } }
    (∀ l, s.calls.releases = l → s.placeRelease r.ref r.far r.port r.cause =
      crel (withList ((if l.length < 8 then l else l.tail) ++
        [{ r with left := 2, timer := some ⟨s.refTime, 100000⟩ }]))) ∧
    (∀ i : Fin 8, ∀ older newer, s.calls.releases = older ++ r :: newer → older.length = i →
      (r.timer = none → exec (.releaseTimerExpiry i) s = .next s) ∧
      (r.timer ≠ none → r.left = 2 → exec (.releaseTimerExpiry i) s =
        .next (crel (withList (older ++ { r with left := 1, timer := some ⟨s.refTime, 100000⟩ } :: newer)))) ∧
      (r.timer ≠ none → r.left = 1 → exec (.releaseTimerExpiry i) s = .next (crel (withList (older ++ newer)))))

/-- The four cases of a play timer's expiry (R95) and where the samples go (R96): to the earpiece of the entry's phone port
while no tone is given, or as CONSOLE-VOICE to the outbound queue while it has room and the pending list is empty, and a
console drop otherwise. The samples of silence are those of the free value of log entry 5. A frame that arrives (R94): not later
than the last played position, or of a sequence the buffer holds, it is counted as voice-late, and with 8 frames held as
voice-overflow; otherwise it is inserted in its order, and the third frame held by a playout not yet started starts it with the
earliest (R95). Where sequences lie half the range or more apart, its place is before the first held frame that is later (log
entry 31, DESIGN CHOICE). -/
def Obligations.PlayoutMovesOnByOnePosition : Prop :=
  ∀ (s : State) (e : Fin 8) (c : CallEntry) (lastSeq : BitVec 16), s.call e = some c →
    (∀ v : VoiceFrame,
      let q := c.playout
      let after (a b : BitVec 16) : Prop := 0 < (a - b).toInt
      let late := ∃ l, q.lastPlayed = some l ∧ ¬ after v.seq l
      let held := ∃ x ∈ q.frames, x.seq = v.seq
      let t := s.playoutArrival e c v
      (late ∨ held → t = { s with calls := { s.calls with voiceLate := bump s.calls.voiceLate } }) ∧
      (¬ late → ¬ held → 8 ≤ q.frames.length →
        t = { s with calls := { s.calls with voiceOverflow := bump s.calls.voiceOverflow } }) ∧
      (∀ earlier later, ¬ late → ¬ held → q.frames.length < 8 → q.frames = earlier ++ later →
        (∀ x ∈ earlier, ¬ after x.seq v.seq) → (∀ x ∈ later.head?, after x.seq v.seq) →
        let frames := earlier ++ v :: later
        let put (d : CallEntry) : State := s.setCall e (some d)
        (q.started = true ∨ frames.length < 3 → t = put { c with playout := { q with frames := frames } }) ∧
        (∀ f rest, q.started = false → frames = f :: rest → 3 ≤ frames.length →
          let d : CallEntry :=
            { c with playout := { frames := rest, lastPlayed := some f.seq, started := true, repeats := 0,
                                  lastReal := some f.samples, timer := some ⟨s.refTime, 5000⟩ } }
          t = (put d).emitVoice d f.samples))) ∧
    (c.playout.timer = none ∨ (c.state ≠ .talking ∧ c.state ≠ .connected) →
      exec (.playTimerExpiry e) s = .next s) ∧
    (c.playout.timer ≠ none → c.state = .talking ∨ c.state = .connected → c.playout.lastPlayed = some lastSeq →
      let anew : Timer := some ⟨s.refTime, 5000⟩
      let expected := lastSeq + 1
      let silence : List Byte := List.replicate 40 Config.silenceSample
      let produced (d : CallEntry) (samples : List Byte) (t : State) : Prop :=
        (∀ ph, c.near = .phone ph → (s.calls.phone ph).tone = none → t =
          let u := s.setCall e (some d)
          { u with calls := u.calls.setPhone ph { s.calls.phone ph with played := samples } }) ∧
        (∀ ph, c.near = .phone ph → (s.calls.phone ph).tone ≠ none → t = s.setCall e (some d)) ∧
        (c.near = .console → s.equip.outbound.length < 32 → s.calls.pendingMsgs = [] → t =
          { s.setCall e (some d) with
              equip := { s.equip with outbound := s.equip.outbound ++
                [⟨0x8E, [c.ref.origin, c.ref.num] ++ samples⟩] } }) ∧
        (c.near = .console → 32 ≤ s.equip.outbound.length ∨ s.calls.pendingMsgs ≠ [] → t =
          let u := s.setCall e (some d)
          { u with calls := { u.calls with consoleDrop := bump s.calls.consoleDrop } })
      let playedOn (f : VoiceFrame) (rest : List VoiceFrame) : Playout :=
        { frames := rest, lastPlayed := some f.seq, started := true, repeats := 0, lastReal := some f.samples,
          timer := anew }
      ∃ t, exec (.playTimerExpiry e) s = .next t ∧
        (∀ f rest, c.playout.frames = f :: rest → f.seq = expected →
          produced { c with playout := playedOn f rest } f.samples t) ∧
        (∀ f rest, c.playout.frames = f :: rest → f.seq ≠ expected → 2 ≤ rest.length →
          produced { c with playout := playedOn f rest, conceal := bump c.conceal } f.samples t) ∧
        ((∀ f ∈ c.playout.frames.head?, f.seq ≠ expected) → c.playout.frames.length < 3 → c.playout.repeats < 2 →
          produced { c with playout := { c.playout with lastPlayed := some expected, repeats := c.playout.repeats + 1,
                                                        timer := anew },
                            conceal := bump c.conceal } (c.playout.lastReal.getD silence) t) ∧
        ((∀ f ∈ c.playout.frames.head?, f.seq ≠ expected) → c.playout.frames.length < 3 → 2 ≤ c.playout.repeats →
          produced { c with playout := { c.playout with lastPlayed := some expected, timer := anew },
                            conceal := bump c.conceal } silence t))

/-- Forty samples of a TALKING entry's phone, or of a CONSOLE-VOICE naming a CONNECTED entry at a TERMINUS, become one VOIC
with the entry's out sequence, which then rises by 1 whatever the offer's answer; samples for no such entry are discarded
(R93). A CONSOLE-VOICE is misdirected at a ROADSIDE node in RUNNING and not ready in SCANNING (R192); one of other than 40
samples is a bad message in both, which the layout of 12.4 cannot carry, and in SCANNING every good one counts as not ready (both
log entry 16, DEDUCED); before SCANNING the port receives nothing (R190). -/
def Obligations.VoiceIsSentInSequence : Prop :=
  (∀ (s : State) (e : Fin 8) (c : CallEntry) (n : Nat) (p : PortId) (samples : List Byte),
    s.node = .running → s.call e = some c → c.far = some n → c.port = some p → samples.length = 40 →
    let sent : State := (s.setCall e (some { c with outSeq := c.outSeq + 1 })).offer p
      { kind := .voic, hops := 0, hopLimit := 255, origin := s.cfg.number, target := n,
        payload := [c.ref.origin, c.ref.num] ++ bytesBE 2 c.outSeq.toNat ++ samples }
    (∀ ph, s.boundCall ph = some e →
      (c.state = .talking → exec (.voiceSamplesComplete ph samples) s = .next sent) ∧
      (c.state ≠ .talking → exec (.voiceSamplesComplete ph samples) s = .next s)) ∧
    (∀ ph, s.boundCall ph = none → exec (.voiceSamplesComplete ph samples) s = .next s) ∧
    (s.cfg.role = .terminus → c.state = .connected → (∀ f d, s.call f = some d → d.ref = c.ref → f = e) →
      exec (.consoleVoice c.ref samples) s = .next sent) ∧
    (∀ r, s.cfg.role = .terminus → (∀ f d, s.call f = some d → d.ref = r → d.state ≠ .connected) →
      exec (.consoleVoice r samples) s = .next s)) ∧
  (∀ (s : State) (r : CallRef) (samples : List Byte),
    let run := exec (.consoleVoice r samples) s
    let counted (e : Equip) : State := { s with equip := e }
    (s.node = .running → s.cfg.role = .roadside → samples.length = 40 →
      run = .next (counted { s.equip with misdirected := bump s.equip.misdirected })) ∧
    (s.node = .scanning → samples.length = 40 →
      run = .next (counted { s.equip with notReady := bump s.equip.notReady })) ∧
    (s.node = .running ∨ s.node = .scanning → samples.length ≠ 40 →
      run = .next (counted { s.equip with badMessage := bump s.equip.badMessage })) ∧
    (s.node ≠ .running → s.node ≠ .scanning → run = .next s))

/-- A period of a tone's cadence ends and the next begins, in the order on, off (R97); the ring output goes through 1 s
active and 2 s inactive (R98). With no tone or no ringing nothing changes. A tone that is given (`earpiece`) begins at its first
on period, the clear tone is continuous, and without a tone no cadence runs; one that is given again goes on (log entry 20,
DEDUCED). Ringing begins with 1 s active and ends at once (`startRing`, `stopRing`). -/
def Obligations.CadencesStepThroughTheirPeriods : Prop :=
  ∀ (s : State) (ph : PhoneId),
    let q := s.calls.phone ph
    let put (u : PhonePort) : State := { s with calls := s.calls.setPhone ph u }
    let stepTo (n us : Nat) : Prop :=
      exec (.toneCadenceStep ph) s = .next (put { q with tonePeriod := n, toneTimer := some ⟨s.refTime, us⟩ })
    (∀ t, q.tone = t → s.earpiece ph t = put { q with played := [] }) ∧
    (∀ t, q.tone ≠ t → s.earpiece ph t = put { q with
      tone := t
      tonePeriod := 0
      toneTimer := (match t with
        | some .asking => some ⟨s.refTime, 1000000⟩
        | some .waiting => some ⟨s.refTime, 200000⟩
        | some .fault => some ⟨s.refTime, 250000⟩
        | some .clear => none
        | none => none)
      played := [] }) ∧
    s.startRing ph = put { q with ring := true, ringTimer := some ⟨s.refTime, 1000000⟩ } ∧
    s.stopRing ph = put { q with ring := false, ringTimer := none } ∧
    (q.tone = none ∨ q.toneTimer = none → exec (.toneCadenceStep ph) s = .next s) ∧
    (q.toneTimer ≠ none →
      (q.tone = some .asking → (q.tonePeriod = 0 → stepTo 1 3000000) ∧ (q.tonePeriod = 1 → stepTo 0 1000000)) ∧
      (q.tone = some .waiting → (q.tonePeriod = 0 → stepTo 1 200000) ∧ (q.tonePeriod = 1 → stepTo 2 200000) ∧
        (q.tonePeriod = 2 → stepTo 3 3400000) ∧ (q.tonePeriod = 3 → stepTo 0 200000)) ∧
      (q.tone = some .fault → (q.tonePeriod = 0 → stepTo 1 250000) ∧ (q.tonePeriod = 1 → stepTo 0 250000))) ∧
    (q.ringTimer = none → exec (.ringCadenceStep ph) s = .next s) ∧
    (q.ringTimer ≠ none → q.ring = true →
      exec (.ringCadenceStep ph) s = .next (put { q with ring := false, ringTimer := some ⟨s.refTime, 2000000⟩ })) ∧
    (q.ringTimer ≠ none → q.ring = false →
      exec (.ringCadenceStep ph) s = .next (put { q with ring := true, ringTimer := some ⟨s.refTime, 1000000⟩ }))

/-- The centre's RING-OUT and HANGUP at a TERMINUS in RUNNING, and the pending list (R89 to R92). A RING-OUT is refused with
CALL-BUSY without PHONE, without a free channel or with a full table, and with CALL-LOST NO-ROUTE without a node port;
otherwise a CALLING entry is made, its reference reported in CALL-WAIT and the CREQ RING sent, with attempt count 1 (log entry
20, DEDUCED). The entry is the lowest free one, and a HANGUP's that of the lowest place that holds the reference (log entry
29, DESIGN CHOICE). A HANGUP releases the entry with cause HANGUP and places CALL-END. A message for the centre
(`callMessage`) goes to the tail of the outbound queue while that has room and the pending list is empty, else to the pending
list of at most 16, and else is dropped and counted. The pending list's head goes to the outbound queue when it has room. A
phone port neither 1 nor 2 is a bad message in SCANNING and RUNNING (R191); a good RING-OUT or HANGUP is misdirected at a
RUNNING ROADSIDE node and refused as not ready in SCANNING, in any role (R192, log entry 16); in the other node states nothing
is received. A RING-OUT to a node outside 1..240 is treated as any other (log entry 16), and the CALL-LOST of NO-ROUTE carries
a count of 0 (log entry 6). -/
def Obligations.TheCentreRingsAndHangsUp : Prop :=
  ∀ (s : State) (node phone : Byte) (ref : CallRef),
    let busy := s.callMessage ⟨0x8D, [0, 0, node, phone]⟩
    let full := s.freeCallPlace = none
    (s.node = .running → s.cfg.role = .terminus → phone = 1 ∨ phone = 2 →
      (s.cfg.services.phone = false ∨ s.cfg.consoleChannels ≤ s.channelsHeld ∨ full →
        exec (.ringOut node phone) s = .next busy) ∧
      (s.cfg.services.phone = true → s.channelsHeld < s.cfg.consoleChannels → ¬ full →
        s.nodePort node.toNat = none →
        exec (.ringOut node phone) s = .next (s.callMessage ⟨0x8B, [0, 0, node, 3, 0, 0]⟩)) ∧
      (∀ e p, s.cfg.services.phone = true → s.channelsHeld < s.cfg.consoleChannels → s.freeCallPlace = some e →
        s.nodePort node.toNat = some p →
        let r : CallRef := ⟨BitVec.ofNat 8 s.cfg.number, s.calls.nextRef⟩
        let c : CallEntry :=
          { ref := r, near := .console, callersPort := some (if phone = 1 then .phoneA else .phoneB),
            far := some node.toNat, port := some p, state := .calling, attempts := 1, resume := false, outSeq := 0,
            playout := Playout.initial, attemptTimer := some ⟨s.refTime, 1000000⟩, silenceTimer := none,
            keepTimer := none, ringTimer := some ⟨s.refTime, 60000000⟩, conceal := 0, slow := false,
            busyWait := false, position := 0 }
        let t := { s with calls := { s.calls with nextRef := s.calls.nextRef + 1 } }.callMessage
          ⟨0x8A, [r.origin, r.num, 0, 0]⟩
        exec (.ringOut node phone) s = .next ((t.setCall e (some c)).offer p
          { kind := .creq, hops := 0, hopLimit := 255, origin := s.cfg.number, target := node.toNat,
            payload := [r.origin, r.num, 3, phone, 1] }))) ∧
    (let good := phone = 1 ∨ phone = 2
     let ring := exec (.ringOut node phone) s
     let hang := exec (.hangup ref) s
     let misdirected : State := { s with equip := { s.equip with misdirected := bump s.equip.misdirected } }
     let notReady : State := { s with equip := { s.equip with notReady := bump s.equip.notReady } }
     (s.node = .running ∨ s.node = .scanning → ¬ good →
       ring = .next { s with equip := { s.equip with badMessage := bump s.equip.badMessage } }) ∧
     (s.node = .running → s.cfg.role = .roadside → (good → ring = .next misdirected) ∧ hang = .next misdirected) ∧
     (s.node = .scanning → (good → ring = .next notReady) ∧ hang = .next notReady) ∧
     (s.node ≠ .running → s.node ≠ .scanning → ring = .next s ∧ hang = .next s)) ∧
    (s.node = .running → s.cfg.role = .terminus → s.callByRef ref = none → exec (.hangup ref) s = .next s) ∧
    (∀ e c n, s.node = .running → s.cfg.role = .terminus → s.callByRef ref = some e → s.call e = some c →
      c.far = some n →
      let freed := (((s.placeRelease c.ref n c.port .hangup).setCall e none).leaveWait e).callMessage
        ⟨0x8C, [c.ref.origin, c.ref.num, 2] ++ bytesBE 2 c.conceal.toNat⟩
      (c.state = .connected ∨ c.state = .calling → exec (.hangup ref) s = .next freed.promote) ∧
      (c.state = .queued → exec (.hangup ref) s = .next freed)) ∧
    (∀ m : CabMsg,
      (s.calls.pendingMsgs = [] → s.equip.outbound.length < 32 → s.callMessage m =
        { s with equip := { s.equip with outbound := s.equip.outbound ++ [m] } }) ∧
      (s.calls.pendingMsgs ≠ [] ∨ 32 ≤ s.equip.outbound.length → s.calls.pendingMsgs.length < 16 → s.callMessage m =
        { s with calls := { s.calls with pendingMsgs := s.calls.pendingMsgs ++ [m] } }) ∧
      (16 ≤ s.calls.pendingMsgs.length → s.callMessage m =
        { s with calls := { s.calls with signallingDrop := bump s.calls.signallingDrop } })) ∧
    (s.calls.pendingMsgs = [] ∨ 32 ≤ s.equip.outbound.length → exec .pendingListDrain s = .next s) ∧
    (∀ m rest, s.calls.pendingMsgs = m :: rest → s.equip.outbound.length < 32 →
      exec .pendingListDrain s = .next { s with calls := { s.calls with pendingMsgs := rest },
                                                equip := { s.equip with outbound := s.equip.outbound ++ [m] } })

/-- What call frames delivered to Call Control do (`takeCacc`, `takeCreq`, `takeCrel`, `takeVoic`). A match sets the entry's
port (R72). A CACC at a roadside entry: ACCEPT leads to TALKING, QUEUED to WAITING, BUSY to another attempt after 5 s, any
other pair is ignored (R78); ACCEPT or QUEUED for a known reference from another node is answered by a release (R72). At a
terminus it acts on CALLING alone: ACCEPT connects, RINGING stops the attempts, BUSY frees with CALL-BUSY (R90, R91). A CREQ
ASK whose reference does not name its origin is ignored (R72). At a terminus with PHONE a repeated ASK or RESUME is answered
again, a new one is CONNECTED, QUEUED, a RESUME at the head, or BUSY (R87); without PHONE and for RING it is BUSY. At a
roadside node RING repeats the entry's answer, rings an idle port whose watched hook is returned, or is BUSY (R85). A CREL
clears a roadside entry, or frees a ringing one (R84), and frees a terminus's entry with CALL-END (R88, R89, R91). A VOIC
restarts the silence timer and goes to the playout of TALKING or CONNECTED, and answers CALLING (R91, R94). Log entry 20 holds
the ends left open: a repeat in CALLING and the origin node of CALL-IN; that a new entry takes the lowest free place, and a
frame the lowest of two entries it matches, is log entry 29 (DESIGN CHOICE). CALL-IN and CALL-WAIT carry a set RESUME flag as
1 (log entry 6, DEDUCED). -/
def Obligations.AnswersMoveARoadsideEntry : Prop :=
  ∀ (s : State) (p : PortId) (origin : Nat),
    let put (e : Fin 8) (x : CallEntry) : State := s.setCall e (some x)
    let cacc (target : Nat) (q : PortId) (r : CallRef) (rest : List Byte) (t : State) : State :=
      t.offer q { kind := .cacc, hops := 0, hopLimit := 255, origin := s.cfg.number, target := target,
                  payload := [r.origin, r.num] ++ rest }
    let sent (c : CallEntry) (rest : List Byte) (t : State) : State :=
      match c.far, c.port with
      | some n, some q => cacc n q c.ref rest t
      | _, _ => t
    let moved (c : CallEntry) : CallEntry := { c with port := some p }
    let still (c : CallEntry) : CallEntry :=
      { moved c with attemptTimer := none, silenceTimer := none, keepTimer := none, ringTimer := none,
                     playout := { c.playout with timer := none }, slow := false, busyWait := false }
    let connected (c : CallEntry) : CallEntry :=
      { c with state := .connected, attemptTimer := none, silenceTimer := some ⟨s.refTime, 10000000⟩,
               keepTimer := none, ringTimer := none, playout := Playout.initial }
    let phoneByte (c : CallEntry) : Byte := match c.callersPort with
      | none => 0
      | some .phoneA => 1
      | some .phoneB => 2
    let callIn (c : CallEntry) : CabMsg :=
      ⟨0x89, [c.ref.origin, c.ref.num, BitVec.ofNat 8 (c.far.getD 0), phoneByte c, if c.resume then 1 else 0]⟩
    let gone (e : Fin 8) (m : CabMsg) : State := ((s.setCall e none).leaveWait e).callMessage m
    let rungOff (e : Fin 8) (ph : PhoneId) : State := ((s.setCall e none).earpiece ph none).stopRing ph
    (∀ (e : Fin 8) (c : CallEntry) (ph : PhoneId) (a : Cacc), s.isTerminus = false →
      s.callMatch a.ref origin = some e → s.call e = some c → c.near = .phone ph →
      let talking : CallEntry :=
        { still c with state := .talking, resume := false, silenceTimer := some ⟨s.refTime, 1000000⟩,
                       playout := Playout.initial }
      let waiting : CallEntry :=
        { still c with state := .waiting, resume := false, keepTimer := some ⟨s.refTime, 5000000⟩,
                       position := a.position }
      let asking : CallEntry :=
        { still c with state := .asking, attempts := 0, busyWait := true, attemptTimer := some ⟨s.refTime, 5000000⟩ }
      let t := s.takeCacc p origin a
      let seeking := c.state = .asking ∨ c.state = .resuming
      (a.answer = .accept → seeking ∨ c.state = .waiting → t = (put e talking).earpiece ph none) ∧
      (a.answer = .queued → seeking → t = (put e waiting).earpiece ph (some .waiting)) ∧
      (a.answer = .queued → c.state = .waiting → t = put e { moved c with position := a.position }) ∧
      (a.answer = .busy → seeking →
        t = put e { moved c with busyWait := true, attemptTimer := some ⟨s.refTime, 5000000⟩ }) ∧
      (a.answer = .busy → c.state = .waiting → t = (put e asking).earpiece ph (some .asking)) ∧
      (a.answer = .ringing ∨ (¬ seeking ∧ c.state ≠ .waiting) → t = put e (moved c))) ∧
    (∀ a : Cacc, s.callMatch a.ref origin = none →
      let known := s.isTerminus = false ∧ s.callByRef a.ref ≠ none ∧ (a.answer = .accept ∨ a.answer = .queued)
      (known → s.takeCacc p origin a = s.placeRelease a.ref origin (some p) .clear) ∧
      (¬ known → s.takeCacc p origin a = s)) ∧
    (∀ (e : Fin 8) (c : CallEntry) (a : Cacc), s.isTerminus = true → s.callMatch a.ref origin = some e →
      s.call e = some c →
      let t := s.takeCacc p origin a
      (c.state = .calling → a.answer = .accept →
        t = ((put e (connected (moved c))).callMessage (callIn c)).promote) ∧
      (c.state = .calling → a.answer = .ringing → t = put e { moved c with attemptTimer := none }) ∧
      (c.state = .calling → a.answer = .busy →
        t = (gone e ⟨0x8D, [c.ref.origin, c.ref.num, BitVec.ofNat 8 (c.far.getD 0), 0]⟩).promote) ∧
      (c.state ≠ .calling ∨ a.answer = .queued → t = put e (moved c))) ∧
    (∀ q : Creq,
      let t := s.takeCreq p origin q
      let asks := q.request = .ask ∨ q.request = .resume
      let busy (u : State) : State := cacc origin p q.ref [3, 0] u
      let busied (u : State) : Prop :=
        (s.callByRef q.ref = none → u = busy s) ∧
        (∀ e c, s.callByRef q.ref = some e → s.call e = some c → u = busy (put e (moved c)))
      let named := q.request = .ask → q.ref.origin.toNat = origin
      (¬ named → t = s) ∧
      (s.isTerminus = true → named → s.cfg.services.phone = false ∨ q.request = .ring → busied t) ∧
      (s.isTerminus = true → named → s.cfg.services.phone = true → asks →
        (∀ e c, s.callByRef q.ref = some e → s.call e = some c →
          let d : CallEntry := { moved c with attempts := q.attempts }
          let kept : CallEntry := { d with keepTimer := some ⟨s.refTime, 15000000⟩ }
          (c.state = .connected → t = sent d [1, 0] (put e d)) ∧
          (c.state = .queued → t = sent kept [2, BitVec.ofNat 8 (s.waitPosition e)] (put e kept)) ∧
          (c.state ≠ .connected → c.state ≠ .queued → t = put e d)) ∧
        (s.callByRef q.ref = none →
          (s.freeCallPlace = none → s.cfg.consoleChannels ≤ s.channelsHeld →
            t = (busy s).callMessage ⟨0x8D, [q.ref.origin, q.ref.num, BitVec.ofNat 8 origin, 0]⟩) ∧
          (∀ e, s.freeCallPlace = some e → e ∉ s.calls.waitOrder →
            let c : CallEntry :=
              { ref := q.ref, near := .console, callersPort := q.phone, far := some origin, port := some p,
                state := .queued, attempts := q.attempts, resume := decide (q.request = .resume), outSeq := 0,
                playout := Playout.initial, attemptTimer := none, silenceTimer := none,
                keepTimer := some ⟨s.refTime, 15000000⟩, ringTimer := none, conceal := 0, slow := false,
                busyWait := false, position := 0 }
            (s.channelsHeld < s.cfg.consoleChannels →
              t = (cacc origin p q.ref [1, 0] (put e (connected c))).callMessage (callIn c)) ∧
            (s.cfg.consoleChannels ≤ s.channelsHeld →
              let order := if q.request = .resume then e :: s.calls.waitOrder else s.calls.waitOrder ++ [e]
              let place : Byte :=
                if q.request = .resume then 1 else BitVec.ofNat 8 (s.calls.waitOrder.length + 1)
              let u := put e c
              t = (cacc origin p q.ref [2, place] { u with calls := { u.calls with waitOrder := order } }).callMessage
                ⟨0x8A, [q.ref.origin, q.ref.num, place, if q.request = .resume then 1 else 0]⟩)))) ∧
      (s.isTerminus = false → named → asks → t = s) ∧
      (s.isTerminus = false → q.request = .ring → s.cfg.services.phone = false → busied t) ∧
      (s.isTerminus = false → q.request = .ring → s.cfg.services.phone = true →
        (∀ e c, s.callByRef q.ref = some e → s.call e = some c →
          (c.state = .ringing → t = sent (moved c) [4, 0] (put e (moved c))) ∧
          (c.state = .cleared → t = put e (moved c)) ∧
          (c.state ≠ .ringing → c.state ≠ .cleared → t = sent (moved c) [1, 0] (put e (moved c)))) ∧
        (s.callByRef q.ref = none →
          (q.phone = none → t = busy s) ∧
          (∀ ph e, q.phone = some ph → s.freeCallPlace = some e →
            let hook : LevelLine := if ph = .phoneA then .hookA else .hookB
            let rings := s.boundCall ph = none ∧ s.watched hook = true ∧
              (s.inputs.line hook).filtered = s.cfg.resting.getLsbD (lineBit hook)
            let c : CallEntry :=
              { ref := q.ref, near := .phone ph, callersPort := none, far := some origin, port := some p,
                state := .ringing, attempts := 0, resume := false, outSeq := 0, playout := Playout.initial,
                attemptTimer := none, silenceTimer := none, keepTimer := none,
                ringTimer := some ⟨s.refTime, 65000000⟩, conceal := 0, slow := false, busyWait := false, position := 0 }
            (rings → t = (cacc origin p q.ref [4, 0] (put e c)).startRing ph) ∧
            (¬ rings → t = busy s))))) ∧
    (∀ (r : CallRef) (cause : ReleaseCause),
      let t := s.takeCrel p origin r cause
      let code : Byte := match cause with
        | .clear => 1
        | .hangup => 2
        | .timeout => 3
        | .noAnswer => 4
      (s.callMatch r origin = none → t = s) ∧
      (∀ e c, s.callMatch r origin = some e → s.call e = some c →
        (∀ ph, s.isTerminus = false → c.near = .phone ph →
          (c.state = .ringing → t = rungOff e ph) ∧
          (c.state = .cleared → t = put e (moved c)) ∧
          (c.state ≠ .ringing → c.state ≠ .cleared →
            t = (put e { still c with state := .cleared }).earpiece ph (some .clear))) ∧
        (s.isTerminus = true →
          let freed := gone e ⟨0x8C, [c.ref.origin, c.ref.num, code] ++ bytesBE 2 c.conceal.toNat⟩
          (c.state = .connected ∨ c.state = .calling → t = freed.promote) ∧
          (c.state ≠ .connected → c.state ≠ .calling → t = freed)))) ∧
    (∀ (r : CallRef) (v : VoiceFrame),
      let t := s.takeVoic p origin r v
      (s.callMatch r origin = none → t = s) ∧
      (∀ e c, s.callMatch r origin = some e → s.call e = some c →
        let heard (us : Nat) : CallEntry := { moved c with silenceTimer := some ⟨s.refTime, us⟩ }
        (c.state = .talking → t = (put e (heard 1000000)).playoutArrival e (heard 1000000) v) ∧
        (c.state = .connected → t = (put e (heard 10000000)).playoutArrival e (heard 10000000) v) ∧
        (c.state = .calling → e ∉ s.calls.waitOrder →
          t = ((put e (connected (moved c))).callMessage (callIn c)).promote.playoutArrival e (connected (moved c)) v) ∧
        (c.state ≠ .talking → c.state ≠ .connected → c.state ≠ .calling → t = put e (moved c))))

/-! ### Toll Spool and Toll Delivery (chapters 6 and 7) -/

/-- A TOLL-SUBMIT (R105, R191, R192): an occupied answer place discards and counts it; otherwise the first condition of R105
that holds answers it, and a taken submission gets the next sequence, is programmed at once with the stamp when the array is
free, suspends an ACTIVE erase, and otherwise waits. In SCANNING the answer is cause NOT-READY; a wrong body length counts
as a bad message (log entry 16, DEDUCED). -/
def Obligations.SubmissionsAreJudgedInOrder : Prop :=
  ∀ (s : State) (tag : Byte) (gantry : BitVec 16) (lane : Byte) (body : List Byte),
    let run := exec (.tollSubmit tag gantry lane body) s
    let answered (cause : Byte) : State :=
      if s.equip.outbound.length < 32 then
        { s with equip := { s.equip with outbound := s.equip.outbound ++ [⟨0x82, [tag, cause]⟩] } }
      else { s with spool := { s.spool with answer := some ⟨0x82, [tag, cause]⟩ } }
    let failing : Prop := s.cfg.watch[8] = true ∧ s.inputs.powerWarn.filtered ≠ s.cfg.resting[8]
    let h : HeldSubmission :=
      { tag := tag, seq := s.spool.nextSeq, gantry := gantry, lane := lane, body := body, stamp := none }
    let holding : Spool := { s.spool with held := some h }
    (s.node = .running → body.length = 40 →
      (s.spool.answer ≠ none →
        run = .next { s with spool := { s.spool with unanswered := bump s.spool.unanswered } }) ∧
      (s.spool.answer = none →
        (s.cfg.services.toll = false → run = .next (answered 1)) ∧
        (s.cfg.services.toll = true →
          (s.spool.markFault = true → run = .next (answered 2)) ∧
          (s.spool.markFault = false →
            (failing → run = .next (answered 3)) ∧
            (¬ failing →
              (s.spool.held ≠ none ∨ s.spool.genJob ≠ none → run = .next (answered 4)) ∧
              (s.spool.held = none → s.spool.genJob = none →
                (s.spool.filling = none → run = .next (answered 5)) ∧
                (s.spool.filling ≠ none →
                  (∀ k, s.spool.op = .idle → (∀ e, s.spool.erase = some e → e.phase = .suspended) →
                    s.spool.nextSlot = some k →
                    run = .next { s with
                      array := s.array.beginRecord k
                      spool := { holding with
                        op := .recordProgram k false
                        held := some { h with stamp := some ⟨s.time.lt, s.time.grade, s.time.settled⟩ } } }) ∧
                  (∀ e, s.spool.op = .idle → s.spool.erase = some e → e.phase = .active →
                    run = .next { s with spool := { holding with
                      erase := some { e with phase := .suspending,
                                             gathered := e.gathered + (s.refTime - e.since) } } }) ∧
                  (s.spool.op ≠ .idle ∨ (∃ e, s.spool.erase = some e ∧ e.phase = .suspending) →
                    run = .next { s with spool := holding })))))))) ∧
    (s.node = .scanning → body.length = 40 →
      let counted : Equip := { s.equip with notReady := bump s.equip.notReady }
      (s.equip.outbound.length < 32 →
        run = .next { s with equip := { counted with outbound := s.equip.outbound ++ [⟨0x82, [tag, 6]⟩] } }) ∧
      (32 ≤ s.equip.outbound.length →
        run = .next { s with equip := { counted with outboundDrop := bump s.equip.outboundDrop } })) ∧
    (s.node = .running ∨ s.node = .scanning → body.length ≠ 40 →
      run = .next { s with equip := { s.equip with badMessage := bump s.equip.badMessage } }) ∧
    (s.node ≠ .running → s.node ≠ .scanning → run = .next s)

/-- The end of a record program (R101, R106, R107): the slot is FILLED with the spool's generation, the assigned sequence
and the stamp, the next sequence rises, the FILLING sector is judged (R109), TOLL-TAKEN goes to the answer place and Toll
Delivery is told. The limit (R108): the slot is VOID, the sector weak with a WEAK mark pending, and the record is tried once
more with the same stamp, or refused with FULL, INHIBITED or, after the retry, FAULT. That the next sequence stays until the
roll is done is log entry 17, and that FULL is judged before INHIBITED is log entry 18 (both DEDUCED); an answer that comes while
the answer place holds another is log entry 28, and that Delivery builds and the arbiter then acts at the command's end
(`runToll`) is log entry 10 (both DESIGN CHOICE). An answer (`answerSpool`) goes to the outbound queue at once while it has room,
and is held otherwise; a held one goes first, and without room the newer takes its place (R107, log entry 28). A roll
(`wantGenMark`) waits with its value for the first erased mark place, or for an erase of the mark sector when all 32 are
programmed (R106, R122). -/
def Obligations.RecordProgramsEndOrAreTriedAgain : Prop :=
  (∀ (s : State) (slot : Nat) (retry : Bool) (h : HeldSubmission) (st : Stamp),
    s.spool.op = .recordProgram slot retry → s.spool.held = some h → h.stamp = some st →
    let pos : Position := ⟨s.spool.generation, h.seq⟩
    let r : TollRecord :=
      { pos := pos, stamp := st.lt, grade := st.grade, settled := st.settled, gantry := h.gantry, lane := h.lane,
        body := h.body }
    let filled : State :=
      { s with
        array := { s.array with slots := keySet s.array.slots slot ⟨some r, true, false⟩ }
        spool := { s.spool with slots := keySet s.spool.slots slot (.filled pos), held := none, op := .idle } }
    let taken (t : State) : State :=
      (t.sectorChange.answerSpool ⟨0x81, h.tag :: (bytesBE 2 s.spool.generation ++ bytesBE 4 h.seq)⟩).windowIntake.runToll
    let weak : Spool :=
      s.spool.setSector (slot / 32) { s.spool.sector (slot / 32) with weak := true, weakMark := true }
    let voided : State :=
      { s with spool := { weak with slots := keySet s.spool.slots slot .void, op := .idle,
                                    programFaults := bump s.spool.programFaults } }.sectorChange
    let refused (cause : Byte) : State :=
      ({ voided with spool := { voided.spool with held := none } }.answerSpool ⟨0x82, [h.tag, cause]⟩).runToll
    (h.seq < 4294967295 →
      exec .recordProgramEnd s = .next (taken { filled with spool := { filled.spool with nextSeq := h.seq + 1 } })) ∧
    (h.seq = 4294967295 → exec .recordProgramEnd s = .next (taken
      (filled.wantGenMark (if 65535 ≤ s.spool.generation then 1 else s.spool.generation + 1)))) ∧
    (retry = true → exec .recordProgramLimit s = .next (refused 2)) ∧
    (retry = false → voided.spool.nextSlot = none → exec .recordProgramLimit s = .next (refused 5)) ∧
    (∀ k, retry = false → voided.spool.nextSlot = some k →
      (voided.powerFailing = true → exec .recordProgramLimit s = .next (refused 3)) ∧
      (voided.powerFailing = false → exec .recordProgramLimit s = .next
        { voided with array := voided.array.beginRecord k,
                      spool := { voided.spool with op := .recordProgram k true } }))) ∧
  (∀ (s : State) (m : CabMsg),
    let queue := s.equip.outbound
    let answers (held : Option CabMsg) (l : List CabMsg) : State :=
      { s with spool := { s.spool with answer := held }, equip := { s.equip with outbound := l } }
    (s.spool.answer = none →
      (queue.length < 32 → s.answerSpool m = answers none (queue ++ [m])) ∧
      (32 ≤ queue.length → s.answerSpool m = answers (some m) queue)) ∧
    (∀ old, s.spool.answer = some old →
      (queue.length < 31 → s.answerSpool m = answers none (queue ++ [old, m])) ∧
      (queue.length = 31 → s.answerSpool m = answers (some m) (queue ++ [old])) ∧
      (32 ≤ queue.length → s.answerSpool m = answers (some m) queue))) ∧
  (∀ (s : State) (value : Nat),
    let programmed (k : Nat) : Prop := keyGet s.array.marks k ≠ none
    let waits (first : GenStage) : State := { s with spool := { s.spool with genJob := some ⟨value, first⟩ } }
    (∀ k, k < 32 → ¬ programmed k → (∀ j, j < k → programmed j) → s.wantGenMark value = waits (.program k false)) ∧
    ((∀ k, k < 32 → programmed k) → s.wantGenMark value = waits .eraseSector))

/-- The FILLING sector without an EMPTY slot becomes FULL, or RECLAIM in the pending batch, or BAD with its mark pending when
it is weak, and the first EMPTY sector in ring order after it becomes FILLING and the fill point (R109, R113, R114). A sector
that joins the batch keeps the other members and the closed flag; it opens a batch where there is none, and the close timer of
an open batch restarts. With no sector EMPTY none is FILLING and the fill point stays. No other sector changes. -/
def Obligations.SectorsAreTakenInRingOrder : Prop :=
  ∀ (s : State) (n : Nat), keysRising s.spool.sectors = true → n < 63 → s.spool.filling = some n →
    (s.spool.sector n).state = .filling →
    let t := s.sectorChange
    let next (i : Nat) : Nat := (n + 1 + i) % 63
    ((∃ k, k < 32 ∧ keyGet s.spool.slots (32 * n + k) = none) → t = s) ∧
    ((∀ k, k < 32 → keyGet s.spool.slots (32 * n + k) ≠ none) →
      let live := ∃ e ∈ s.spool.slots, e.1 / 32 = n ∧
        ((∃ p, e.2 = .filled p) ∨ (∃ p, e.2 = .delivered p true))
      (live → t.spool.sector n = { s.spool.sector n with state := .full } ∧ t.spool.batch = s.spool.batch) ∧
      (¬ live → (s.spool.sector n).weak = true →
        t.spool.sector n = { s.spool.sector n with state := .bad, badMark := true } ∧
        t.spool.batch = s.spool.batch) ∧
      (¬ live → (s.spool.sector n).weak = false → t.spool.sector n = { s.spool.sector n with state := .reclaim } ∧
        ∃ b, t.spool.batch = some b ∧
          (∀ m, m ∈ b.sectors ↔ m = n ∨ ∃ old, s.spool.batch = some old ∧ m ∈ old.sectors) ∧
          (∀ old, s.spool.batch = some old → b.closed = old.closed) ∧ (s.spool.batch = none → b.closed = false) ∧
          b.timer = (if b.closed then none else some ⟨s.refTime, 80000⟩)) ∧
      (∀ i, i < 63 → (s.spool.sector (next i)).state = .empty →
        (∀ j, j < i → (s.spool.sector (next j)).state ≠ .empty) →
        t.spool.fillPoint = some (next i) ∧
        t.spool.sector (next i) = { s.spool.sector (next i) with state := .filling } ∧
        ∀ m, m ≠ n → m ≠ next i → t.spool.sector m = s.spool.sector m) ∧
      ((∀ i, i < 63 → (s.spool.sector (next i)).state ≠ .empty) →
        t.spool.fillPoint = s.spool.fillPoint ∧ (∀ m, m ≠ n → t.spool.sector m = s.spool.sector m) ∧
        ((∀ m, m ≠ n → (s.spool.sector m).state ≠ .filling) → t.spool.filling = none)) ∧
      t.spool.slots = s.spool.slots ∧ SameBut [.spool] s t)

/-- The arbiter's order (R104, R115, R117) in RUNNING with no operation on the array and no erase ACTIVE or SUSPENDING: the
held submission into the first EMPTY slot of the FILLING sector (R107), a generation roll, the oldest read, the resumption of
a SUSPENDED erase, a pending mark, the erase of a closed batch; the second and the last two wait while an erase is in
progress, and all but reads while POWER-WARN is departed; that a held submission then waits and is not refused is log entry 18
(DEDUCED). A read whose record is no longer FILLED when its turn comes is answered as no record, which cuts the window before it
and takes records in anew (R111, R128); that this needs no operation on the array is log entry 19 (DEDUCED). A record program
that begins (`beginRecord`) sets USE when the slot is slot 0 of its sector, and leaves the record cells in part, without COMPLETE,
until its end (R101, R104). Of the pending marks those of
sectors come first, in ascending sector and WEAK before BAD (log entry 8, DESIGN CHOICE), then those of slots in ascending
position; of two slots with one position the lowest (log entry 30, DESIGN CHOICE). An ACTIVE erase is suspended for a record
program or a read. At POWER-WARN's DEPART an erase in progress is abandoned, its sectors RECLAIM and held out of any batch,
and at its RETURN those join the pending batch (R114, R118); the generation mark of SCANNING, or the arbiter, then goes on,
and the mark waits while POWER-WARN is departed (R122). What an abandoned erase leaves in its sectors' cells is open (log
entry 7). -/
def Obligations.TheArrayArbitersOrder : Prop :=
  (∀ (s : State), s.node = .running → s.spool.op = .idle →
    let fails := s.powerFailing = true
    let op (o : ArrayOp) : State := { s with spool := { s.spool with op := o } }
    (∀ e, s.spool.erase = some e → e.phase = .active → s.spool.held ≠ none ∨ s.spool.reads ≠ [] →
      s.pump = { s with spool := { s.spool with
        erase := some { e with phase := .suspending, gathered := e.gathered + (s.refTime - e.since) } } }) ∧
    (∀ e, s.spool.erase = some e → e.phase = .suspending ∨
      (e.phase = .active ∧ s.spool.held = none ∧ s.spool.reads = []) → s.pump = s) ∧
    (s.StoresRising → (∀ e, s.spool.erase = some e → e.phase = .suspended) →
      let first (n i : Nat) : Prop := s.spool.filling = some n ∧ i < 32 ∧ keyGet s.spool.slots (32 * n + i) = none ∧
        ∀ j, j < i → keyGet s.spool.slots (32 * n + j) ≠ none
      (∀ h n i, s.spool.held = some h → ¬ fails → first n i →
        s.pump = { s with
          array := s.array.beginRecord (32 * n + i)
          spool := { s.spool with op := .recordProgram (32 * n + i) false, held := some { h with
            stamp := some (h.stamp.getD ⟨s.time.lt, s.time.grade, s.time.settled⟩) } } }) ∧
      (s.spool.held = none ∨ fails ∨ (∀ n i, ¬ first n i) →
        (∀ j, s.spool.genJob = some j → s.spool.erase = none → ¬ fails →
          (∀ k b, j.stage = .program k b → s.pump = op (.genMark k)) ∧
          (j.stage = .eraseSector → s.pump = op .markSectorErase)) ∧
        (s.spool.genJob = none ∨ s.spool.erase ≠ none ∨ fails → ∀ stale live, s.spool.reads = stale ++ live →
          (∀ q ∈ stale, ∀ k, keyGet s.spool.slots k ≠ some (.filled q)) →
          (∀ q ∈ live.head?, ∃ k, keyGet s.spool.slots k = some (.filled q)) →
          let answerNone (u : State) (q : Position) : State :=
            if u.sending.window.any fun e => e.pos == q then
              { u with sending := { u.sending with
                window := u.sending.window.takeWhile fun e => e.pos != q } }.windowIntake
            else u
          let t : State := stale.foldl answerNone { s with spool := { s.spool with reads := live } }
          let next (o : ArrayOp) : State := { t with spool := { t.spool with op := o } }
          (∀ q rest k, t.spool.reads = q :: rest → keyGet s.spool.slots k = some (.filled q) →
            (∀ j, j < k → keyGet s.spool.slots j ≠ some (.filled q)) →
            s.pump = { t with spool := { t.spool with reads := rest, op := .read q k } }) ∧
          (t.spool.reads = [] →
            let unmarked (n : Nat) : Prop := (s.spool.sector n).weakMark = false ∧ (s.spool.sector n).badMark = false
            let slotMark (k : Nat) (a : Position) : Prop := keyGet s.spool.slots k = some (.delivered a true)
            (fails → s.pump = t) ∧
            (∀ e, ¬ fails → s.spool.erase = some e →
              s.pump = { t with spool := { t.spool with
                erase := some { e with phase := .active, since := s.refTime } } }) ∧
            (∀ n, ¬ fails → s.spool.erase = none → (∀ m, m < n → unmarked m) → ¬ unmarked n →
              s.pump = next (.markProgram (if (s.spool.sector n).weakMark then .weak n else .bad n))) ∧
            (∀ k a, ¬ fails → s.spool.erase = none → (∀ n, unmarked n) → slotMark k a →
              (∀ j b, slotMark j b → posLt a b = true ∨ (b = a ∧ k ≤ j)) →
              s.pump = next (.markProgram (.delivered k))) ∧
            (¬ fails → s.spool.erase = none → (∀ n, unmarked n) → (∀ k a, ¬ slotMark k a) →
              ((∀ b, s.spool.batch = some b → b.closed = false) → s.pump = t) ∧
              (∀ b, s.spool.batch = some b → b.closed = true → s.pump =
                let p := b.sectors.foldl (fun p n => p.setSector n { p.sector n with state := .erasing }) t.spool
                { t with spool := { p with batch := none,
                                           erase := some ⟨b.sectors, .active, 0, s.refTime⟩ } }))))))) ∧
  (∀ s : State,
    let waiting (t : State) : State :=
      if t.node = .scanning ∧ t.spool.op = .idle ∧ t.spool.scanReading = false then t.startGenJob else t.pump
    (s.spool.genJob = none ∨ s.powerFailing = true → s.startGenJob = s) ∧
    (∀ j, s.spool.genJob = some j → s.powerFailing = false → s.startGenJob = { s with spool := { s.spool with
      op := match j.stage with
        | .program k _ => .genMark k
        | .eraseSector => .markSectorErase } }) ∧
    (s.spool.erase = none → s.powerDepart = waiting s) ∧
    (∀ e, keysRising s.spool.sectors = true → s.spool.erase = some e → ∃ t : State, s.powerDepart = waiting t ∧
      t.spool = { s.spool with erase := none, heldOut := s.spool.heldOut ++ e.sectors, sectors := t.spool.sectors } ∧
      (∀ n, t.spool.sector n = if n ∈ e.sectors then { s.spool.sector n with state := .reclaim } else s.spool.sector n) ∧
      (∀ n, n ∉ e.sectors → t.array.header n = s.array.header n ∧
        ∀ k, k / 32 = n → keyGet t.array.slots k = keyGet s.array.slots k) ∧
      t.array.marks = s.array.marks ∧ SameBut [.spool, .array, .freeCount] s t) ∧
    (∃ t : State, s.powerReturn = waiting t ∧ SameBut [.spool] s t ∧
      t.spool = { s.spool with heldOut := [], batch := t.spool.batch } ∧
      (s.spool.heldOut = [] → t.spool.batch = s.spool.batch) ∧
      (s.spool.heldOut ≠ [] → ∃ b, t.spool.batch = some b ∧
        (∀ m, m ∈ b.sectors ↔ m ∈ s.spool.heldOut ∨ ∃ old, s.spool.batch = some old ∧ m ∈ old.sectors) ∧
        (∀ old, s.spool.batch = some old → b.closed = old.closed) ∧ (s.spool.batch = none → b.closed = false) ∧
        b.timer = (if b.closed then none else some ⟨s.refTime, 80000⟩)))) ∧
  (∀ (a : TollArray) (n i : Nat), i < 32 →
    let b := a.beginRecord (32 * n + i)
    (i = 0 → b.header n = { a.header n with use := true }) ∧ (i ≠ 0 → b.header n = a.header n) ∧
    (∀ m, m ≠ n → b.header m = a.header m) ∧ b.marks = a.marks ∧
    keyGet b.slots (32 * n + i) = some { record := none, complete := false, delivered := false } ∧
    (∀ k, k ≠ 32 * n + i → keyGet b.slots k = keyGet a.slots k))

/-- A suspension completes, a close timer expires, an answer leaves the answer place (R107, R114, R117, R195): each acts on
its own item alone, and the first two let the arbiter act, at the command's end (log entry 10, DESIGN CHOICE). -/
def Obligations.SuspensionsCloseTimersAndAnswers : Prop :=
  ∀ (s : State),
    (∀ e, s.spool.erase = some e → e.phase = .suspending → exec .eraseSuspensionComplete s =
      .next { s with spool := { s.spool with erase := some { e with phase := .suspended } } }.pump) ∧
    ((∀ e, s.spool.erase = some e → e.phase ≠ .suspending) → exec .eraseSuspensionComplete s = .next s) ∧
    (∀ b, s.spool.batch = some b → b.timer ≠ none → exec .closeTimerExpiry s =
      .next { s with spool := { s.spool with batch := some ⟨b.sectors, true, none⟩ } }.pump) ∧
    ((∀ b, s.spool.batch = some b → b.timer = none) → exec .closeTimerExpiry s = .next s) ∧
    (∀ m, s.spool.answer = some m → s.equip.outbound.length < 32 → exec .answerPlaceDrain s =
      .next { s with spool := { s.spool with answer := none },
                     equip := { s.equip with outbound := s.equip.outbound ++ [m] } }) ∧
    (s.spool.answer = none ∨ 32 ≤ s.equip.outbound.length → exec .answerPlaceDrain s = .next s)

/-- The end and the limit of a mark program and of a read (R111, R112, R113, R128). A mark that ended is set in the array and
no longer pending; at the limit it is no longer pending, the mark fault is counted, a DELIVERED mark is not set and makes its
sector weak with a WEAK mark pending (whether an abandoned WEAK or BAD mark is set is the free value of log entry 3). A FULL
sector without a FILLED slot or a pending slot mark is then retired (`reclaimFull`, R113): it is RECLAIM and joins the pending
batch, or is BAD with its BAD mark pending when it is weak. A read that ended gives the record to its window entry; at its
limit the window loses that entry and all after it. That Delivery builds and the arbiter then acts, both at the command's end
(`runToll`), is log entry 10 (DESIGN CHOICE). -/
def Obligations.MarksAndReadsEnd : Prop :=
  ∀ (s : State),
    (∀ k p c, s.spool.op = .markProgram (.delivered k) → keyGet s.spool.slots k = some (.delivered p true) →
      keyGet s.array.slots k = some c →
      let cleared : Spool := { s.spool with slots := keySet s.spool.slots k (.delivered p false), op := .idle }
      let w := { cleared.sector (k / 32) with weak := true, weakMark := true }
      exec .markProgramEnd s = .next (({ s with
          array := { s.array with slots := keySet s.array.slots k { c with delivered := true } }
          spool := cleared }.reclaimFull (k / 32)).runToll) ∧
      exec .markProgramLimit s = .next (({ s with
          spool := { cleared.setSector (k / 32) w with markFaults := bump s.spool.markFaults }
          freeCount := s.freeCount + 1 }.reclaimFull (k / 32)).runToll)) ∧
    (∀ n, s.spool.op = .markProgram (.weak n) ∨ s.spool.op = .markProgram (.bad n) →
      let isWeak := decide (s.spool.op = .markProgram (.weak n))
      let w := s.spool.sector n
      let unmarked := { w with weakMark := w.weakMark && !isWeak, badMark := w.badMark && isWeak }
      let cleared : Spool := { s.spool.setSector n unmarked with op := .idle }
      let hd := s.array.header n
      let set := s.array.setHeader n { hd with weak := hd.weak || isWeak, bad := hd.bad || !isWeak }
      exec .markProgramEnd s = .next (({ s with array := set, spool := cleared }.reclaimFull n).runToll) ∧
      (let after := if Config.freeBit s.freeCount then set else s.array
       exec .markProgramLimit s = .next (({ s with
          array := after
          spool := { cleared with markFaults := bump s.spool.markFaults }
          freeCount := s.freeCount + 1 }.reclaimFull n).runToll))) ∧
    ((∀ m, s.spool.op ≠ .markProgram m) → exec .markProgramEnd s = .next s ∧ exec .markProgramLimit s = .next s) ∧
    (∀ q k, s.spool.op = .read q k →
      let idle : State := { s with spool := { s.spool with op := .idle } }
      let windowed (w : List WindowEntry) : State := { idle with sending := { s.sending with window := w } }
      let found := ∃ e ∈ s.sending.window, e.pos = q
      (∀ r, ((keyGet s.array.slots k).bind (·.record)) = some r → found →
        exec .readEnd s = .next (windowed
          (s.sending.window.map fun e => if e.pos = q then { e with record := some r } else e)).runToll) ∧
      (found → exec .readLimit s =
        .next (windowed (s.sending.window.takeWhile fun e => e.pos != q)).windowIntake.runToll) ∧
      (¬ found → exec .readEnd s = .next idle.runToll ∧ exec .readLimit s = .next idle.runToll)) ∧
    ((∀ q k, s.spool.op ≠ .read q k) → exec .readEnd s = .next s ∧ exec .readLimit s = .next s) ∧
    (∀ n, keysRising s.spool.sectors = true →
      let t := s.reclaimFull n
      let w := s.spool.sector n
      let live := ∃ e ∈ s.spool.slots, e.1 / 32 = n ∧ ((∃ p, e.2 = .filled p) ∨ (∃ p, e.2 = .delivered p true))
      (w.state ≠ .full ∨ live → t = s) ∧
      (w.state = .full → ¬ live → (∀ m, m ≠ n → t.spool.sector m = s.spool.sector m) ∧ SameBut [.spool] s t ∧
        t.spool = { s.spool with sectors := t.spool.sectors, batch := t.spool.batch } ∧
        (w.weak = true → t.spool.sector n = { w with state := .bad, badMark := true } ∧ t.spool.batch = s.spool.batch) ∧
        (w.weak = false → t.spool.sector n = { w with state := .reclaim } ∧ ∃ b, t.spool.batch = some b ∧
          (∀ m, m ∈ b.sectors ↔ m = n ∨ ∃ old, s.spool.batch = some old ∧ m ∈ old.sectors) ∧
          (∀ old, s.spool.batch = some old → b.closed = old.closed) ∧ (s.spool.batch = none → b.closed = false) ∧
          b.timer = (if b.closed then none else some ⟨s.refTime, 80000⟩))))

/-- An erase ends, done while ACTIVE or SUSPENDING or at its limit while ACTIVE (R116, R117, log entry 18); its active time
does not count while SUSPENDING, so the limit changes nothing there. Every sector of its batch that checks erased is EMPTY,
not weak, with an erased header and erased slots; every other one is BAD with its BAD mark pending; the limit is counted; no
erase is in progress; a full spool takes the first EMPTY sector in ring order after the fill point; then Delivery builds and
the arbiter acts, at the command's end (`runToll`, log entry 10, DESIGN CHOICE). Nothing else of the spool changes. What a
sector that did not check erased holds is not stated (log entry 7). -/
def Obligations.ErasesEnd : Prop :=
  (∀ (s : State) (e : EraseRun) (failed : List (Fin 63)),
    (s.spool.erase = some e → e.phase = .suspended → exec (.eraseDone failed) s = .next s) ∧
    (s.spool.erase = some e → e.phase ≠ .active → exec (.eraseLimit failed) s = .next s) ∧
    (s.spool.erase = none → exec (.eraseDone failed) s = .next s ∧ exec (.eraseLimit failed) s = .next s) ∧
    (s.StoresRising → s.spool.erase = some e → e.phase ≠ .suspended →
      ∃ t : State,
        exec (.eraseDone failed) s = .next t.endFull.runToll ∧
        (e.phase = .active → exec (.eraseLimit failed) s = .next ({ t with spool := { t.spool with
          eraseFaults := bump s.spool.eraseFaults } }.endFull).runToll) ∧
        t.spool = { s.spool with erase := none, slots := t.spool.slots, sectors := t.spool.sectors } ∧
        (∀ n ∈ e.sectors, (∀ i ∈ failed, (i : Nat) ≠ n) →
          t.spool.sector n = ⟨.empty, false, false, false⟩ ∧ t.array.header n = ⟨false, false, false⟩ ∧
          ∀ k, k / 32 = n → keyGet t.spool.slots k = none ∧ keyGet t.array.slots k = none) ∧
        (∀ n ∈ e.sectors, (∃ i ∈ failed, (i : Nat) = n) →
          (t.spool.sector n).state = .bad ∧ (t.spool.sector n).badMark = true) ∧
        (∀ n, n ∉ e.sectors → t.spool.sector n = s.spool.sector n ∧ t.array.header n = s.array.header n ∧
          ∀ k, k / 32 = n → keyGet t.spool.slots k = keyGet s.spool.slots k ∧
            keyGet t.array.slots k = keyGet s.array.slots k) ∧
        t.array.marks = s.array.marks ∧ SameBut [.spool, .array, .freeCount] s t)) ∧
  (∀ u : State,
    (u.spool.filling ≠ none → u.endFull = u) ∧
    (∀ n, u.spool.filling = none → u.spool.fillPoint = some n →
      let next (i : Nat) : Nat := (n + 1 + i) % 63
      (∀ i, i < 63 → (u.spool.sector (next i)).state = .empty →
        (∀ j, j < i → (u.spool.sector (next j)).state ≠ .empty) →
        u.endFull = { u with spool := { u.spool.setSector (next i) { u.spool.sector (next i) with state := .filling } with
          fillPoint := some (next i) } }) ∧
      ((∀ i, i < 63 → (u.spool.sector (next i)).state ≠ .empty) → u.endFull = u)))

/-- The retry timer's expiry lets building resume (R130); when the first entry is sent, not due and 2 s have passed on the
reference oscillator since its last offer, every entry is due and the go-back is counted, and before that GO_BACK changes nothing
(R133). A report that differs from the steer re-steers: the window is emptied, the retry
timer stops, the steer takes the report, the re-steer is counted, and the window takes in records (R126). It takes in, while
the steer is not NONE and it holds fewer than 16, the oldest FILLED record when empty, else the next one after its last entry
while of that entry's generation; each joins at the tail, due and not sent, its read requested (R127). While the steer is not
NONE, the retry timer is stopped, an entry is due and none waits for its read, a TREC of the first 4, 2 or 1 due entries is
built, with the oldest FILLED record as base (R129). It is offered on the steer's port: its entries count as sent and the TREC
is counted, unless the offer is REFUSED, which starts the retry timer and is counted (R130); with steer SELF the own receipt
judges it and answers it (R134). The moments at which TRECs are built and the arbiter acts are log entry 10; that a set SETTLED
flag is sent as 1 is log entry 6, and that a TREC for the own receipt counts in the TREC counter and its TACK in none is log
entry 19 (both DEDUCED). -/
def Obligations.DeliverySendsAgain : Prop :=
  ∀ (s : State),
    let hz := if s.cfg.reference = .mhz25 then 25000000 else 19440000
    let aged (e : WindowEntry) : Prop := 2000000 * hz ≤ (s.refTime - e.sentAt) * 1000000
    (s.sending.retry ≠ none →
      exec .retryTimerExpiry s = .next { s with sending := { s.sending with retry := none } }.runToll) ∧
    (s.sending.retry = none → exec .retryTimerExpiry s = .next s) ∧
    (∀ e rest, s.sending.window = e :: rest → e.sent = true → e.due = false → aged e →
      exec .goBack s = .next { s with sending := { s.sending with
        window := (e :: rest).map fun (x : WindowEntry) => { x with due := true }, goBacks := bump s.sending.goBacks } }.runToll) ∧
    ((∀ e ∈ s.sending.window.head?, e.sent = false ∨ e.due = true ∨ ¬ aged e) → exec .goBack s = .next s) ∧
    (∀ r, (s.cfg.services.toll = false ∨ r = s.sending.steer → s.steerTo r = s) ∧
      (s.cfg.services.toll = true → r ≠ s.sending.steer → s.steerTo r =
        ({ s with sending := { s.sending with steer := r, window := [], retry := none,
                                              resteers := bump s.sending.resteers } }.windowIntake).pump)) ∧
    (let before (a b : Position) : Prop := a.gen < b.gen ∨ (a.gen = b.gen ∧ a.seq < b.seq)
     let filled (q : Position) : Prop := ∃ e ∈ s.spool.slots, e.2 = .filled q
     let last := s.sending.window.getLast?
     let beyond (q : Position) : Prop := filled q ∧ ∀ e, last = some e → before e.pos q
     let offered (q : Position) : Prop := beyond q ∧ ∀ x, beyond x → ¬ before x q
     let takes := s.sending.steer ≠ .none ∧ s.sending.window.length < 16
     (¬ takes → s.windowIntake = s) ∧
     (takes → (∀ q, offered q → ∃ e, last = some e ∧ q.gen ≠ e.pos.gen) → s.windowIntake = s) ∧
     (∀ q, takes → offered q → (∀ e, last = some e → q.gen = e.pos.gen) → s.windowIntake =
       { s with
         sending := { s.sending with window := s.sending.window ++
           [({ pos := q, record := none, sent := false, due := true, sendLT := 0, sentAt := 0 } : WindowEntry)] }
         spool := { s.spool with reads := s.spool.reads ++ [q] } }.windowIntake)) ∧
    (let builds := s.sending.steer ≠ .none ∧ s.sending.retry = none ∧ (∃ e ∈ s.sending.window, e.due = true) ∧
       ∀ e ∈ s.sending.window, e.record.isSome = true
     s.runToll = (s.buildTrecs 17).pump ∧
     (∀ n, ¬ builds → s.buildTrecs n = s) ∧ (∀ n, builds → s.buildTrecs (n + 1) = s.buildOne.buildTrecs n) ∧
     (∀ old due b, builds → s.sending.window = old ++ due → (∀ e ∈ old, e.due = false) → (∀ e ∈ due, e.due = true) →
       s.spool.oldestFilled = some b →
       let k := min due.length s.cfg.runLength
       let size := if 4 ≤ k then 4 else if 2 ≤ k then 2 else 1
       let records := (due.take size).filterMap fun e => e.record
       let counted : State := { s with sending := { s.sending with
         trecs := bump s.sending.trecs
         window := old ++ (due.take size).map (fun (e : WindowEntry) =>
           { e with due := false, sent := true, sendLT := s.time.lt, sentAt := s.refTime }) ++ due.drop size } }
       let trec : Frame :=
         { kind := .trec, hops := 0, hopLimit := 255, origin := s.cfg.number, target := 241,
           payload := BitVec.ofNat 8 records.length :: (bytesBE 2 b.gen ++ bytesBE 4 b.seq) ++
             records.flatMap fun r => bytesBE 2 r.pos.gen ++ bytesBE 4 r.pos.seq ++ bytesBE 6 r.stamp.toNat ++
               [BitVec.ofNat 8 r.grade, if r.settled then 1 else 0] ++ bytesBE 2 r.gantry.toNat ++ [r.lane] ++ r.body }
       (∀ n p, s.sending.steer = .via n p →
         ((s.port p).offerAnswer trec = .refused →
           let t := s.offer p trec
           s.buildOne = { t with sending := { s.sending with
             retry := some ⟨s.refTime, 10000⟩, refusedOffers := bump s.sending.refusedOffers } }) ∧
         ((s.port p).offerAnswer trec ≠ .refused → s.buildOne = counted.offer p trec)) ∧
       (s.sending.steer = .self →
         let t := counted.receiveRecords b s.cfg.number records
         (keyGet t.receipt.table s.cfg.number = none → s.buildOne = t) ∧
         (∀ e, keyGet t.receipt.table s.cfg.number = some e → s.buildOne = t.takeTack e.last))))


/-- A TACK delivered over the line (R125, R131, R132): uncounted without TOLL, bad by length or a zero, stray unless it comes
from the steer's terminus; a taken one has every sent entry of its generation at or before its ack point named DELIVERED
and taken from the window, which then takes in records. The TACK of the own receipt acts in the same way (`takeTack`, R134). A
taken TACK that names no entry changes nothing, but for the arbiters' moments of log entry 10 (`runToll`). -/
def Obligations.TacksActOnTheSteersWindow : Prop :=
  ∀ (s : State) (f : Frame),
    let bad : State := { s with sending := { s.sending with badTacks := bump s.sending.badTacks } }
    (s.cfg.services.toll = false → s.tackDelivered f = s) ∧
    (s.cfg.services.toll = true → f.payload.length ≠ 6 → s.tackDelivered f = bad) ∧
    (∀ g q, s.cfg.services.toll = true → g < 65536 → q < 4294967296 → f.payload = bytesBE 2 g ++ bytesBE 4 q →
      let hit (e : WindowEntry) : Bool := e.sent && decide (e.pos.gen = g) && decide (e.pos.seq ≤ q)
      (g = 0 ∨ q = 0 → s.tackDelivered f = bad) ∧
      (g ≠ 0 → q ≠ 0 → (∀ p, s.sending.steer ≠ .via f.origin p) → s.tackDelivered f =
        { s with sending := { s.sending with strayTacks := bump s.sending.strayTacks } }) ∧
      (∀ p, g ≠ 0 → q ≠ 0 → s.sending.steer = .via f.origin p →
        ((∀ e ∈ s.sending.window, hit e = false) → s.tackDelivered f = s.runToll) ∧
        ((∃ e ∈ s.sending.window, hit e = true) → s.tackDelivered f =
          ({ s with
            spool := (s.sending.window.filter hit).foldl (fun (x : Spool) (e : WindowEntry) => x.deliver e.pos) s.spool
            sending := { s.sending with
              window := s.sending.window.filter fun e => !hit e } }.windowIntake).runToll))) ∧
    (∀ (x : Spool) (a : Position),
      (∀ k, x.slotOf a = some k → x.deliver a = { x with slots := keySet x.slots k (.delivered a true) }) ∧
      (x.slotOf a = none → x.deliver a = x)) ∧
    (∀ a : Position,
      let hit (e : WindowEntry) : Bool := e.sent && decide (e.pos.gen = a.gen) && decide (e.pos.seq ≤ a.seq)
      ((∀ e ∈ s.sending.window, hit e = false) → s.takeTack a = s) ∧
      ((∃ e ∈ s.sending.window, hit e = true) → s.takeTack a =
        { s with
          spool := (s.sending.window.filter hit).foldl (fun (x : Spool) (e : WindowEntry) => x.deliver e.pos) s.spool
          sending := { s.sending with window := s.sending.window.filter fun e => !hit e } }.windowIntake))

/-- The six cases of a record against its origin's receipt entry (R137), what accepting it does while the outbound queue has
room (R135, R138), and what is left unjudged. A TREC delivered on a port (`receiveTrec`): bad by its count, its length, a zero
in a position or a grade above 7, it is counted and not answered (R136); a good one is judged record by record, and while the
origin's entry is known one TACK with its last accepted position is counted and offered on that port (R139). That TOLL-IN
carries the SETTLED flag as 1 is log entry 6. -/
def Obligations.RecordsAreJudgedAgainstTheirOrigin : Prop :=
  ∀ (s : State) (base : Position) (origin : Nat) (r : TollRecord) (rest : List TollRecord),
    let run := s.receiveRecords base origin (r :: rest)
    let counted (q : Receipt) : State := { s with receipt := q }
    let next : Position :=
      if r.pos.seq < 4294967295 then ⟨r.pos.gen, r.pos.seq + 1⟩
      else ⟨if r.pos.gen + 1 = 65536 then 1 else r.pos.gen + 1, 1⟩
    let body : List Byte :=
      bytesBE 2 r.pos.gen ++ bytesBE 4 r.pos.seq ++ bytesBE 6 r.stamp.toNat ++
        [BitVec.ofNat 8 r.grade, if r.settled then 1 else 0] ++ bytesBE 2 r.gantry.toNat ++ [r.lane] ++ r.body
    let accept : Prop :=
      (s.equip.outbound.length < 32 → run =
        { s with
          equip := { s.equip with outbound := s.equip.outbound ++ [(⟨0x84, BitVec.ofNat 8 origin :: body⟩ : CabMsg)] }
          receipt := { s.receipt with
            table := keySet s.receipt.table origin ⟨r.pos, next⟩
            accepted := bump s.receipt.accepted } }.receiveRecords base origin rest) ∧
      (32 ≤ s.equip.outbound.length → run = counted { s.receipt with queueFull := bump s.receipt.queueFull })
    (keyGet s.receipt.table origin = none → accept) ∧
    (∀ e, keyGet s.receipt.table origin = some e →
      let before := r.pos.gen < e.expected.gen ∨ (r.pos.gen = e.expected.gen ∧ r.pos.seq < e.expected.seq)
      let newCount := r.pos = base ∧ r.pos.gen ≠ e.expected.gen
      (r.pos = e.expected → accept) ∧
      (r.pos ≠ e.expected → newCount → accept) ∧
      (r.pos ≠ e.expected → ¬ newCount → before → run =
        (counted { s.receipt with duplicate := bump s.receipt.duplicate }).receiveRecords base origin rest) ∧
      (r.pos ≠ e.expected → ¬ newCount → ¬ before → r.pos = base → accept) ∧
      (r.pos ≠ e.expected → ¬ before → r.pos ≠ base →
        run = counted { s.receipt with outOfOrder := bump s.receipt.outOfOrder })) ∧
    (∀ (p : PortId) (f : Frame),
      let n := field f.payload 0 1
      let records := (List.range n).map fun i => recordAt f.payload (7 + 57 * i)
      let first := posAt f.payload 1
      let bad := (n ≠ 1 ∧ n ≠ 2 ∧ n ≠ 4) ∨ f.payload.length ≠ 7 + 57 * n ∨ first.gen = 0 ∨ first.seq = 0 ∨
        ∃ r ∈ records, r.pos.gen = 0 ∨ r.pos.seq = 0 ∨ 7 < r.grade
      let t := s.receiveRecords first f.origin records
      (bad → s.receiveTrec p f = counted { s.receipt with badTrecs := bump s.receipt.badTrecs }) ∧
      (¬ bad → keyGet t.receipt.table f.origin = none → s.receiveTrec p f = t) ∧
      (∀ e, ¬ bad → keyGet t.receipt.table f.origin = some e → s.receiveTrec p f =
        ({ t with receipt := { t.receipt with tacks := bump t.receipt.tacks } } : State).offer p
          { kind := .tack, hops := 0, hopLimit := 255, origin := s.cfg.number, target := f.origin,
            payload := bytesBE 2 e.last.gen ++ bytesBE 4 e.last.seq }))

/-! ### Signs (chapters 8 and 9) -/

/-- What every pixel holds after a PLANE, a COLOUR and a COPY write, each of which is applied, seen pixel by pixel (R144,
R152, R153, R154). A COPY within one row to the right reads what its earlier steps wrote, so there a named pixel equals its
source as it stands after the write; elsewhere it equals its source before the write. A COPY from another page that is not
READY is a bad write. -/
def Obligations.WritesChangeThePixelsTheyName : Prop :=
  ∀ (s : State) (page : Fin 4) (row col : Nat), s.SignSized → s.pages.PixelsSound →
    let read (m : List Host.Cell) (q y x : Nat) : Byte := readPixelCell m (16384 * q + 256 * y + x)
    let old := read s.pages.pixels
    (∀ (planes : BitVec 4) (fn : PlaneFn) (rotate : Nat) (mask : Byte) (data : List Byte),
      rotate < 8 → ∃ m, s.applyWrite page (.plane row col planes fn rotate mask data) = some m ∧
      ∀ q y x : Nat, q < 4 → y < 64 → x < 256 →
        let named := q = (page : Nat) ∧ y = row ∧ row < s.cfg.signHeight ∧ col ≤ x / 8 ∧ x / 8 < s.cfg.signWidth / 8 ∧
          mask.getLsbD (7 - x % 8) = true
        (∀ d, data[x / 8 - col]? = some d → named → ∀ p, p < 4 →
          let v : Bool := d.getLsbD (7 - (x % 8 + 8 - rotate) % 8)
          let o : Bool := (old q y x).getLsbD p
          (read m q y x).getLsbD p =
            if planes.getLsbD p then (match fn with
              | .replace => v
              | .and => v && o
              | .or => v || o
              | .xor => v != o)
            else o) ∧
        (data[x / 8 - col]? = none ∨ ¬ named → read m q y x = old q y x)) ∧
    (∀ (mask : Byte) (colour : Nat) (data : List Byte),
      colour < 16 → ∃ m, s.applyWrite page (.colour row col mask colour data) = some m ∧
      ∀ q y x : Nat, q < 4 → y < 64 → x < 256 →
        let named := q = (page : Nat) ∧ y = row ∧ row < s.cfg.signHeight ∧ col ≤ x / 8 ∧ x / 8 < s.cfg.signWidth / 8 ∧
          mask.getLsbD (7 - x % 8) = true ∧ ∃ d, data[x / 8 - col]? = some d ∧ d.getLsbD (7 - x % 8) = true
        (named → (read m q y x).toNat = colour) ∧ (¬ named → read m q y x = old q y x)) ∧
    (∀ (mask : Byte) (src : Fin 4) (srcRow srcCol count : Nat),
      (src ≠ page → (s.pages.records[src]).state ≠ .ready →
        s.applyWrite page (.copy row col mask src srcRow srcCol count) = none) ∧
      (src = page ∨ (s.pages.records[src]).state = .ready →
        ∃ m, s.applyWrite page (.copy row col mask src srcRow srcCol count) = some m ∧
          ∀ q y x : Nat, q < 4 → y < 64 → x < 256 →
            let k := x / 8 - col
            let named := q = (page : Nat) ∧ y = row ∧ row < s.cfg.signHeight ∧ srcRow < s.cfg.signHeight ∧ col ≤ x / 8 ∧
              k < count ∧ x / 8 < s.cfg.signWidth / 8 ∧ srcCol + k < s.cfg.signWidth / 8 ∧
              mask.getLsbD (7 - x % 8) = true
            (named → read m q y x =
              if src = page ∧ srcRow = row ∧ srcCol < col then read m src srcRow (8 * (srcCol + k) + x % 8)
              else old src srcRow (8 * (srcCol + k) + x % 8)) ∧
            (¬ named → read m q y x = old q y x)))

/-- A load timer's expiry aborts the load (R149, R151, R156): the page is FREE, its counts 0, the abort counted, and ABORT
TIMEOUT goes to the loading origin, over the node port or else the loading port, or to the outbound queue when that is the
node itself. The pixels stay. That a flag is sent as 1 and an absent LT as zeros is log entry 6 (DEDUCED). Then an SDAT handed
to Sign Page Memory: it is good where its length, page, mode, FIRST flag and write fields are those of R146 and 12.3, and then
gives those fields. Without a sign it is counted as refused, a bad one as bad (R142, R146, R157); a good one is refused at the
displayed page, whatever its flags (R147). FIRST begins a load unless it repeats the one in progress: a load in progress is
superseded, CLEAR clears, the write is applied, the timer starts, and LAST completes (R148). Another is refused where no load
is in progress, aborts on a MISMATCH, is counted as a duplicate, or is applied and restarts the timer; at 65,535 without LAST
it is TOO-LONG, and with LAST the next index is free (R149, log entry 9). A bad write aborts (R154), without FIRST with the
loading port and last activity LT that the record had (log entry 24, DEDUCED). A completion counts the lit pixels and the
drive load of the page (R150, R155). -/
def Obligations.LoadTimersAbortTheLoad : Prop :=
  (∀ (s : State) (page : Fin 4),
    let r := s.pages.records[page]
    let t : State :=
      { s with pages := { s.pages with
          records := s.pages.records.set page { r with state := .free, timer := none, lit := 0, drive := 0 }
          aborted := bump s.pages.aborted } }
    let report (id : Byte) : List Byte :=
      [1, BitVec.ofNat 8 page, id, 3, 2] ++ bytesBE 2 r.next ++ [0, 0, 0, 0, 0, 0] ++ (match r.activity with
        | none => [0, 0, 0, 0, 0, 0, 0]
        | some x => 1 :: bytesBE 6 x.toNat)
    (r.state ≠ .loading ∨ r.timer = none → exec (.loadTimerExpiry page) s = .next s) ∧
    (∀ id a, r.state = .loading → r.timer ≠ none → r.loadId = some id → r.origin = some a →
      let f : Frame :=
        { kind := .srpt, hops := 0, hopLimit := 255, origin := s.cfg.number, target := a, payload := report id }
      (a ≠ s.cfg.number →
        (∀ p, s.nodePort a = some p → exec (.loadTimerExpiry page) s = .next (t.offer p f)) ∧
        (∀ p, s.nodePort a = none → r.port = some p → exec (.loadTimerExpiry page) s = .next (t.offer p f)) ∧
        (s.nodePort a = none → r.port = none → exec (.loadTimerExpiry page) s = .next t)) ∧
      (a = s.cfg.number →
        (s.equip.outbound.length < 32 → exec (.loadTimerExpiry page) s = .next { t with equip :=
          { s.equip with outbound := s.equip.outbound ++ [⟨0x85, BitVec.ofNat 8 a :: report id⟩] } }) ∧
        (32 ≤ s.equip.outbound.length → exec (.loadTimerExpiry page) s = .next { t with equip :=
          { s.equip with outboundDrop := bump s.equip.outboundDrop } })))) ∧
  (∀ (s : State) (d : Sdat) (a : Nat) (port : Option PortId) (x : List Byte),
    let present := s.cfg.services.sign = true ∧ s.cfg.signWidth ≠ 0
    let old := s.pages.records[d.page]
    let counts (t : State) (g : Pages → Pages) : State := { t with pages := g t.pages }
    let record (t : State) (r : PageRecord) : State := counts t fun p => { p with records := p.records.set d.page r }
    let told (t : State) (id : Byte) (outcome : List Byte) (index to' : Nat) (back : Option PortId) : State :=
      let r := t.pages.records[d.page]
      let y : List Byte := [1, BitVec.ofNat 8 d.page, id] ++ outcome ++ bytesBE 2 index ++ bytesBE 2 r.lit ++
        bytesBE 4 r.drive ++ (match r.activity with
          | none => [0, 0, 0, 0, 0, 0, 0]
          | some z => 1 :: bytesBE 6 z.toNat)
      if to' = t.cfg.number then
        if t.equip.outbound.length < 32 then
          { t with equip := { t.equip with outbound := t.equip.outbound ++ [⟨0x85, BitVec.ofNat 8 to' :: y⟩] } }
        else { t with equip := { t.equip with outboundDrop := bump t.equip.outboundDrop } }
      else match (t.nodePort to').or back with
        | some p => t.offer p
            { kind := .srpt, hops := 0, hopLimit := 255, origin := t.cfg.number, target := to', payload := y }
        | none => t
    let refused (why : Byte) : State :=
      told (counts s fun p => { p with refusedSdat := bump p.refusedSdat }) d.loadId [4, why] d.index a port
    let twice : State := counts s fun p => { p with duplicate := bump p.duplicate }
    let gone (t : State) (r : PageRecord) (why id : Byte) (o : Nat) : State :=
      told (counts (record t { r with state := .free, timer := none, lit := 0, drive := 0 })
        fun p => { p with aborted := bump p.aborted }) id [3, why] r.next o r.port
    let done (t : State) (r : PageRecord) (id : Byte) (o : Nat) : State :=
      let lit := t.pages.pixels.filter fun c =>
        c.1 / 16384 == (d.page : Nat) && decide (c.1 / 256 % 64 < t.cfg.signHeight) && decide (c.1 % 256 < t.cfg.signWidth)
      let weights := lit.map fun c => (t.cfg.colours.getD c.2.toNat ⟨0, 0⟩).weight
      told (counts (record t { r with state := .ready, timer := none, lit := lit.length, drive := weights.sum })
        fun p => { p with loaded := bump p.loaded }) id [1, 0] r.next o r.port
    let run := s.takeSdat a port x
    let n (i : Nat) : Nat := field x i 1
    let write (w : SignWrite) : Prop := n 0 ≤ 3 ∧ ((n 4 % 2 = 1) ↔ field x 2 2 = 0) ∧
      (n 5 = 0 ∧ x.length = 6 ∧ w = .nothing ∨
       (n 5 = 1 ∨ n 5 = 2) ∧ x.length = 14 + n 13 ∧ 1 ≤ n 13 ∧ n 13 ≤ 200 ∧ n 12 ≤ 15 ∧
         (∃ g, (n 9, g) ∈ ([(0, .replace), (1, .and), (2, .or), (3, .xor)] : List (Nat × PlaneFn)) ∧
           w = if n 5 = 1 then .plane (n 6) (n 7) (BitVec.ofNat 4 (n 8)) g (n 10 % 8) (BitVec.ofNat 8 (n 11)) (x.drop 14)
             else .colour (n 6) (n 7) (BitVec.ofNat 8 (n 11)) (n 12) (x.drop 14)) ∨
       n 5 = 3 ∧ x.length = 13 ∧ 1 ≤ n 12 ∧ n 12 ≤ 200 ∧
         (∃ from' : Fin 4, n 9 = from' ∧ w = .copy (n 6) (n 7) (BitVec.ofNat 8 (n 8)) from' (n 10) (n 11) (n 12)))
    (parseSdat x = some d ↔ write d.write ∧ (d.page : Nat) = n 0 ∧ (d.loadId.toNat = n 1 ∧ d.index = field x 2 2) ∧
      (d.first = true ↔ n 4 % 2 = 1) ∧ (d.last = true ↔ n 4 / 2 % 2 = 1) ∧ (d.clear = true ↔ n 4 / 4 % 2 = 1)) ∧
    (parseSdat x = none ↔ ∀ w, ¬ write w) ∧
    (¬ present → run = counts s fun p => { p with refusedSdat := bump p.refusedSdat }) ∧
    (present → parseSdat x = none → run = counts s fun p => { p with badSdat := bump p.badSdat }) ∧
    (present → parseSdat x = some d →
      (s.display.page = some d.page → run = refused 5) ∧
      (s.display.page ≠ some d.page → d.first = true →
        let repeated := old.state = .loading ∧ old.loadId = some d.loadId ∧ old.origin = some a
        let r : PageRecord := { state := .loading, loadId := some d.loadId, origin := some a, port := port, next := 1,
                                lit := 0, drive := 0, activity := old.activity, timer := old.timer }
        let started (t : State) : Prop :=
          let v := counts (record t r) fun p =>
            { p with pixels := if d.clear then p.pixels.filter fun c => c.1 / 16384 != (d.page : Nat) else p.pixels }
          let taken : PageRecord := { r with activity := some s.time.lt, timer := some ⟨s.refTime, 5000000⟩ }
          (v.applyWrite d.page d.write = none → run = gone v r 3 d.loadId a) ∧
          (∀ m, v.applyWrite d.page d.write = some m →
            let w := record (counts v fun p => { p with pixels := m }) taken
            run = if d.last then done w taken d.loadId a else w)
        (repeated → run = twice) ∧
        (¬ repeated → old.state ≠ .loading → started s) ∧
        (∀ id o, ¬ repeated → old.state = .loading → old.loadId = some id → old.origin = some o →
          started (told (counts s fun p => { p with superseded := bump p.superseded }) id [2, 0] old.next o old.port))) ∧
      (s.display.page ≠ some d.page → d.first = false →
        let other := old.loadId ≠ some d.loadId ∨ old.origin ≠ some a ∨ old.next < d.index
        let taken : PageRecord :=
          { old with port := port, activity := some s.time.lt, timer := some ⟨s.refTime, 5000000⟩ }
        (old.state ≠ .loading → run = refused 6) ∧
        (∀ id o, old.state = .loading → old.loadId = some id → old.origin = some o → other → run = gone s old 1 id o) ∧
        (old.state = .loading → ¬ other → d.index < old.next → run = twice) ∧
        (old.state = .loading → ¬ other → d.index = old.next →
          (s.applyWrite d.page d.write = none → run = gone s old 3 d.loadId a) ∧
          (∀ m, s.applyWrite d.page d.write = some m →
            let u := counts s fun p => { p with pixels := m }
            let next : PageRecord := { taken with next := old.next + 1 }
            (old.next < 65535 → run = if d.last then done (record u next) next d.loadId a else record u next) ∧
            (old.next = 65535 → d.last = false → run = gone (record u taken) taken 4 d.loadId a) ∧
            (old.next = 65535 → d.last = true →
              let free : PageRecord := { taken with next := Config.freeNat s.freeCount % 65536 }
              run = done { record u free with freeCount := s.freeCount + 1 } free d.loadId a))))))

/-- A frame end (R169 to R174): expired claims leave, the first claim whose page is READY and whose show-at is due is
displayed, the brightness is requested and held under the power budget, changes are counted, an owed report is tried by the
terminus choice, and the frame timer starts anew for the reciprocal of the frame rate. The report carries the page or BLANK, the
claimant with its priority, the brightnesses, the drive load, the OVERLOAD flag, the number of claims and LT (R174, 12.3); that
a set flag is sent as 1 and absent claimant fields as 0 is log entry 6, and the priority 0 of BLANK log entry 24 (both DEDUCED).
Nothing else changes. At any moment scan-out drives pixel x of row y of the displayed page with the LED strings that the colour
map gives its colour, for as many sixteenths of the frame as the applied brightness, and nothing while the display is BLANK
(R143, R157, R169). -/
def Obligations.FrameEndsSelectDimAndReport : Prop :=
  ∀ (s : State),
    (s.display.frameTimer = none → exec .frameEnd s = .next s) ∧
    (s.display.frameTimer ≠ none → ∃ t : State, exec .frameEnd s = .next t ∧
      let d := t.display
      let due (x : LTime) : Prop := (x - s.time.lt).toInt ≤ 0
      let fits (c : Claim) : Prop := (s.pages.records[c.page]).state = .ready ∧ ∀ x, c.showAt = some x → due x
      let dimmed (load : Nat) : Prop :=
        d.applied = (if load = 0 then d.requested else max 1 (min d.requested (s.cfg.powerBudget / load))) ∧
        (d.applied * load ≤ s.cfg.powerBudget ∨ d.applied = 1) ∧
        (d.overload = true ↔ 0 < load ∧ s.cfg.powerBudget / load < d.requested)
      let changed := d.page ≠ s.display.page ∨ d.claimant ≠ s.display.claimant
      let owed := s.display.owed = true ∨ changed
      let who : List Byte := match d.claimant with
        | none => [0, 0, 0]
        | some .centre => [1, 0, 0]
        | some (.rule n) => [2, BitVec.ofNat 8 n, 0]
        | some (.alert o k) => [3, BitVec.ofNat 8 o, BitVec.ofNat 8 k]
      let reports (priority load : Nat) : Prop := t.displayPayload =
        [3, match d.page with
          | none => 255
          | some p => BitVec.ofNat 8 p] ++ who ++
          [BitVec.ofNat 8 priority, BitVec.ofNat 8 d.requested, BitVec.ofNat 8 d.applied] ++ bytesBE 4 load ++
          [if d.overload then 1 else 0, BitVec.ofNat 8 d.claims.length] ++ bytesBE 6 s.time.lt.toNat
      d.claims = s.display.claims.filter (fun c => !(c.expiry.any fun x => decide (due x))) ∧
      (∀ l c rest, d.claims = l ++ c :: rest → (∀ x ∈ l, ¬ fits x) → fits c →
        d.page = some c.page ∧ d.claimant = some c.claimant ∧ dimmed (s.pages.records[c.page]).drive ∧
          reports c.priority (s.pages.records[c.page]).drive) ∧
      ((∀ c ∈ d.claims, ¬ fits c) → d.page = none ∧ d.claimant = none ∧ dimmed 0 ∧ reports 0 0) ∧
      (let q := s.weather.channels[s.cfg.ambient]
       let steady := s.cfg.brightnessMode = .fixed ∨ q.valid = false ∨ q.stale = true
       (steady → d.requested = s.cfg.fixedLevel) ∧
       (∀ p1 p2 p3 p4 l0 l1 l2 l3 l4, ¬ steady → s.cfg.breakpoints = [p1, p2, p3, p4] →
          s.cfg.bandLevels = [l0, l1, l2, l3, l4] → p1 ≤ p2 → p2 ≤ p3 → p3 ≤ p4 →
          d.requested = if q.value < p1 then l0 else if q.value < p2 then l1 else if q.value < p3 then l2
            else if q.value < p4 then l3 else l4)) ∧
      d.changes = (if changed then bump s.display.changes else s.display.changes) ∧
      d.overloads = (if d.overload = true ∧ s.display.overload = false then bump s.display.overloads
        else s.display.overloads) ∧
      d.frameTimer = some ⟨s.refTime, s.cfg.frameRate⟩ ∧
      (¬ owed → d.owed = false ∧ SameBut [.display] s t) ∧
      (owed →
        (s.terminusChoice = .none → d.owed = true ∧ SameBut [.display] s t) ∧
        (∀ n p h, s.terminusChoice = .terminus n p h →
          (∃ f : Frame, f.kind = .srpt ∧ f.payload = t.displayPayload ∧ f.target = 241 ∧ f.hopLimit = 255 ∧ f.hops = 0 ∧ f.origin = s.cfg.number ∧
            (d.owed = true ↔ (s.port p).offerAnswer f = .refused) ∧
            t.east = (s.offer p f).east ∧ t.west = (s.offer p f).west) ∧
          SameBut [.display, .east, .west] s t) ∧
        (s.terminusChoice = .self →
          (s.equip.outbound.length < 32 → d.owed = false ∧
            t.equip = { s.equip with outbound := s.equip.outbound ++
              [⟨0x85, BitVec.ofNat 8 s.cfg.number :: t.displayPayload⟩] }) ∧
          (32 ≤ s.equip.outbound.length → d.owed = true ∧ t.equip = s.equip) ∧ SameBut [.display, .equip] s t)) ∧
      d.badScmd = s.display.badScmd ∧ d.strayScmd = s.display.strayScmd ∧ d.refused = s.display.refused ∧
      d.evicted = s.display.evicted) ∧
    (∀ y x : Nat,
      (s.display.page = none → s.signDrive y x = (0, 0)) ∧
      (∀ (p : Fin 4) (c : ColourEntry), s.display.page = some p →
        s.cfg.colours[(readPixelCell s.pages.pixels (16384 * p + 256 * y + x)).toNat]? = some c →
        s.signDrive y x = (c.strings, s.display.applied)))

/-- Whatever the command, the displayed page is not written: while it is displayed, its record and every pixel of it keep
their values (R147), a start apart. -/
def Obligations.TheDisplayedPageIsNeverWritten : Prop :=
  ∀ (c : Instr) (s t : State) (page : Fin 4), s.SignSound → s.display.page = some page → c ≠ .start → c ≠ .resetHeld →
    exec c s = .next t →
    t.pages.records[page] = s.pages.records[page] ∧
      ∀ y x, y < 64 → x < 256 →
        readPixelCell t.pages.pixels (16384 * page + 256 * y + x) =
          readPixelCell s.pages.pixels (16384 * page + 256 * y + x)

/-! ### Weather Monitor (chapter 10) -/

/-- A READING (R178, R182, R191, R192): a channel above 7 is only counted; otherwise the channel takes the value saturated to
its range, the flag, and a stale timer of 120 s, and a valid reading at a node with WEATHER evaluates the channel's rules in
ascending number. In SCANNING it is dropped and counted. A stale timer's expiry (R179) sets STALE and stops. -/
def Obligations.ReadingsFillTheirChannel : Prop :=
  ∀ (s : State) (ch : Byte) (value : BitVec 16) (valid : Bool) (c : Fin 8),
    let run := exec (.reading ch value valid) s
    let old := s.weather.channels[c]
    let range := s.cfg.ranges.getD c (-32768, 32767)
    let put (q : ReadingChannel) : State :=
      { s with weather := { s.weather with channels := s.weather.channels.set c q } }
    let v := value.toInt
    let taken (w : Int) (n : Counter) : State :=
      put { value := w, valid := valid, stale := false, timer := some ⟨s.refTime, 120000000⟩, saturations := n }
    let judged (w : Int) (n : Counter) : Prop :=
      (s.cfg.services.weather = false ∨ valid = false → run = .next (taken w n)) ∧
      (s.cfg.services.weather = true → valid = true →
        run = .next (allRules.foldl (fun (t : State) (r : Fin 8) =>
          if (t.rule r).kind ≠ 0 ∧ (t.rule r).source = .channel c then
            t.evaluate r (raiseHolds (t.rule r) w) (clearHolds (t.rule r) w)
          else t) (taken w n)))
    (s.node = .running → ch.toNat = c → range.1 ≤ range.2 →
      (range.1 ≤ v → v ≤ range.2 → judged v old.saturations) ∧
      (v < range.1 → judged range.1 (bump old.saturations)) ∧
      (range.2 < v → judged range.2 (bump old.saturations))) ∧
    (s.node = .running → 8 ≤ ch.toNat →
      run = .next { s with weather := { s.weather with badReading := bump s.weather.badReading } }) ∧
    (s.node = .scanning → run = .next { s with equip := { s.equip with notReady := bump s.equip.notReady } }) ∧
    (s.node ≠ .running → s.node ≠ .scanning → run = .next s) ∧
    (old.timer ≠ none → exec (.staleTimerExpiry c) s = .next (put { old with stale := true, timer := none })) ∧
    (old.timer = none → exec (.staleTimerExpiry c) s = .next s)

/-- One evaluation of a rule (R181, R183, R184): the state moves as the table gives by the raise and the clear condition; a
move into RAISED gathers the alert item, makes the rule claim and starts the renewal timer for half the lifetime; a move out
of RAISED or CLEARING into CLEAR gathers the withdraw item, withdraws the claim and stops the timer. An item starts the
gathering, replaces the item of its rule, joins at the tail, or as the eighth sends the WALR at once (R186). -/
def Obligations.RulesMoveAsTheTableGives : Prop :=
  (∀ (s : State) (n : Fin 8) (raiseC clearC : Bool),
    let c := s.rule n
    let w := s.weather.rules[n]
    let put (st : RuleState) : State :=
      { s with weather := { s.weather with rules := s.weather.rules.set n { w with state := st } } }
    let item : GatherItem := { rule := n, kind := c.kind, severity := c.severity, lifetime := c.lifetime, withdraw := false }
    let renewal (t : State) (x : Timer) : State :=
      { t with weather := { t.weather with rules := t.weather.rules.set n { t.weather.rules[n] with renewal := x } } }
    let up : State :=
      let t := (put .raised).gather item
      let u := match c.claim with
        | some (page, priority) => t.ruleClaim n page priority c.lifetime
        | none => t
      renewal u (some ⟨u.refTime, c.lifetime * 500000⟩)
    let down : State :=
      let t := (put .clear).gather { item with lifetime := 0, withdraw := true }
      renewal (if c.claim.isSome then t.ruleWithdraw n else t) none
    let run := s.evaluate n raiseC clearC
    (w.state = .clear → run = if raiseC then (if c.persistence = 1 then up else put (.pending 1)) else put .clear) ∧
    (∀ k, w.state = .pending k →
      run = if raiseC then (if k + 1 = c.persistence then up else put (.pending (k + 1))) else put .clear) ∧
    (w.state = .raised →
      run = if clearC then (if c.persistence = 1 then down else put (.clearing 1)) else put .raised) ∧
    (∀ k, w.state = .clearing k →
      run = if clearC then (if k + 1 = c.persistence then down else put (.clearing (k + 1))) else put .raised)) ∧
  (∀ (r : RuleConfig) (v : Int),
    (r.sense = .above → (raiseHolds r v = true ↔ r.raiseAt ≤ v) ∧ (clearHolds r v = true ↔ v < r.clearAt)) ∧
    (r.sense = .below → (raiseHolds r v = true ↔ v ≤ r.raiseAt) ∧ (clearHolds r v = true ↔ r.clearAt < v))) ∧
  (∀ (s : State) (g : GatherItem),
    let l := s.weather.gathering
    let held (m : List GatherItem) : State := { s with weather := { s.weather with gathering := m } }
    (l = [] → s.gather g =
      { s with weather := { s.weather with gathering := [g], windowTimer := some ⟨s.refTime, 500000⟩ } }) ∧
    ((∃ x ∈ l, x.rule = g.rule) → s.gather g = held (l.map fun x => if x.rule = g.rule then g else x)) ∧
    (l ≠ [] → (∀ x ∈ l, x.rule ≠ g.rule) →
      (l.length + 1 < 8 → s.gather g = held (l ++ [g])) ∧ (l.length + 1 = 8 → s.gather g = (held (l ++ [g])).sendWalr)))

/-- A renewal timer's expiry restarts it and, while the source is usable, gathers the item and makes the claim again (R185): a
pulse source with its value, a channel that is valid and not STALE (R179), and a contact source always.
The window timer's expiry empties the gathering into a WALR, offered on each LIT port whose zone is not 0 with the zone as hop
limit; each TAKEN is counted, every other answer and a WALR without an offer count as lost, and a terminus places an
ALERT-IN (R187). The report timer's expiry sends a WRPT by the terminus choice and restarts (R188). Its 84 bytes are the pulse
channels, the reading channels, the rules and the three counters (12.3). That a set flag is sent as 1 and an absent pulse value
as 0 is log entry 6 (DEDUCED), and that EAST comes before WEST is log entry 11. -/
def Obligations.RenewalsWindowsAndReports : Prop :=
  ∀ (s : State) (n : Fin 8),
    let w := s.weather.rules[n]
    let t : State :=
      { s with weather := { s.weather with
          rules := s.weather.rules.set n { w with renewal := some ⟨s.refTime, (s.rule n).lifetime * 500000⟩ } } }
    let item : GatherItem :=
      { rule := n, kind := (s.rule n).kind, severity := (s.rule n).severity, lifetime := (s.rule n).lifetime,
        withdraw := false }
    let usable : Prop := match (s.rule n).source with
      | .wind => s.weather.values.wind ≠ none
      | .rain => s.weather.values.rain ≠ none
      | .channel c => (s.weather.channels[c]).valid = true ∧ (s.weather.channels[c]).stale = false
      | .contacts _ => True
    (w.renewal = none → exec (.renewalTimerExpiry n) s = .next s) ∧
    (w.renewal ≠ none → ¬ usable → exec (.renewalTimerExpiry n) s = .next t) ∧
    (w.renewal ≠ none → usable → (s.rule n).claim = none →
      exec (.renewalTimerExpiry n) s = .next (t.gather item)) ∧
    (∀ page priority, w.renewal ≠ none → usable → (s.rule n).claim = some (page, priority) →
      exec (.renewalTimerExpiry n) s = .next ((t.gather item).ruleClaim n page priority (s.rule n).lifetime)) ∧
    (let bytes (g : GatherItem) : List Byte :=
       [BitVec.ofNat 8 g.kind, BitVec.ofNat 8 g.severity] ++ bytesBE 4 g.lifetime ++ [if g.withdraw then 1 else 0]
     let payload : List Byte := BitVec.ofNat 8 s.weather.gathering.length :: s.weather.gathering.flatMap bytes
     let emptied : State := { s with weather := { s.weather with gathering := [], windowTimer := none } }
     let walr (zone : Nat) : Frame :=
       { kind := .walr, hops := 0, hopLimit := zone, origin := s.cfg.number, target := 0, payload := payload }
     let goes (p : PortId) (zone : Nat) : Prop := (s.port p).state = .lit ∧ zone ≠ 0
     let lost (u : State) : State := { u with weather := { u.weather with alertLost := bump u.weather.alertLost } }
     let one (u : State) (p : PortId) (zone : Nat) : State :=
       if (u.port p).offerAnswer (walr zone) = .taken then
         { u.offer p (walr zone) with weather := { u.weather with walrs := bump u.weather.walrs } }
       else lost (u.offer p (walr zone))
     let copied (u : State) : State :=
       if s.cfg.role = .terminus then u.placeOrDrop ⟨0x87, BitVec.ofNat 8 s.cfg.number :: payload⟩ else u
     (s.weather.windowTimer = none → exec .gatheringWindowExpiry s = .next s) ∧
     (s.weather.windowTimer ≠ none → s.node = .running →
       (goes .east s.cfg.eastZone → goes .west s.cfg.westZone → exec .gatheringWindowExpiry s =
         .next (copied (one (one emptied .east s.cfg.eastZone) .west s.cfg.westZone))) ∧
       (goes .east s.cfg.eastZone → ¬ goes .west s.cfg.westZone → exec .gatheringWindowExpiry s =
         .next (copied (one emptied .east s.cfg.eastZone))) ∧
       (¬ goes .east s.cfg.eastZone → goes .west s.cfg.westZone → exec .gatheringWindowExpiry s =
         .next (copied (one emptied .west s.cfg.westZone))) ∧
       (¬ goes .east s.cfg.eastZone → ¬ goes .west s.cfg.westZone → exec .gatheringWindowExpiry s =
         .next (copied (lost emptied))))) ∧
    (let lost (u : State) : State := { u with weather := { u.weather with reportLost := bump u.weather.reportLost } }
     let anew (u : State) : State :=
       { u with weather := { u.weather with reportTimer := some ⟨s.refTime, s.cfg.reportInterval * 1000000⟩ } }
     let two (x : Counter) : List Byte := bytesBE 2 x.toNat
     let pulse (v : Option Nat) (window : Nat) (x : PulseState) (saturated : Counter) : List Byte :=
       [if v = none then 0 else 1] ++ bytesBE 2 (v.getD 0) ++ [BitVec.ofNat 8 window, BitVec.ofNat 8 x.history.length] ++
         two saturated
     let channel (c : ReadingChannel) : List Byte :=
       bytesBE 2 (BitVec.ofInt 16 c.value).toNat ++ [(if c.valid then 1 else 0) + (if c.stale then 2 else 0)] ++
         two c.saturations
     let rule (i : Fin 8) : List Byte :=
       (if (s.rule i).kind = 0 then [0, 0] else match (s.weather.rules[i]).state with
         | .clear => [1, 0]
         | .pending k => [2, BitVec.ofNat 8 k]
         | .raised => [3, 0]
         | .clearing k => [4, BitVec.ofNat 8 k]) ++ [BitVec.ofNat 8 (s.rule i).kind]
     let report : List Byte :=
       pulse s.weather.values.wind s.cfg.pulseWindow.wind s.inputs.pulses.wind s.weather.saturations.wind ++
         pulse s.weather.values.rain s.cfg.pulseWindow.rain s.inputs.pulses.rain s.weather.saturations.rain ++
         s.weather.channels.toList.flatMap channel ++ ([0, 1, 2, 3, 4, 5, 6, 7] : List (Fin 8)).flatMap rule ++
         two s.weather.badReading ++ two s.weather.walrs ++ two s.weather.alertLost
     report.length = 84 ∧
     (s.weather.reportTimer = none → exec .reportTimerExpiry s = .next s) ∧
     (s.weather.reportTimer ≠ none →
       (s.terminusChoice = .none → exec .reportTimerExpiry s = .next (anew (lost s))) ∧
       (s.terminusChoice = .self →
         exec .reportTimerExpiry s = .next (anew (s.placeOrDrop ⟨0x86, BitVec.ofNat 8 s.cfg.number :: report⟩))) ∧
       (∀ a p h, s.terminusChoice = .terminus a p h →
         let f : Frame :=
           { kind := .wrpt, hops := 0, hopLimit := 255, origin := s.cfg.number, target := 241, payload := report }
         exec .reportTimerExpiry s =
           .next (anew (if (s.port p).offerAnswer f = .taken then s.offer p f else lost (s.offer p f))))))

/-! ### Equipment port and node status (chapter 11) -/

/-- STATUS-ASK is answered in SCANNING and RUNNING by one STATUS, dropped and counted when the queue is full; a terminus in
RUNNING adds the named origin's receipt entry, and for an origin above 240 its flag is a free value, whatever it is (R192, R194,
R196, log entry 3). In SCANNING the message is a refused one and counted not ready before the STATUS is built (log entry 16).
A transfer takes the head of the queue in SCANNING and RUNNING while the lane is idle, and its end lets the lane idle (R190,
R195). Bytes that fail a check of R191 are counted; BAD_MESSAGE with good bytes changes nothing (log entry 16). That flags are
sent as 1 and an unknown entry as zeros is log entry 6, and that the queue count is that before the STATUS is placed is log
entry 23 (both DEDUCED). The bytes of each inbound message, length, kind, body and CRC-16, spell its command, and no other bytes
spell one: a length of 1..300 that is the bytes' own, the check, a kind of R192 and a body as 12.4 allows (R191). READY is high
in RUNNING at a node with TOLL, not in MARK-FAULT, POWER-WARN not departed, nothing held, no roll, no answer held and a sector
FILLING (R110). -/
def Obligations.ThePortAnswersAndTransfers : Prop :=
  ∀ (s : State) (origin : Byte) (bytes : List Byte),
    let receives := s.node = .scanning ∨ s.node = .running
    let placed (u : State) (m : CabMsg) : State :=
      if u.equip.outbound.length < 32 then { u with equip := { u.equip with outbound := u.equip.outbound ++ [m] } }
      else { u with equip := { u.equip with outboundDrop := bump u.equip.outboundDrop } }
    let up : Bool := decide (s.node = .running) && s.cfg.services.toll && !s.spool.markFault &&
      !(s.cfg.watch[8] && s.inputs.powerWarn.filtered != s.cfg.resting[8]) && decide (s.spool.held = none) &&
      decide (s.spool.genJob = none) && decide (s.spool.answer = none) &&
      s.spool.sectors.any fun x => decide (x.2.state = .filling)
    let status (e : Equip) (flag : Byte) (entry : List Byte) : CabMsg :=
      ⟨0x83, [if s.node = .running then 2 else 1, BitVec.ofNat 8 s.cfg.number, BitVec.ofNat 8 (roleCode s.cfg.role),
          servicesByte s.cfg.services] ++
        (if s.node = .running then
          bytesBE 6 s.time.lt.toNat ++ [BitVec.ofNat 8 s.time.grade, if s.time.settled then 1 else 0,
            if up then 1 else 0] ++ bytesBE 2 s.spool.backlog ++ bytesBE 2 s.spool.generation ++
            bytesBE 4 s.spool.nextSeq
        else List.replicate 17 0) ++ [BitVec.ofNat 8 e.outbound.length] ++
        ([e.badMessage, e.notReady, e.misdirected, e.outboundDrop, e.sendSignLost].flatMap fun c => bytesBE 2 c.toNat) ++ flag :: entry⟩
    let message (kind : Byte) (body : List Byte) : List Byte :=
      let l := bytesBE 2 (body.length + 1) ++ kind :: body
      l ++ bytesBE 2 (crc16 l).toNat
    let signFrame (kind target zone : Byte) (payload : List Byte) : Prop :=
      (kind = 7 ∨ kind = 10) ∧ target.toNat ≤ 240 ∧ zone ≠ 0 ∧ payload.length ≤ 256
    let spells (kind : Byte) (body : List Byte) : Prop :=
      (kind = 1 ∧ body.length = 44) ∨ (kind = 2 ∧ body.length = 4) ∨ (kind = 3 ∧ body.length = 1) ∨
      (kind = 4 ∧ body.length = 6) ∨ (kind = 5 ∧ ∃ k a z payload, body = k :: a :: z :: payload ∧ signFrame k a z payload) ∨
      (kind = 6 ∧ ∃ node phone, body = [node, phone] ∧ (phone = 1 ∨ phone = 2)) ∨ (kind = 7 ∧ body.length = 2) ∨
      (kind = 8 ∧ body.length = 42)
    let good := ∃ kind body, bytes = message kind body ∧ spells kind body
    let noEntry : List Byte := List.replicate 13 0
    let counted : Equip := { s.equip with notReady := bump s.equip.notReady }
    (¬ receives → exec (.statusAsk origin) s = .next s ∧ exec (.badMessage bytes) s = .next s ∧
      exec .outboundTransferStart s = .next s) ∧
    (s.node = .scanning →
      exec (.statusAsk origin) s = .next (placed { s with equip := counted } (status counted 0 noEntry))) ∧
    (s.node = .running → s.cfg.role = .roadside ∨ origin = 0 →
      exec (.statusAsk origin) s = .next (placed s (status s.equip 0 noEntry))) ∧
    (s.node = .running → s.cfg.role = .terminus → 240 < origin.toNat →
      exec (.statusAsk origin) s = .next (placed { s with freeCount := s.freeCount + 1 }
        (status s.equip (if Config.freeBit s.freeCount then 1 else 0) noEntry))) ∧
    (s.node = .running → s.cfg.role = .terminus → origin ≠ 0 → origin.toNat ≤ 240 →
      (keyGet s.receipt.table origin.toNat = none → exec (.statusAsk origin) s = .next (placed s (status s.equip 1 noEntry))) ∧
      (∀ e, keyGet s.receipt.table origin.toNat = some e → exec (.statusAsk origin) s =
        .next (placed s (status s.equip 1 (1 :: (bytesBE 2 e.last.gen ++ bytesBE 4 e.last.seq ++ bytesBE 2 e.expected.gen ++
          bytesBE 4 e.expected.seq)))))) ∧
    (∀ m rest, receives → s.equip.transfer = none → s.equip.outbound = m :: rest → exec .outboundTransferStart s =
      .next { s with equip := { s.equip with transfer := some m, outbound := rest } }) ∧
    (s.equip.transfer ≠ none ∨ s.equip.outbound = [] → exec .outboundTransferStart s = .next s) ∧
    exec .outboundTransferEnd s = .next { s with equip := { s.equip with transfer := none } } ∧
    (receives → ¬ good → exec (.badMessage bytes) s =
      .next { s with equip := { s.equip with badMessage := bump s.equip.badMessage } }) ∧
    (good → exec (.badMessage bytes) s = .next s) ∧
    s.ready = up ∧ (parseInbound bytes ≠ none ↔ good) ∧
    (∀ (tag lane : Byte) (gantry : BitVec 16) (body : List Byte), body.length = 40 →
      parseInbound (message 1 (tag :: bytesBE 2 gantry.toNat ++ lane :: body)) = some (.tollSubmit tag gantry lane body)) ∧
    (∀ (channel valid : Byte) (value : BitVec 16),
      parseInbound (message 2 (channel :: bytesBE 2 value.toNat ++ [valid])) = some (.reading channel value (valid != 0))) ∧
    (∀ a : Byte, parseInbound (message 3 [a]) = some (.statusAsk a)) ∧
    (∀ v : LTime, parseInbound (message 4 (bytesBE 6 v.toNat)) = some (.time v)) ∧
    (∀ kind target zone payload, signFrame kind target zone payload →
      parseInbound (message 5 (kind :: target :: zone :: payload)) = some (.sendSign kind target zone payload)) ∧
    (∀ node phone : Byte, phone = 1 ∨ phone = 2 → parseInbound (message 6 [node, phone]) = some (.ringOut node phone)) ∧
    (∀ a b : Byte, parseInbound (message 7 [a, b]) = some (.hangup ⟨a, b⟩)) ∧
    (∀ (a b : Byte) (samples : List Byte), samples.length = 40 →
      parseInbound (message 8 (a :: b :: samples)) = some (.consoleVoice ⟨a, b⟩ samples))

/-- A SEND-SIGN at a terminus in RUNNING (R191 to R193): the frame goes to both ports (EAST, then WEST, log entry 11) and the
own sign, to the own sign alone, or to the node port, by its target; every offer not taken and a target with no port are
counted. It is misdirected at a ROADSIDE node, a bad message when kind, target, zone or length is not allowed, and not ready
in SCANNING, at a ROADSIDE node too (log entry 16). Then what reaches the claim list. A claim request refreshes, replaces, is
placed as the newest of its priority, evicts the last claim, or is refused (R161, R162); an evicted CENTRE claim is reported
(R166). An SCMD (R163 to R166) is bad, stray, or a CLAIM, with show-at and lifetime clamped, a WITHDRAW or a PURGE, and is
reported to its origin. A WALR's items are taken one by one by the sign rule table (R167), and Weather Monitor's rule claims
and withdraws act alike (R168). Where Sign Display does not act nothing changes. That the own sign is handed a frame after the two
offers is log entry 11; the removed count, page and priority sent as 0 are log entry 6, and that a refreshed claim keeps its
placing node is log entry 24 (both DEDUCED). -/
def Obligations.SignFramesGoByTheirTarget : Prop :=
  (∀ (s : State) (kind target zone : Byte) (payload : List Byte),
    let run := exec (.sendSign kind target zone payload) s
    let good := (kind = 7 ∨ kind = 10) ∧ target.toNat ≤ 240 ∧ zone ≠ 0 ∧ payload.length ≤ 256
    let f : Frame :=
      { kind := if kind = 7 then .scmd else .sdat, hops := 0, hopLimit := zone.toNat, origin := s.cfg.number,
        target := target.toNat, payload := payload }
    let lost (t : State) : State := { t with equip := { t.equip with sendSignLost := bump t.equip.sendSignLost } }
    let offered (t : State) (p : PortId) : State :=
      if (t.port p).offerAnswer f = .taken then t.offer p f else lost (t.offer p f)
    let handed (t : State) : State :=
      if kind = 7 then t.takeScmd s.cfg.number none payload else t.takeSdat s.cfg.number none payload
    let counted (e : Equip) : State := { s with equip := e }
    (s.node = .running → s.cfg.role = .terminus → good →
      (target = 0 → run = .next (handed (offered (offered s .east) .west))) ∧
      (target ≠ 0 → target.toNat = s.cfg.number → run = .next (handed s)) ∧
      (target ≠ 0 → target.toNat ≠ s.cfg.number →
        (∀ p, s.nodePort target.toNat = some p → run = .next (offered s p)) ∧
        (s.nodePort target.toNat = none → run = .next (lost s)))) ∧
    (s.node = .running → s.cfg.role = .roadside → good →
      run = .next (counted { s.equip with misdirected := bump s.equip.misdirected })) ∧
    (s.node = .scanning → good → run = .next (counted { s.equip with notReady := bump s.equip.notReady })) ∧
    (s.node = .running ∨ s.node = .scanning → ¬ good →
      run = .next (counted { s.equip with badMessage := bump s.equip.badMessage })) ∧
    (s.node ≠ .running → s.node ≠ .scanning → run = .next s)) ∧
  (∀ (s : State) (origin : Nat) (port : Option PortId),
    let acts := s.node = .running ∧ s.cfg.services.sign = true ∧ s.cfg.signWidth ≠ 0
    let l := s.display.claims
    let shown (d : Display) : State := { s with display := d }
    let listed (m : List Claim) : State := shown { s.display with claims := m }
    let gone (who : Claimant) : State := listed (l.filter fun c => c.claimant != who)
    let expires (base : LTime) (seconds : Nat) : LTime := base + BitVec.ofNat 48 (min seconds 86400 * 1000000)
    let reported (t : State) (command outcome page priority removed dest : Nat) (back : Option PortId) : State :=
      let x : List Byte := [2, BitVec.ofNat 8 command, BitVec.ofNat 8 outcome, BitVec.ofNat 8 page, BitVec.ofNat 8 priority,
        BitVec.ofNat 8 removed, BitVec.ofNat 8 t.display.claims.length] ++ bytesBE 6 t.time.lt.toNat
      if dest = t.cfg.number then
        if t.equip.outbound.length < 32 then
          { t with equip := { t.equip with outbound := t.equip.outbound ++ [⟨0x85, BitVec.ofNat 8 dest :: x⟩] } }
        else { t with equip := { t.equip with outboundDrop := bump t.equip.outboundDrop } }
      else match (t.nodePort dest).or back with
        | some p => t.offer p
            { kind := .srpt, hops := 0, hopLimit := 255, origin := t.cfg.number, target := dest, payload := x }
        | none => t
    (∀ c : Claim,
      let asked := s.claimRequest c
      let other (x : Claim) : Prop := x.claimant ≠ c.claimant
      let fits (u v : List Claim) : Prop := (∀ x ∈ u, c.priority < x.priority) ∧ ∀ x ∈ v.head?, x.priority ≤ c.priority
      (∀ a old b, l = a ++ old :: b → old.claimant = c.claimant → (∀ x ∈ a ++ b, other x) →
        let same := old.page = c.page ∧ old.priority = c.priority ∧ old.showAt = c.showAt
        (same → asked = listed (a ++ { old with expiry := c.expiry } :: b)) ∧
        (∀ u v, ¬ same → a ++ b = u ++ v → fits u v → asked = listed (u ++ c :: v))) ∧
      (∀ u v, (∀ x ∈ l, other x) → l.length < 8 → l = u ++ v → fits u v → asked = listed (u ++ c :: v)) ∧
      (∀ front last, (∀ x ∈ l, other x) → 8 ≤ l.length → l = front ++ [last] →
        (c.priority ≤ last.priority → asked = shown { s.display with refused := bump s.display.refused }) ∧
        (∀ u v, last.priority < c.priority → front = u ++ v → fits u v →
          let t := shown { s.display with claims := u ++ c :: v, evicted := bump s.display.evicted }
          (last.claimant ≠ .centre ∨ last.placedBy = none → asked = t) ∧
          (∀ n, last.claimant = .centre → last.placedBy = some n →
            asked = reported t 4 6 last.page last.priority 0 n none)))) ∧
    (let claims (x : List Byte) (page : Fin 4) (priority lifetime : Nat) (at' : Option LTime) : Prop :=
       priority ≤ 15 ∧ lifetime < 4294967296 ∧ ∃ (flag : Byte) (y : LTime), at' = (if flag = 0 then none else some y) ∧
         x = [1, BitVec.ofNat 8 page, BitVec.ofNat 8 priority] ++ bytesBE 4 lifetime ++ flag :: bytesBE 6 y.toNat
     let good (x : List Byte) : Prop := x = [2] ∨ x = [3] ∨ ∃ page priority lifetime at', claims x page priority lifetime at'
     let known := origin = s.cfg.number ∨ s.terminusPresence origin ≠ none
     (∀ x, ¬ acts → s.takeScmd origin port x = s) ∧
     (∀ x, acts → ¬ good x → s.takeScmd origin port x = shown { s.display with badScmd := bump s.display.badScmd }) ∧
     (∀ x, acts → good x → ¬ known →
       s.takeScmd origin port x = shown { s.display with strayScmd := bump s.display.strayScmd }) ∧
     (acts → known →
       (∀ x page priority lifetime at', claims x page priority lifetime at' →
         let due := at'.map fun y => if 600000000 < (y - s.time.lt).toInt then s.time.lt + BitVec.ofNat 48 600000000 else y
         let t := s.claimRequest
           { claimant := .centre, page := page, priority := priority, showAt := due, placedBy := some origin,
             expiry := if lifetime = 0 then none else some (expires (due.getD s.time.lt) lifetime) }
         let full := 8 ≤ l.length ∧ (∀ c ∈ l, c.claimant ≠ .centre) ∧ ∀ c ∈ l.getLast?, priority ≤ c.priority
         (full → s.takeScmd origin port x = reported t 1 2 page priority 0 origin port) ∧
         (¬ full → s.takeScmd origin port x = reported t 1 1 page priority 0 origin port)) ∧
       ((∃ c ∈ l, c.claimant = .centre) → s.takeScmd origin port [2] = reported (gone .centre) 2 3 0 0 0 origin port) ∧
       ((∀ c ∈ l, c.claimant ≠ .centre) → s.takeScmd origin port [2] = reported s 2 4 0 0 0 origin port) ∧
       s.takeScmd origin port [3] = reported (listed []) 3 5 0 0 l.length origin port)) ∧
    (∀ (a : AlertItem),
      (¬ acts → s.alertItem origin a = s) ∧
      (acts → a.withdraw = true ∨ a.lifetime = 0 → s.alertItem origin a = gone (.alert origin a.kind)) ∧
      (let entry (r : SignRule) : Prop := r.kind ≠ 0 ∧ r.kind = a.kind ∧ r.minSeverity ≤ a.severity
       acts → a.withdraw = false → a.lifetime ≠ 0 →
        ((∀ r ∈ s.cfg.signRules, ¬ entry r) → s.alertItem origin a = s) ∧
        (∀ l₁ r l₂, s.cfg.signRules = l₁ ++ r :: l₂ → (∀ x ∈ l₁, ¬ entry x) → entry r → s.alertItem origin a =
          s.claimRequest { claimant := .alert origin a.kind, page := r.page, priority := r.priority, showAt := none,
                           placedBy := none, expiry := some (expires s.time.lt a.lifetime) }))) ∧
    (let spells (x : List Byte) (items : List AlertItem) : Prop :=
       1 ≤ items.length ∧ items.length ≤ 8 ∧ x.length = 1 + 7 * items.length ∧
         x.head? = some (BitVec.ofNat 8 items.length) ∧ ∀ i a, items[i]? = some a →
           1 ≤ a.kind ∧ a.kind ≤ 15 ∧ 1 ≤ a.severity ∧ a.severity ≤ 3 ∧ a.lifetime < 4294967296 ∧
           ∃ flag, a.withdraw = (flag != 0) ∧ (x.drop (1 + 7 * i)).take 7 =
             [BitVec.ofNat 8 a.kind, BitVec.ofNat 8 a.severity] ++ bytesBE 4 a.lifetime ++ [flag]
     (∀ x items, spells x items →
       s.takeWalr origin x = items.foldl (fun (t : State) a => t.alertItem origin a) s) ∧
     (∀ x, (∀ items, ¬ spells x items) → s.takeWalr origin x = s)) ∧
    (∀ (n : Fin 8) (page : Fin 4) (priority lifetime : Nat),
      (¬ acts → s.ruleClaim n page priority lifetime = s ∧ s.ruleWithdraw n = s) ∧
      (acts → s.ruleWithdraw n = gone (.rule n) ∧ s.ruleClaim n page priority lifetime =
        s.claimRequest { claimant := .rule n, page := page, priority := priority, showAt := none, placedBy := none,
                         expiry := some (expires s.time.lt lifetime) })))

/-- A status timer's expiry builds one report of five parts, each within 256 payload bytes, raises the number modulo 65,536,
and sends the parts in order by the terminus choice (R197, R198). The report carries the number before it rises (log entry 23,
DEDUCED). A part is the 12 bytes report number, part, node number, role, services and LT, then its items: number, value
length, value, or for a list the numbers held and carried and as many elements as fit (12.3). The values are those of R26 and
R40; R58, R70 and R189; R123, R140 and R141; R100; R158, R175 and R197. A terminus's item is empty at a ROADSIDE node. That a
flag is sent as 1, and an absent field (an LT, the newest count of an empty history, the send LT and age of an entry never
offered) as zeros, is log entry 6; that W is the taken width at a node without SIGN too is log entry 24; that the active erase
time and the send age are rounded down to whole ms, and that the sector counts and the spool-full flag of a node without TOLL are
0, is log entry 23 (all DEDUCED). -/
def Obligations.NodeReportsGoInFiveParts : Prop :=
  ∀ (s : State),
    let t : State := { s with equip := { s.equip with reportNumber := s.equip.reportNumber + 1 } }
    let f (x : List Byte) : Frame :=
      { kind := .nsta, hops := 0, hopLimit := 255, origin := s.cfg.number, target := 241, payload := x }
    let lost (n : Nat) (u : State) : State :=
      { u with equip := { u.equip with
          statusLost := BitVec.ofNat 16 (min (u.equip.statusLost.toNat + n) 65535) } }
    let anew (u : State) : State :=
      { u with equip := { u.equip with statusTimer := some ⟨s.refTime, s.cfg.nodeInterval * 1000000⟩ } }
    (s.equip.statusTimer = none → exec .statusTimerExpiry s = .next s) ∧
    (s.equip.statusTimer ≠ none →
      (s.terminusChoice = .none → exec .statusTimerExpiry s = .next (anew (lost 5 t))) ∧
      (s.terminusChoice = .self → exec .statusTimerExpiry s = .next (anew
        (s.nstaParts.foldl (fun (u : State) x => u.placeOrDrop ⟨0x88, BitVec.ofNat 8 s.cfg.number :: x⟩) t))) ∧
      (∀ n p h, s.terminusChoice = .terminus n p h → exec .statusTimerExpiry s = .next (anew
        (s.nstaParts.foldl (fun (u : State) x =>
          if (u.port p).offerAnswer (f x) = .taken then u.offer p (f x) else lost 1 (u.offer p (f x))) t)))) ∧
    (∀ part ∈ s.nstaParts, part.length ≤ 256) ∧
    (let byte (n : Nat) : Byte := BitVec.ofNat 8 n
     let flag (b : Bool) : Byte := if b then 1 else 0
     let two (n : Nat) : List Byte := bytesBE 2 n
     let counts (l : List Counter) : List Byte := l.flatMap fun c => two c.toNat
     let time (x : LTime) : List Byte := bytesBE 6 x.toNat
     let maybe (x : Option LTime) : List Byte := match x with
       | none => [0, 0, 0, 0, 0, 0, 0]
       | some y => 1 :: time y
     let pos (x : Position) : List Byte := two x.gen ++ bytesBE 4 x.seq
     let side (p : Option PortId) : Byte := match p with
       | none => 0
       | some .east => 1
       | some .west => 2
     let who (c : Option Claimant) : List Byte := match c with
       | none => [0, 0, 0]
       | some .centre => [1, 0, 0]
       | some (.rule n) => [2, byte n, 0]
       | some (.alert o k) => [3, byte o, byte k]
     let head (k : Nat) : List Byte :=
       two s.equip.reportNumber.toNat ++ [byte k, byte s.cfg.number, byte (match s.cfg.role with
         | .roadside => 1
         | .terminus => 2), servicesByte s.cfg.services] ++ time s.time.lt
     let part (k : Nat) (values : List (List Byte)) : List Byte :=
       head k ++ (values.zipIdx 1).flatMap fun v => [byte v.2, byte v.1.length] ++ v.1
     let listed (p : List Byte) (number size : Nat) (l : List (List Byte)) : List Byte :=
       let carried := l.take ((256 - p.length - 4) / size)
       p ++ [byte number, byte (2 + size * carried.length), byte l.length, byte carried.length] ++ carried.flatten
     let terminus : Bool := s.numberKnown && s.cfg.role == .terminus
     let port (p : LinePort) : Byte := match p.state with
       | .dark => 0
       | .probing => 1
       | .lit => 2
     let line (c : LineCounters) : List Byte :=
       counts [c.receivedGood, c.checkErrors, c.malformed, c.numberClashes, c.transitOverflow, c.darkDiscards, c.localRefusals]
     let silent (p : PortId) : Bool := decide ((s.port p).state = .lit ∧ ∀ e ∈ s.reach.part p, e.hops ≠ 1)
     let seen (p : PortId) (e : ReachEntry) : List Byte :=
       [byte e.node, side (some p), byte e.hops, byte (match e.role with
         | .roadside => 1
         | .terminus => 2)] ++ two e.backlog
     let lines : List (LevelLine × Nat) := [(.hookA, 0), (.hookB, 1), (.contact 0, 2), (.contact 1, 3), (.contact 2, 4),
       (.contact 3, 5), (.contact 4, 6), (.contact 5, 7), (.powerWarn, 8)]
     let word (g : LevelLine → Nat → Bool) : List Byte := two (lines.map fun x => (g x.1 x.2).toNat * 2 ^ x.2).sum
     let pulse (window : Nat) (h : List Nat) : List Byte := [byte window, byte h.length] ++ two (h.headD 0)
     let rule (n : Fin 8) : List Byte := if (s.rule n).kind = 0 then [0, 0] else match (s.weather.rules[n]).state with
       | .clear => [1, 0]
       | .pending k => [2, byte k]
       | .raised => [3, 0]
       | .clearing k => [4, byte k]
     let sectors (st : SectorState) : Byte :=
       if s.cfg.services.toll then byte ((List.range 63).filter fun n => (s.spool.sector n).state == st).length else 0
     let near (c : CallEntry) : Byte := match c.near with
       | .console => 0
       | .phone .phoneA => 1
       | .phone .phoneB => 2
     let call (e : Fin 8) (c : CallEntry) : List Byte :=
       [c.ref.origin, c.ref.num, near c, match c.state with
         | .asking => 1
         | .waiting => 2
         | .talking => 3
         | .resuming => 4
         | .ringing => 5
         | .cleared => 6
         | .queued => 7
         | .connected => 8
         | .calling => 9, byte (c.far.getD 0), side c.port, byte c.attempts, flag c.resume] ++ counts [c.conceal] ++
         [byte (match c.state with
           | .queued => s.waitPosition e
           | .waiting => c.position
           | _ => 0)]
     let page (r : PageRecord) : List Byte :=
       [match r.state with
         | .free => 0
         | .loading => 1
         | .ready => 2, flag r.loadId.isSome, r.loadId.getD 0, byte (r.origin.getD 0)] ++ two r.next ++ two r.lit ++
         bytesBE 4 r.drive ++ maybe r.activity
     s.nstaParts =
       [listed (part 1 [[port s.east, port s.west], line s.east.counters, line s.west.counters, [flag s.clash],
          [byte ((silent .east).toNat + 2 * (silent .west).toNat)], [byte s.reach.east.length, byte s.reach.west.length],
          (match s.terminusChoice with
            | .none => [0, 0, 0, 0]
            | .terminus n p h => [1, byte n, side (some p), byte h]
            | .self => [2, 0, 0, 0]), counts [s.reach.badBeat]]) 9 6
          (s.reach.east.map (seen .east) ++ s.reach.west.map (seen .west)),
        part 2 [time s.time.lt, [byte s.time.grade], [flag s.time.settled], bytesBE 4 s.time.holdback, counts [s.time.disputes],
          [flag s.time.lock.isSome],
          word (fun l _ => (s.inputs.line l).filtered) ++ word (fun _ b => s.cfg.watch.getLsbD b) ++
            word (fun l b => s.cfg.watch.getLsbD b && (s.inputs.line l).filtered != s.cfg.resting.getLsbD b),
          pulse s.cfg.pulseWindow.wind s.inputs.pulses.wind.history ++ pulse s.cfg.pulseWindow.rain s.inputs.pulses.rain.history,
          ([0, 1, 2, 3, 4, 5, 6, 7] : List (Fin 8)).flatMap rule, [byte s.weather.gathering.length],
          counts [s.weather.badReading, s.weather.walrs, s.weather.alertLost, s.weather.reportLost],
          [flag s.cfg.services.weather]],
        part 3 [two s.spool.generation, bytesBE 4 s.spool.nextSeq, [flag s.spool.markFault],
          two (s.spool.slots.filter fun x => match x.2 with
            | .filled _ => true
            | _ => false).length,
          two (s.spool.slots.filter fun x => match x.2 with
            | .delivered _ b => b
            | _ => false).length,
          [match s.spool.filling with
            | none => 0
            | some n => byte (32 - (s.spool.slots.filter fun x => x.1 / 32 == n).length)],
          [sectors .empty, sectors .filling, sectors .full, sectors .reclaim, sectors .erasing, sectors .bad],
          [byte (s.spool.sectors.filter fun x => x.2.weak).length], [flag (s.cfg.services.toll && s.spool.filling.isNone)],
          (match s.spool.batch with
            | none => [0, 0]
            | some b => [if b.closed then 2 else 1, byte b.sectors.length]),
          (match s.spool.erase with
            | none => [0, 0, 0]
            | some e => (match e.phase with
              | .active => 1
              | .suspending => 2
              | .suspended => 3) :: two (min 65535
                ((e.gathered + if e.phase = .active then s.refTime - e.since else 0) * 1000 /
                  (if s.cfg.reference = .mhz25 then 25000000 else 19440000)))),
          counts [s.spool.programFaults, s.spool.markFaults, s.spool.eraseFaults, s.spool.unanswered],
          (match s.sending.steer with
            | .none => [0, 0, 0]
            | .via n p => [1, byte n, side (some p)]
            | .self => [2, 0, 0]),
          [byte s.sending.window.length, byte (s.sending.window.filter fun e => e.due).length],
          (match s.sending.window with
            | [] => []
            | e :: _ => pos e.pos ++
              if e.sent then time e.sendLT ++ two (min 65535 (s.elapsedUs e.sentAt / 1000)) else List.replicate 8 0),
          (match s.spool.oldestFilled with
            | none => []
            | some b => pos b),
          counts [s.sending.trecs, s.sending.refusedOffers, s.sending.goBacks, s.sending.resteers, s.sending.strayTacks,
            s.sending.badTacks],
          (if terminus then counts [s.receipt.accepted, s.receipt.duplicate, s.receipt.outOfOrder, s.receipt.queueFull,
            s.receipt.badTrecs, s.receipt.tacks] else []),
          (if terminus then [byte s.receipt.table.length] else [])],
        (let calls := listed (part 4 [counts [s.calls.voiceLate, s.calls.voiceOverflow, s.calls.consoleDrop,
            s.calls.signallingDrop], if terminus then [byte s.cfg.consoleChannels] else []]) 3 11
            (([0, 1, 2, 3, 4, 5, 6, 7] : List (Fin 8)).filterMap fun e => (s.call e).map (call e))
         if terminus then
           listed calls 4 2 (s.calls.waitOrder.filterMap fun e => (s.call e).map fun c => [c.ref.origin, c.ref.num])
         else calls ++ [4, 0]),
        listed (part 5 [[flag (s.cfg.services.sign && s.cfg.signWidth != 0)] ++ two s.cfg.signWidth ++ [byte s.cfg.signHeight],
          s.pages.records.toList.flatMap page,
          counts [s.pages.badSdat, s.pages.refusedSdat, s.pages.duplicate, s.pages.superseded, s.pages.aborted, s.pages.loaded],
          (match s.display.page with
            | none => 255
            | some p => byte p) :: who s.display.claimant,
          [byte s.display.requested, byte s.display.applied, match s.cfg.brightnessMode with
            | .fixed => 1
            | .mapped => 2], [flag s.display.overload],
          counts [s.display.badScmd, s.display.strayScmd, s.display.refused, s.display.evicted, s.display.changes,
            s.display.overloads],
          counts [s.equip.badMessage, s.equip.notReady, s.equip.misdirected, s.equip.outboundDrop, s.equip.sendSignLost,
            s.equip.statusLost]]) 9 19
          (s.display.claims.map fun c => who (some c.claimant) ++ [byte c.page, byte c.priority] ++ maybe c.expiry ++
            maybe c.showAt)])

/-! ### Start (chapters 6 and 11) -/

/-- A start, and RESET while it is held, from any state (R1, R41, R71, R103, R125, R135, R144, R145, R159, R176, R190, R201):
every item holds its start value, but for the levels that the pins have, the array, and the model's own queue and count of
free values. What the array keeps of an operation that was cut is said of the operations (log entries 2, 3, 4 and 7); with
none in progress it keeps everything. That a start clears the receiver's light report and keeps the waiting commands is log
entry 12. -/
def Obligations.StartsReturnEveryItem : Prop :=
  ∀ (s : State), ∃ t u : State, exec .start s = .next t ∧ exec .resetHeld s = .next u ∧
    t.node = .loading ∧ t.loadTimer = some ⟨0, 50000⟩ ∧ u.node = .held ∧ u.loadTimer = none ∧
    SameBut [.node, .loadTimer] t u ∧
    SameBut [.inputs, .array, .freeCount, .pending] State.reset t ∧
    (∀ l, t.inputs.line l = { pin := (s.inputs.line l).pin, filtered := false, wait := none }) ∧
    t.inputs.pulses = State.reset.inputs.pulses ∧ t.pending = s.pending ∧
    (s.spool.op = .idle ∨ (∃ k b, s.spool.op = .recordProgram k b) ∨ (∃ p k, s.spool.op = .read p k) →
      s.spool.erase = none → t.array = s.array ∧ t.freeCount = s.freeCount) ∧
    (∀ k, s.spool.op = .markProgram (.delivered k) → s.spool.erase = none → t.array = s.array) ∧
    (s.spool.op = .markSectorErase → s.spool.erase = none → t.array = { s.array with marks := [] })

/-- The end of the image's read in LOADING (R199, R200, R201). It is rejected, and the node in REPEATER-ONLY with an empty
Reach View and its bad-BEAT counter at 0, when nothing was read in time or a check fails; accepted, it fixes the
configuration, computes K, the whole number nearest to 2^32 × 10^12 / (F × (10^6 + t)), a half up (R44), samples every level,
drops the entries of the own number and begins the scan, or at a node without TOLL goes on to RUNNING. In any other node state
nothing changes. Every field takes the nearer end of its range, a code that names no choice and a field beyond the length the
default of 12.5 (R200), with the treatments of R125 (run length), R142 (width, at a node without SIGN too, log entry 24), R143
(colour map), R167 (sign rules), R172 (breakpoints), R178 (ranges) and R180 (weather rules). That a row of the table defaults as
a whole when any byte of it lies beyond the length, and that bytes after the check are not read, is log entry 15 (DEDUCED). On
entry to RUNNING each block
acts (R201): the BEATs and their timer as at an expiry, the choice change report, the entry report of the departed hook and
contact lines (R63), the grade timer, the pulse windows, the frame timer with a display report owed, the weather report timer,
and the first NSTA as at an expiry. R201 gives them no order; the order of its list and of the lines is the model's (log entry
11), and Toll Delivery's moment at the end is log entry 10. -/
def Obligations.ImagesAreAcceptedOrRejected : Prop :=
  (∀ (s : State) (img : List Byte),
    let num (off n : Nat) : Nat := natBE ((img.drop off).take n)
    let len := num 0 2
    let sound := 3 ≤ len ∧ len + 4 ≤ 4096 ∧ len + 4 ≤ img.length ∧
      (img.drop (len + 2)).take 2 = bytesBE 2 (crc16 (img.take (len + 2))).toNat ∧ 1 ≤ num 2 1 ∧ num 2 1 ≤ 240 ∧
      (num 3 1 = 1 ∨ num 3 1 = 2)
    let rejected : State := { s with node := .repeaterOnly, loadTimer := none, reach := State.reset.reach }
    (s.node ≠ .loading → exec (.configurationImageReadEnd (some img)) s = .next s ∧
      exec (.configurationImageReadEnd none) s = .next s ∧ exec .loadingReadTimeout s = .next s) ∧
    (s.node = .loading →
      exec .loadingReadTimeout s = .next rejected ∧ exec (.configurationImageReadEnd none) s = .next rejected ∧
      (¬ sound → exec (.configurationImageReadEnd (some img)) s = .next rejected) ∧
      (sound → ∃ (c : Config) (t : State), parseImage img = some c ∧
        t.node = .scanning ∧ t.cfg = c ∧ t.loadTimer = none ∧
        (∃ K : BitVec 32, t.time = { s.time with k := some K } ∧
          let d : Int := (if c.reference = .mhz25 then 25000000 else 19440000) * (1000000 + c.trim)
          let n : Int := 2 ^ 32 * 10 ^ 12
          2 * n < 2 * d * K.toNat + d ∧ 2 * d * K.toNat ≤ 2 * n + d) ∧
        (∀ l, t.inputs.line l = ⟨(s.inputs.line l).pin, (s.inputs.line l).pin, none⟩) ∧
        t.inputs.pulses = s.inputs.pulses ∧
        t.reach = { s.reach with east := s.reach.east.filter fun e => e.node != c.number,
                                 west := s.reach.west.filter fun e => e.node != c.number } ∧
        t.spool = { s.spool with scanReading := c.services.toll || s.spool.scanReading } ∧
        SameBut [.node, .cfg, .loadTimer, .time, .inputs, .reach, .spool] s t ∧
        exec (.configurationImageReadEnd (some img)) s =
          .next (if c.services.toll then t else t.enterRunning)))) ∧
  (∀ (img : List Byte) (c : Config), parseImage img = some c →
    let num (off n : Nat) : Nat := natBE ((img.drop off).take n)
    let sgn (off : Nat) : Int := if num off 2 < 32768 then num off 2 else (num off 2 : Int) - 65536
    let bit (off i : Nat) : Bool := (img.getD off 0).getLsbD i
    let has (off n : Nat) : Prop := off + n ≤ num 0 2 + 2
    let put (lo hi n : Nat) : Nat := max lo (min hi n)
    let nat (v off n dflt lo hi : Nat) : Prop := (has off n → v = put lo hi (num off n)) ∧ (¬ has off n → v = dflt)
    c.number = num 2 1 ∧ c.role = (if num 3 1 = 1 then .roadside else .terminus) ∧
    c.services = (if has 4 1 then ⟨bit 4 0, bit 4 1, bit 4 2, bit 4 3⟩ else ⟨false, false, false, false⟩) ∧
    nat c.beatInterval 5 2 100 50 1000 ∧ c.reference = (if has 7 1 ∧ num 7 1 = 2 then .mhz1944 else .mhz25) ∧
    c.trim = (if has 8 2 then max (-200) (min 200 (sgn 8)) else 0) ∧ nat c.dhop 10 1 30 0 255 ∧
    nat c.slew 11 2 2000 1 65535 ∧ nat c.window 13 2 40 0 1023 ∧
    (c.timeInput = true ↔ has 15 1 ∧ num 15 1 ≠ 0) ∧
    (∀ i, i < 9 → (c.resting.getLsbD i = true ↔ has 16 2 ∧ (num 16 2).testBit i = true) ∧
      (c.watch.getLsbD i = true ↔ (has 18 2 → (num 18 2).testBit i = true))) ∧
    (has 20 2 → c.pulseWindow = ⟨put 1 10 (num 20 1), put 1 10 (num 21 1)⟩) ∧ (¬ has 20 2 → c.pulseWindow = ⟨1, 1⟩) ∧
    (has 22 2 → c.depth = ⟨put 1 16 (num 22 1), put 1 16 (num 23 1)⟩) ∧ (¬ has 22 2 → c.depth = ⟨1, 1⟩) ∧
    (has 24 4 → c.scale = ⟨put 1 65535 (num 24 2), put 1 65535 (num 26 2)⟩) ∧ (¬ has 24 4 → c.scale = ⟨256, 256⟩) ∧
    nat c.consoleChannels 28 1 2 1 8 ∧ nat c.incidentZone 29 1 0 0 255 ∧ nat c.incidentHold 30 2 600 10 3600 ∧
    (c.codecSlaveA = true ↔ has 32 1 ∧ bit 32 0 = true) ∧ (c.codecSlaveB = true ↔ has 32 1 ∧ bit 32 1 = true) ∧
    c.runLength = (if has 33 1 then (if num 33 1 ≤ 1 then 1 else if num 33 1 ≤ 3 then 2 else 4) else 4) ∧
    c.clockMode = (if has 34 1 ∧ num 34 1 = 1 then .master1 else if has 34 1 ∧ num 34 1 = 3 then .master4
      else if has 34 1 ∧ num 34 1 = 4 then .slave else .master2) ∧
    (has 35 2 → c.eastZone = num 35 1 ∧ c.westZone = num 36 1) ∧ (¬ has 35 2 → c.eastZone = 5 ∧ c.westZone = 5) ∧
    nat c.reportInterval 37 2 60 10 600 ∧ nat c.nodeInterval 39 2 10 2 600 ∧
    c.ranges.length = 8 ∧ (∀ i, i < 8 → c.ranges[i]? =
      some (if has 41 32 then (sgn (41 + 4 * i), max (sgn (41 + 4 * i)) (sgn (43 + 4 * i))) else (-32768, 32767))) ∧
    c.rules.length = 8 ∧ (∀ i r, c.rules[i]? = some r →
      let o := 73 + 16 * i
      let pulse := num (o + 1) 1 ≠ 3 ∧ num (o + 1) 1 ≠ 4
      (¬ has 73 128 → r.kind = 0) ∧
      (has 73 128 → r.kind = min 14 (num o 1) ∧
        r.source = (if num (o + 1) 1 = 2 then .rain else if num (o + 1) 1 = 3 then .channel (Fin.ofNat 8 (min 7 (num (o + 2) 1)))
          else if num (o + 1) 1 = 4 then .contacts ((img.getD (o + 2) 0).setWidth 6) else .wind) ∧
        r.sense = (if num (o + 3) 1 = 2 then .below else .above) ∧
        (pulse → r.raiseAt = (num (o + 4) 2 : Int) ∧ r.clearAt = (num (o + 6) 2 : Int)) ∧
        (num (o + 1) 1 = 3 → r.raiseAt = sgn (o + 4) ∧ r.clearAt = sgn (o + 6)) ∧
        r.persistence = (if num (o + 1) 1 = 4 then 1 else put 1 15 (num (o + 8) 1)) ∧
        r.severity = put 1 3 (num (o + 9) 1) ∧ r.lifetime = put 10 86400 (num (o + 10) 3) ∧
        r.claim = (if num (o + 13) 1 = 0 then none
          else some (Fin.ofNat 4 (min 3 (num (o + 14) 1)), min 15 (num (o + 15) 1))))) ∧
    c.signWidth = (if has 201 2 ∧ num 201 2 ≠ 0 then put 32 256 (num 201 2) / 8 * 8 else 0) ∧
    nat c.signHeight 203 1 8 8 64 ∧ nat c.frameRate 204 2 200 100 400 ∧
    c.brightnessMode = (if has 206 1 ∧ num 206 1 = 2 then .mapped else .fixed) ∧ nat c.fixedLevel 207 1 16 1 16 ∧
    nat c.ambient 208 1 0 0 7 ∧
    (has 209 8 → c.breakpoints = [sgn 209, max (sgn 209) (sgn 211), max (max (sgn 209) (sgn 211)) (sgn 213),
      max (max (max (sgn 209) (sgn 211)) (sgn 213)) (sgn 215)]) ∧ (¬ has 209 8 → c.breakpoints = [50, 200, 1000, 5000]) ∧
    (has 217 5 → c.bandLevels = [217, 218, 219, 220, 221].map fun o => put 1 16 (num o 1)) ∧
    (¬ has 217 5 → c.bandLevels = [4, 8, 12, 16, 16]) ∧ nat c.powerBudget 222 3 1048575 1 1048575 ∧
    c.signRules.length = 16 ∧ (∀ i r, c.signRules[i]? = some r →
      let o := 225 + 4 * i
      (¬ has 225 64 → r.kind = 0) ∧
      (has 225 64 → r.kind = min 15 (num o 1) ∧ r.minSeverity = put 1 3 (num (o + 1) 1) ∧
        (r.page : Nat) = min 3 (num (o + 2) 1) ∧ r.priority = min 15 (num (o + 3) 1))) ∧
    c.colours.length = 16 ∧ (∀ i r, c.colours[i]? = some r → r = if i = 0 then ⟨0, 0⟩ else
      if has 289 32 then ⟨min 4 (num (289 + 2 * i) 1), (img.getD (290 + 2 * i) 0).setWidth 4⟩ else ⟨1, 1⟩)) ∧
  (∀ s u : State,
    let a : State := { s with node := .running }
    let o := (a.offerBeat .east).offerBeat .west
    let t : State := { o with reach := { s.reach with beatTimer := some ⟨s.refTime, s.cfg.beatInterval * 1000⟩ } }
    let r := t.terminusChoice.route
    let b : State := if r = t.reach.lastReported then t
      else (({ t with reach := { t.reach with lastReported := r } } : State).steerTo r).callsChoice r
    let lines : List (LevelLine × Nat) := [(.hookA, 0), (.hookB, 1), (.contact 0, 2), (.contact 1, 3), (.contact 2, 4),
      (.contact 3, 5), (.contact 4, 6), (.contact 5, 7)]
    let e : State := lines.foldl (fun (x : State) (l : LevelLine × Nat) =>
      if x.cfg.watch.getLsbD l.2 = true ∧ (x.inputs.line l.1).filtered ≠ x.cfg.resting.getLsbD l.2 then x.lineEvent l.1
      else x) b
    let timer (us : Nat) : Timer := some ⟨e.refTime, us⟩
    let window (p : PulseState) (w : Nat) : PulseState := { p with count := 0, window := timer (w * 1000000) }
    let f : State :=
      { e with
        time := { e.time with gradeTimer := if e.time.lock.isSome then none else timer (8 * e.cfg.beatInterval * 1000) }
        inputs := { e.inputs with pulses :=
          ⟨window e.inputs.pulses.wind e.cfg.pulseWindow.wind, window e.inputs.pulses.rain e.cfg.pulseWindow.rain⟩ }
        display := if e.cfg.services.sign = true ∧ e.cfg.signWidth ≠ 0 then
          { e.display with frameTimer := some ⟨e.refTime, e.cfg.frameRate⟩, owed := true } else e.display
        weather := if e.cfg.services.weather then
          { e.weather with reportTimer := timer (e.cfg.reportInterval * 1000000) } else e.weather }
    exec .statusTimerExpiry { f with equip := { f.equip with statusTimer := some ⟨0, 0⟩ } } = .next u →
    s.enterRunning = u.runToll)

/-- The start scan's reading taken into working memory, and how a generation mark ends (R102, R106, R119 to R122): slot and
sector states by content, the FILLING sector, the generation one above the highest of marks and records, the mark into the
first erased place or after an erase of the mark sector, one more place after a failure, and MARK-FAULT after that, also when
no erased place follows (log entry 17). FILLING becomes the candidate with the highest record of all candidates, else the
first in ring order after the sector with the highest record, else the first; without a candidate the first EMPTY sector in
the same order; the fill point is its number, or in a full spool that of the sector with the highest record, or none. The
other candidates become FULL, or RECLAIM, or BAD if weak, and the RECLAIM sectors make an OPEN batch (R113, R121). A settled
generation ends SCANNING, or a roll, at whose end Delivery builds and the arbiter then acts, inside the command (`runToll`,
log entry 10, DESIGN CHOICE); one that is taken without a mark is log entry 17. That no fault counter rises at the limit of a
generation mark or of a mark-sector erase is log entry 17 too (DEDUCED). While POWER-WARN is departed the next place, or place 0
of an erased mark sector, waits (R122), and in RUNNING the arbiter acts meanwhile. What an abandoned mark's place or a mark
sector that does not check erased holds is free (log entry 4). -/
def Obligations.TheScanAndItsGenerationMark : Prop :=
  ∀ (s : State), s.StoresRising →
    let hd (n : Nat) : Header := s.array.header n
    let passed (n : Nat) : Prop := (hd n).bad = true ∨ hd n = ⟨false, false, false⟩
    let held (g : Nat) : Prop := (∃ k, keyGet s.array.marks k = some g) ∨
      (∃ k c r, keyGet s.array.slots k = some c ∧ c.complete = true ∧ c.record = some r ∧ r.pos.gen = g)
    let settled (t : State) (g : Nat) (fault : Bool) : State :=
      let u : State := { t with spool := { t.spool with
        generation := g, nextSeq := 1, genJob := none, op := .idle, markFault := t.spool.markFault || fault } }
      if t.node = .scanning then u.enterRunning else u.runToll
    let staged (t : State) (j : GenJob) (o : ArrayOp) : State := { t with spool := { t.spool with genJob := some j, op := o } }
    (s.spool.scanReading = false → exec .startScanReadEnd s = .next s) ∧
    (s.spool.scanReading = true → s.spool.op = .idle → ∃ t, exec .startScanReadEnd s = .next t ∧
      SameBut [.spool] s t ∧ t.spool.scanReading = false ∧ t.spool.nextSeq = 1 ∧
      ((∀ g, ¬ held g) → t.spool.generation = 1) ∧
      (∀ g, held g → (∀ h, held h → h ≤ g) → t.spool.generation = if 65535 ≤ g then 1 else g + 1) ∧
      (∀ k, keyGet s.array.slots k = none → keyGet t.spool.slots k = none) ∧
      (∀ k c, keyGet s.array.slots k = some c →
        (passed (k / 32) ∨ c.complete = false → keyGet t.spool.slots k = some .void) ∧
        (∀ r, ¬ passed (k / 32) → c.complete = true → c.record = some r → keyGet t.spool.slots k =
          some (if c.delivered then .delivered r.pos false else .filled r.pos))) ∧
      (∀ n, n < 63 →
        let any := ∃ k, k / 32 = n ∧ keyGet s.array.slots k ≠ none
        let done := ∀ i, i < 32 → ∃ x, keyGet t.spool.slots (32 * n + i) = some x ∧ ∀ p, x ≠ .filled p
        let whole := ∀ i, i < 32 → keyGet s.array.slots (32 * n + i) ≠ none
        ((hd n).bad = true → (t.spool.sector n).state = .bad) ∧
        (hd n = ⟨false, false, false⟩ → any → (t.spool.sector n).state = .reclaim) ∧
        (hd n = ⟨false, false, false⟩ → ¬ any →
          (t.spool.sector n).state = .empty ∨ (t.spool.sector n).state = .filling) ∧
        (¬ passed n → (hd n).weak = true → done →
          (t.spool.sector n).state = .bad ∧ (t.spool.sector n).badMark = true) ∧
        (¬ passed n → (hd n).weak = false → done → (t.spool.sector n).state = .reclaim) ∧
        (¬ passed n → ¬ done → whole → (t.spool.sector n).state = .full)) ∧
      ((∀ k c, keyGet s.array.slots k = some c → k < 2016) →
        let slot (n i : Nat) := keyGet t.spool.slots (32 * n + i)
        let candidate (n : Nat) : Prop := n < 63 ∧ ¬ passed n ∧ (∃ i, i < 32 ∧ keyGet s.array.slots (32 * n + i) = none)
        let blank (n : Nat) : Prop := n < 63 ∧ hd n = ⟨false, false, false⟩ ∧ ∀ k, k / 32 = n → keyGet s.array.slots k = none
        let holds (n : Nat) (p : Position) : Prop := ¬ passed n ∧
          ∃ k c r, k / 32 = n ∧ keyGet s.array.slots k = some c ∧ c.complete = true ∧ c.record = some r ∧ r.pos = p
        let below (p q : Position) : Prop := p.gen < q.gen ∨ (p.gen = q.gen ∧ p.seq < q.seq)
        let top (g : Nat → Prop) (n : Nat) : Prop :=
          g n ∧ ∃ p, holds n p ∧ ∀ m q, g m → holds m q → m ≠ n → below q p
        let bare (g : Nat → Prop) : Prop := ∀ m q, g m → ¬ holds m q
        let first (g : Nat → Prop) (start n : Nat) : Prop :=
          g n ∧ ∀ m, g m → (n + (63 - start)) % 63 ≤ (m + (63 - start)) % 63
        let chosen (g : Nat → Prop) (n : Nat) : Prop :=
          (∃ h, top (fun m => m < 63) h ∧ first g (h + 1) n) ∨ (bare (fun m => m < 63) ∧ first g 0 n)
        let fills (n : Nat) : Prop := t.spool.fillPoint = some n ∧ (t.spool.sector n).state = .filling ∧
          ∀ m, (t.spool.sector m).state = .filling → m = n
        (∀ n, top candidate n → fills n) ∧
        (∀ n, bare candidate → chosen candidate n → fills n) ∧
        ((∀ n, ¬ candidate n) →
          (∀ n, chosen blank n → fills n) ∧
          ((∀ n, ¬ blank n) → (∀ m, (t.spool.sector m).state ≠ .filling) ∧
            (∀ h, top (fun m => m < 63) h → t.spool.fillPoint = some h) ∧
            (bare (fun m => m < 63) → t.spool.fillPoint = none))) ∧
        (∀ n, candidate n → (t.spool.sector n).state ≠ .filling →
          ((∃ i p, i < 32 ∧ slot n i = some (.filled p)) → (t.spool.sector n).state = .full) ∧
          ((∀ i p, i < 32 → slot n i ≠ some (.filled p)) →
            (t.spool.sector n).state = if (hd n).weak then .bad else .reclaim))) ∧
      ((∀ m, (t.spool.sector m).state ≠ .reclaim) → t.spool.batch = s.spool.batch) ∧
      (s.spool.batch = none → (∃ m, (t.spool.sector m).state = .reclaim) → ∃ b, t.spool.batch = some b ∧
        b.closed = false ∧ b.timer = some ⟨s.refTime, 80000⟩ ∧ ∀ m, m ∈ b.sectors ↔ (t.spool.sector m).state = .reclaim) ∧
      (let j : GenJob :=
        ⟨t.spool.generation, match s.array.erasedPlace 0 with
          | some k => .program k false
          | none => .eraseSector⟩
       t.spool.genJob = some j ∧
        t.spool.op = if s.powerFailing then .idle else (match s.array.erasedPlace 0 with
          | some k => .genMark k
          | none => .markSectorErase))) ∧
    (∀ place j, s.spool.op = .genMark place → s.spool.genJob = some j →
      let abandoned : State :=
        { s with
          array := { s.array with marks := match Config.freeMark s.freeCount with
            | some v => keySet s.array.marks place v
            | none => s.array.marks }
          freeCount := s.freeCount + 1 }
      exec .generationMarkProgramEnd s = .next (settled
        { s with array := { s.array with marks := keySet s.array.marks place j.value } } j.value false) ∧
      (∀ k, j.stage = .program place false → s.array.erasedPlace (place + 1) = some k → s.powerFailing = false →
        exec .generationMarkProgramLimit s = .next (staged abandoned ⟨j.value, .program k true⟩ (.genMark k))) ∧
      (∀ k, j.stage = .program place false → s.array.erasedPlace (place + 1) = some k → s.powerFailing = true →
        let t := staged abandoned ⟨j.value, .program k true⟩ .idle
        exec .generationMarkProgramLimit s = .next t.pump ∧ (s.node ≠ .running → t.pump = t)) ∧
      (j.stage = .program place false → s.array.erasedPlace (place + 1) = none →
        exec .generationMarkProgramLimit s = .next (settled abandoned j.value true)) ∧
      (j.stage = .program place true →
        exec .generationMarkProgramLimit s = .next (settled abandoned j.value true))) ∧
    ((∀ place, s.spool.op ≠ .genMark place) →
      exec .generationMarkProgramEnd s = .next s ∧ exec .generationMarkProgramLimit s = .next s) ∧
    (∀ j, s.spool.op = .markSectorErase → s.spool.genJob = some j →
      (s.powerFailing = false →
        let t := staged { s with array := { s.array with marks := [] } } ⟨j.value, .program 0 false⟩ (.genMark 0)
        exec (.markSectorEraseEnd true) s = .next t ∧ exec (.markSectorEraseLimit true) s = .next t) ∧
      (s.powerFailing = true →
        let t := staged { s with array := { s.array with marks := [] } } ⟨j.value, .program 0 false⟩ .idle
        exec (.markSectorEraseEnd true) s = .next t.pump ∧ exec (.markSectorEraseLimit true) s = .next t.pump ∧
        (s.node ≠ .running → t.pump = t)) ∧
      (∃ t, SameBut [.array, .freeCount] s t ∧ t.array.headers = s.array.headers ∧ t.array.slots = s.array.slots ∧
        exec (.markSectorEraseEnd false) s = .next (settled t j.value true) ∧
        exec (.markSectorEraseLimit false) s = .next (settled t j.value true))) ∧
    (∀ e, s.spool.op ≠ .markSectorErase →
      exec (.markSectorEraseEnd e) s = .next s ∧ exec (.markSectorEraseLimit e) s = .next s)

/-! ### What every step keeps -/

/-- Every step keeps both parts of the Reach View in order, each node once and within 16 entries (R30, R31, R32); the receipt
table with every expected position the successor of the last (R135, R138); the claim list within 8 claims, in falling
priority and one for each claimant (R160, R161, R162); and the outbound queue within 32 messages (R195). -/
def Obligations.TablesStaySound : Prop :=
  ∀ s t : State, step s = .next t →
    (s.reach.Sound → t.reach.Sound) ∧ (s.receipt.Sound → t.receipt.Sound) ∧
    (s.display.ListSound → t.display.ListSound) ∧ (s.equip.Fits → t.equip.Fits)

/-- Every step keeps the sign within 256 × 64 pixels, the pixel store in its canonical form with colours 0..15, and the
displayed page READY (R142, R144, R147). The canonical form is the model's own (log entry 14). -/
def Obligations.TheSignStaysSound : Prop :=
  ∀ s t : State, s.SignSound → step s = .next t → t.SignSound

/-- Every step keeps the stores of the spool and of the array in their canonical form: a slot, a sector and a mark place have
one content each (R101, R102, R103). The form is the model's own (log entry 14). -/
def Obligations.StoresStayCanonical : Prop :=
  ∀ s t : State, s.StoresRising → step s = .next t → t.StoresRising

/-- The state right after a start meets every invariant that the statements above keep (R1, R30, R103, R135, R144, R159,
R190). -/
def Obligations.TheStartMeetsEveryInvariant : Prop :=
  State.reset.PortsSound ∧ State.reset.reach.Sound ∧ State.reset.receipt.Sound ∧ State.reset.display.ListSound ∧
    State.reset.equip.Fits ∧ State.reset.SignSound ∧ State.reset.StoresRising
end

