-- ==== Sys2Proof/Laws/State.lean ====
section
/-! SUPPORT. The small lemmas of the state: what one record update leaves of the items, the ports, the call table, the pages
and the rules, and folds over the state. -/

namespace Sys2Proof.Machine

/-! ### One update and the items it leaves -/

@[simp] theorem item_set_node (s : State) (x : Part.Content .node) {part : Part}
    (h : part ≠ .node) : { s with node := x }.item part = s.item part := by
  cases part <;> first | rfl | exact absurd rfl h

@[simp] theorem item_set_cfg (s : State) (x : Part.Content .cfg) {part : Part}
    (h : part ≠ .cfg) : { s with cfg := x }.item part = s.item part := by
  cases part <;> first | rfl | exact absurd rfl h

@[simp] theorem item_set_loadTimer (s : State) (x : Part.Content .loadTimer) {part : Part}
    (h : part ≠ .loadTimer) : { s with loadTimer := x }.item part = s.item part := by
  cases part <;> first | rfl | exact absurd rfl h

@[simp] theorem item_set_east (s : State) (x : Part.Content .east) {part : Part}
    (h : part ≠ .east) : { s with east := x }.item part = s.item part := by
  cases part <;> first | rfl | exact absurd rfl h

@[simp] theorem item_set_west (s : State) (x : Part.Content .west) {part : Part}
    (h : part ≠ .west) : { s with west := x }.item part = s.item part := by
  cases part <;> first | rfl | exact absurd rfl h

@[simp] theorem item_set_clash (s : State) (x : Part.Content .clash) {part : Part}
    (h : part ≠ .clash) : { s with clash := x }.item part = s.item part := by
  cases part <;> first | rfl | exact absurd rfl h

@[simp] theorem item_set_reach (s : State) (x : Part.Content .reach) {part : Part}
    (h : part ≠ .reach) : { s with reach := x }.item part = s.item part := by
  cases part <;> first | rfl | exact absurd rfl h

@[simp] theorem item_set_time (s : State) (x : Part.Content .time) {part : Part}
    (h : part ≠ .time) : { s with time := x }.item part = s.item part := by
  cases part <;> first | rfl | exact absurd rfl h

@[simp] theorem item_set_inputs (s : State) (x : Part.Content .inputs) {part : Part}
    (h : part ≠ .inputs) : { s with inputs := x }.item part = s.item part := by
  cases part <;> first | rfl | exact absurd rfl h

@[simp] theorem item_set_calls (s : State) (x : Part.Content .calls) {part : Part}
    (h : part ≠ .calls) : { s with calls := x }.item part = s.item part := by
  cases part <;> first | rfl | exact absurd rfl h

@[simp] theorem item_set_array (s : State) (x : Part.Content .array) {part : Part}
    (h : part ≠ .array) : { s with array := x }.item part = s.item part := by
  cases part <;> first | rfl | exact absurd rfl h

@[simp] theorem item_set_spool (s : State) (x : Part.Content .spool) {part : Part}
    (h : part ≠ .spool) : { s with spool := x }.item part = s.item part := by
  cases part <;> first | rfl | exact absurd rfl h

@[simp] theorem item_set_sending (s : State) (x : Part.Content .sending) {part : Part}
    (h : part ≠ .sending) : { s with sending := x }.item part = s.item part := by
  cases part <;> first | rfl | exact absurd rfl h

@[simp] theorem item_set_receipt (s : State) (x : Part.Content .receipt) {part : Part}
    (h : part ≠ .receipt) : { s with receipt := x }.item part = s.item part := by
  cases part <;> first | rfl | exact absurd rfl h

@[simp] theorem item_set_pages (s : State) (x : Part.Content .pages) {part : Part}
    (h : part ≠ .pages) : { s with pages := x }.item part = s.item part := by
  cases part <;> first | rfl | exact absurd rfl h

@[simp] theorem item_set_display (s : State) (x : Part.Content .display) {part : Part}
    (h : part ≠ .display) : { s with display := x }.item part = s.item part := by
  cases part <;> first | rfl | exact absurd rfl h

@[simp] theorem item_set_weather (s : State) (x : Part.Content .weather) {part : Part}
    (h : part ≠ .weather) : { s with weather := x }.item part = s.item part := by
  cases part <;> first | rfl | exact absurd rfl h

@[simp] theorem item_set_equip (s : State) (x : Part.Content .equip) {part : Part}
    (h : part ≠ .equip) : { s with equip := x }.item part = s.item part := by
  cases part <;> first | rfl | exact absurd rfl h

@[simp] theorem item_set_refTime (s : State) (x : Part.Content .refTime) {part : Part}
    (h : part ≠ .refTime) : { s with refTime := x }.item part = s.item part := by
  cases part <;> first | rfl | exact absurd rfl h

@[simp] theorem item_set_freeCount (s : State) (x : Part.Content .freeCount) {part : Part}
    (h : part ≠ .freeCount) : { s with freeCount := x }.item part = s.item part := by
  cases part <;> first | rfl | exact absurd rfl h

@[simp] theorem item_set_pending (s : State) (x : Part.Content .pending) {part : Part}
    (h : part ≠ .pending) : { s with pending := x }.item part = s.item part := by
  cases part <;> first | rfl | exact absurd rfl h

@[simp] theorem item_set_array_spool (s : State) (x0 : Part.Content .array) (x1 : Part.Content .spool) {part : Part}
    (h0 : part ≠ .array) (h1 : part ≠ .spool) : { s with array := x0, spool := x1 }.item part = s.item part := by
  cases part <;> simp_all [State.item]

@[simp] theorem item_set_array_freeCount (s : State) (x0 : Part.Content .array) (x1 : Part.Content .freeCount) {part : Part}
    (h0 : part ≠ .array) (h1 : part ≠ .freeCount) : { s with array := x0, freeCount := x1 }.item part = s.item part := by
  cases part <;> simp_all [State.item]

@[simp] theorem item_set_spool_sending (s : State) (x0 : Part.Content .spool) (x1 : Part.Content .sending) {part : Part}
    (h0 : part ≠ .spool) (h1 : part ≠ .sending) : { s with spool := x0, sending := x1 }.item part = s.item part := by
  cases part <;> simp_all [State.item]

@[simp] theorem item_set_time_refTime (s : State) (x0 : Part.Content .time) (x1 : Part.Content .refTime) {part : Part}
    (h0 : part ≠ .time) (h1 : part ≠ .refTime) : { s with time := x0, refTime := x1 }.item part = s.item part := by
  cases part <;> simp_all [State.item]

@[simp] theorem item_set_node_loadTimer_reach (s : State) (x0 : Part.Content .node) (x1 : Part.Content .loadTimer) (x2 : Part.Content .reach) {part : Part}
    (h0 : part ≠ .node) (h1 : part ≠ .loadTimer) (h2 : part ≠ .reach) : { s with node := x0, loadTimer := x1, reach := x2 }.item part = s.item part := by
  cases part <;> simp_all [State.item]

@[simp] theorem item_set_node_cfg_loadTimer_time (s : State) (x0 : Part.Content .node) (x1 : Part.Content .cfg) (x2 : Part.Content .loadTimer) (x3 : Part.Content .time) {part : Part}
    (h0 : part ≠ .node) (h1 : part ≠ .cfg) (h2 : part ≠ .loadTimer) (h3 : part ≠ .time) : { s with node := x0, cfg := x1, loadTimer := x2, time := x3 }.item part = s.item part := by
  cases part <;> simp_all [State.item]

/-- A fold leaves an item that each of its steps leaves. -/
@[simp] theorem foldl_item {β : Type} (f : State → β → State) (l : List β) (s : State) {part : Part}
    (h : ∀ t b, (f t b).item part = t.item part) : (l.foldl f s).item part = s.item part := by
  induction l generalizing s with
  | nil => rfl
  | cons a l ih => rw [List.foldl_cons, ih, h]

/-! ### Reading back what was put -/

@[simp] theorem State.port_setPort (s : State) (p : PortId) (q : LinePort) : (s.setPort p q).port p = q := by
  cases p <;> rfl

@[simp] theorem State.port_setPort_opposite (s : State) (p : PortId) (q : LinePort) :
    (s.setPort p q).port (opposite p) = s.port (opposite p) := by cases p <;> rfl

theorem State.port_setPort_ne (s : State) {p r : PortId} (q : LinePort) (h : r ≠ p) :
    (s.setPort p q).port r = s.port r := by cases p <;> cases r <;> first | rfl | exact absurd rfl h

@[simp] theorem opposite_opposite (p : PortId) : opposite (opposite p) = p := by cases p <;> rfl

theorem opposite_ne (p : PortId) : opposite p ≠ p := by cases p <;> decide

@[simp] theorem ReachView.part_setPart (r : ReachView) (p : PortId) (l : List ReachEntry) :
    (r.setPart p l).part p = l := by cases p <;> rfl

@[simp] theorem ReachView.part_setPart_opposite (r : ReachView) (p : PortId) (l : List ReachEntry) :
    (r.setPart p l).part (opposite p) = r.part (opposite p) := by cases p <;> rfl

@[simp] theorem pulseGet_pulseSet {α : Type} (v : PerPulse α) (c : PulseId) (x : α) :
    pulseGet (pulseSet v c x) c = x := by cases c <;> rfl

@[simp] theorem Calls.phone_setPhone (c : Calls) (ph : PhoneId) (v : PhonePort) : (c.setPhone ph v).phone ph = v := by
  cases ph <;> rfl

@[simp] theorem Inputs.line_setLine (i : Inputs) (l : LevelLine) (v : LevelState) : (i.setLine l v).line l = v := by
  cases l <;> simp [Inputs.line, Inputs.setLine]

theorem Inputs.line_setLine_ne (i : Inputs) {l r : LevelLine} (v : LevelState) (h : r ≠ l) :
    (i.setLine l v).line r = i.line r := by
  cases l <;> cases r <;> simp_all [Inputs.line, Inputs.setLine, Vector.getElem_set, Fin.ext_iff, eq_comm]

@[simp] theorem State.call_setCall (s : State) (e : Fin 8) (c : Option CallEntry) : (s.setCall e c).call e = c := by
  simp [State.call, State.setCall]

theorem State.call_setCall_ne (s : State) {e f : Fin 8} (c : Option CallEntry) (h : f ≠ e) :
    (s.setCall e c).call f = s.call f := by
  simp [State.call, State.setCall, Vector.getElem_set, Fin.ext_iff] at h ⊢
  intro h'; exact absurd h'.symm h

@[simp] theorem State.record_setRecord (s : State) (p : Fin 4) (r : PageRecord) :
    (s.setRecord p r).pages.records[p] = r := by simp [State.setRecord]

@[simp] theorem State.pixels_setRecord (s : State) (p : Fin 4) (r : PageRecord) :
    (s.setRecord p r).pages.pixels = s.pages.pixels := rfl

@[simp] theorem State.rules_setRule (s : State) (n : Fin 8) (w : RuleWork) : (s.setRule n w).weather.rules[n] = w := by
  simp [State.setRule]

@[simp] theorem State.outbound_placeTail (s : State) (m : CabMsg) :
    (s.placeTail m).equip.outbound = s.equip.outbound ++ [m] := rfl

@[simp] theorem LinePort.lane_setLane (q : LinePort) (u : Bool) (l : Lane) : (q.setLane u l).lane u = l := by
  cases u <;> rfl

@[simp] theorem LinePort.lane_setLane_not (q : LinePort) (u : Bool) (l : Lane) : (q.setLane u l).lane (!u) = q.lane (!u) := by
  cases u <;> rfl

@[simp] theorem LinePort.state_setLane (q : LinePort) (u : Bool) (l : Lane) : (q.setLane u l).state = q.state := by
  cases u <;> rfl

@[simp] theorem LinePort.sending_setLane (q : LinePort) (u : Bool) (l : Lane) : (q.setLane u l).sending = q.sending := by
  cases u <;> rfl

end Sys2Proof.Machine
end

