-- ==== Sys2Proof/Laws/Items.lean ====
section
/-! SUPPORT. For each shared operation, the items of the state it can change: every other item is as before. -/

namespace Sys2Proof.Machine

/-! ### State -/

@[simp] theorem State.setPort_item (s : State) (p : PortId) (q : LinePort) {part : Part}
    (h : part ∉ ([.east, .west] : List Part)) :
    (s.setPort p q).item part = s.item part := by
  simp at h; unfold State.setPort; (try dsimp only); (repeat' split) <;> simp_all

/-! ### Line ports and outbound queue -/

@[simp] theorem State.takeBit_item (s : State) {part : Part} (h : part ∉ ([.freeCount] : List Part)) :
    s.takeBit.2.item part = s.item part := by simp at h; simp [State.takeBit, h]

@[simp] theorem State.arbitrate_item (s : State) (p : PortId) {part : Part}
    (h : part ∉ ([.east, .west] : List Part)) :
    (s.arbitrate p).item part = s.item part := by
  simp at h; unfold State.arbitrate; (try dsimp only); (repeat' split) <;> simp_all

@[simp] theorem State.offer_item (s : State) (p : PortId) (f : Frame) {part : Part}
    (h : part ∉ ([.east, .west] : List Part)) :
    (s.offer p f).item part = s.item part := by
  simp at h; unfold State.offer; (try dsimp only); (repeat' split) <;> simp_all

@[simp] theorem State.offerOn_item (s : State) (p : Option PortId) (f : Frame) {part : Part}
    (h : part ∉ ([.east, .west] : List Part)) :
    (s.offerOn p f).item part = s.item part := by
  simp at h; unfold State.offerOn; (try dsimp only); (repeat' split) <;> simp_all

@[simp] theorem State.transitOffer_item (s : State) (p : PortId) (f : Frame) {part : Part}
    (h : part ∉ ([.east, .west] : List Part)) :
    (s.transitOffer p f).item part = s.item part := by
  simp at h; unfold State.transitOffer; (try dsimp only); (repeat' split) <;> simp_all

@[simp] theorem State.forward_item (s : State) (p : PortId) (f : Frame) {part : Part}
    (h : part ∉ ([.east, .west] : List Part)) :
    (s.forward p f).item part = s.item part := by
  simp at h; unfold State.forward; (try dsimp only); (repeat' split) <;> simp_all

@[simp] theorem State.offerBeat_item (s : State) (p : PortId) {part : Part}
    (h : part ∉ ([.east, .west] : List Part)) :
    (s.offerBeat p).item part = s.item part := by
  simp at h; unfold State.offerBeat; (try dsimp only); (repeat' split) <;> simp_all

@[simp] theorem State.startBeats_item (s : State) {part : Part} (h : part ∉ ([.east, .west, .reach] : List Part)) :
    s.startBeats.item part = s.item part := by
  simp at h; simp [State.startBeats, h]

@[simp] theorem State.placeTail_item (s : State) (m : CabMsg) {part : Part} (h : part ∉ ([.equip] : List Part)) :
    (s.placeTail m).item part = s.item part := by
  simp at h; simp [State.placeTail, h]

@[simp] theorem State.placeOrDrop_item (s : State) (m : CabMsg) {part : Part} (h : part ∉ ([.equip] : List Part)) :
    (s.placeOrDrop m).item part = s.item part := by
  simp at h; unfold State.placeOrDrop; (try dsimp only); (repeat' split) <;> simp_all

@[simp] theorem State.drainAnswer_item (s : State) {part : Part} (h : part ∉ ([.spool, .equip] : List Part)) :
    s.drainAnswer.item part = s.item part := by
  simp at h; unfold State.drainAnswer; (repeat' split) <;> simp_all

@[simp] theorem State.answerSpool_item (s : State) (m : CabMsg) {part : Part}
    (h : part ∉ ([.spool, .equip] : List Part)) :
    (s.answerSpool m).item part = s.item part := by
  simp at h; unfold State.answerSpool; (try dsimp only); (repeat' split) <;> simp_all

@[simp] theorem State.callMessage_item (s : State) (m : CabMsg) {part : Part}
    (h : part ∉ ([.calls, .equip] : List Part)) :
    (s.callMessage m).item part = s.item part := by
  simp at h; unfold State.callMessage; (try dsimp only); (repeat' split) <;> simp_all

/-! ### Signs -/

@[simp] theorem State.signReport_item (s : State) (addressee : Nat) (fallback : Option PortId)
    (payload : List Byte) {part : Part}
    (h : part ∉ ([.east, .west, .equip] : List Part)) :
    (s.signReport addressee fallback payload).item part = s.item part := by
  simp at h; unfold State.signReport; (try dsimp only); (repeat' split) <;> simp_all

@[simp] theorem State.loadReport_item (s : State) (page : Fin 4) (loadId : Byte) (index : Nat) (o : LoadOutcome)
    (addressee : Nat) (fallback : Option PortId) {part : Part}
    (h : part ∉ ([.east, .west, .equip] : List Part)) :
    (s.loadReport page loadId index o addressee fallback).item part = s.item part := by
  simp at h; simp [State.loadReport, h]

@[simp] theorem State.recordReport_item (s : State) (page : Fin 4) (index : Nat) (o : LoadOutcome) {part : Part}
    (h : part ∉ ([.east, .west, .equip] : List Part)) :
    (s.recordReport page index o).item part = s.item part := by
  simp at h; unfold State.recordReport; (try dsimp only); (repeat' split) <;> simp_all

@[simp] theorem State.setRecord_item (s : State) (page : Fin 4) (r : PageRecord) {part : Part}
    (h : part ∉ ([.pages] : List Part)) :
    (s.setRecord page r).item part = s.item part := by
  simp at h; simp [State.setRecord, h]

@[simp] theorem State.abortLoad_item (s : State) (page : Fin 4) (o : LoadOutcome) {part : Part}
    (h : part ∉ ([.east, .west, .pages, .equip] : List Part)) :
    (s.abortLoad page o).item part = s.item part := by
  simp at h; simp [State.abortLoad, h]

@[simp] theorem State.completeLoad_item (s : State) (page : Fin 4) {part : Part}
    (h : part ∉ ([.east, .west, .pages, .equip] : List Part)) :
    (s.completeLoad page).item part = s.item part := by
  simp at h; simp [State.completeLoad, h]

@[simp] theorem State.refuseSdat_item (s : State) (d : Sdat) (origin : Nat) (port : Option PortId)
    (o : LoadOutcome) {part : Part}
    (h : part ∉ ([.east, .west, .pages, .equip] : List Part)) :
    (s.refuseSdat d origin port o).item part = s.item part := by
  simp at h; simp [State.refuseSdat, h]

@[simp] theorem State.duplicateSdat_item (s : State) {part : Part} (h : part ∉ ([.pages] : List Part)) :
    s.duplicateSdat.item part = s.item part := by
  simp at h; simp [State.duplicateSdat, h]

@[simp] theorem State.supersede_item (s : State) (page : Fin 4) {part : Part}
    (h : part ∉ ([.east, .west, .pages, .equip] : List Part)) :
    (s.supersede page).item part = s.item part := by
  simp at h; unfold State.supersede; (try dsimp only); (repeat' split) <;> simp_all

@[simp] theorem State.beginLoad_item (s : State) (d : Sdat) (origin : Nat) (port : Option PortId) {part : Part}
    (h : part ∉ ([.east, .west, .pages, .equip] : List Part)) :
    (s.beginLoad d origin port).item part = s.item part := by
  simp at h; unfold State.beginLoad; (try dsimp only); (repeat' split) <;> simp_all

@[simp] theorem State.continueLoad_item (s : State) (d : Sdat) (origin : Nat) (port : Option PortId) {part : Part}
    (h : part ∉ ([.east, .west, .pages, .equip, .freeCount] : List Part)) :
    (s.continueLoad d origin port).item part = s.item part := by
  simp at h; unfold State.continueLoad; (try dsimp only); (repeat' split) <;> simp_all

@[simp] theorem State.takeSdat_item (s : State) (origin : Nat) (port : Option PortId) (payload : List Byte)
    {part : Part}
    (h : part ∉ ([.east, .west, .pages, .equip, .freeCount] : List Part)) :
    (s.takeSdat origin port payload).item part = s.item part := by
  simp at h; unfold State.takeSdat; (try dsimp only); (repeat' split) <;> simp_all

@[simp] theorem State.claimReport_item (s : State) (command outcome page priority removed : Nat) (addressee : Nat)
    (fallback : Option PortId) {part : Part}
    (h : part ∉ ([.east, .west, .equip] : List Part)) :
    (s.claimReport command outcome page priority removed addressee fallback).item part = s.item part := by
  simp at h; simp [State.claimReport, h]

@[simp] theorem State.claimRequest_item (s : State) (c : Claim) {part : Part}
    (h : part ∉ ([.east, .west, .display, .equip] : List Part)) :
    (s.claimRequest c).item part = s.item part := by
  simp at h; unfold State.claimRequest; (try dsimp only); (repeat' split) <;> simp_all

@[simp] theorem State.ruleClaim_item (s : State) (n : Fin 8) (page : Fin 4) (priority lifetime : Nat) {part : Part}
    (h : part ∉ ([.east, .west, .display, .equip] : List Part)) :
    (s.ruleClaim n page priority lifetime).item part = s.item part := by
  simp at h; unfold State.ruleClaim; (try dsimp only); (repeat' split) <;> simp_all

@[simp] theorem State.withdrawClaim_item (s : State) (who : Claimant) {part : Part}
    (h : part ∉ ([.display] : List Part)) :
    (s.withdrawClaim who).item part = s.item part := by
  simp at h; simp [State.withdrawClaim, h]

@[simp] theorem State.ruleWithdraw_item (s : State) (n : Fin 8) {part : Part} (h : part ∉ ([.display] : List Part)) :
    (s.ruleWithdraw n).item part = s.item part := by
  simp at h; unfold State.ruleWithdraw; (try dsimp only); (repeat' split) <;> simp_all

@[simp] theorem State.alertItem_item (s : State) (origin : Nat) (a : AlertItem) {part : Part}
    (h : part ∉ ([.east, .west, .display, .equip] : List Part)) :
    (s.alertItem origin a).item part = s.item part := by
  simp at h; unfold State.alertItem; (try dsimp only); (repeat' split) <;> simp_all

@[simp] theorem State.takeWalr_item (s : State) (origin : Nat) (payload : List Byte) {part : Part}
    (h : part ∉ ([.east, .west, .display, .equip] : List Part)) :
    (s.takeWalr origin payload).item part = s.item part := by
  simp at h; unfold State.takeWalr; (try dsimp only); (repeat' split) <;> first
    | exact foldl_item _ _ _ fun t b => by first | split <;> simp [h] | simp [h]
    | simp_all

@[simp] theorem State.takeClaim_item (s : State) (origin : Nat) (port : Option PortId) (page : Fin 4)
    (priority lifetime : Nat) (showAt : Option LTime) {part : Part}
    (h : part ∉ ([.east, .west, .display, .equip] : List Part)) :
    (s.takeClaim origin port page priority lifetime showAt).item part = s.item part := by
  simp at h; simp [State.takeClaim, h]

@[simp] theorem State.takeScmd_item (s : State) (origin : Nat) (port : Option PortId) (payload : List Byte)
    {part : Part}
    (h : part ∉ ([.east, .west, .display, .equip] : List Part)) :
    (s.takeScmd origin port payload).item part = s.item part := by
  simp at h; unfold State.takeScmd; (try dsimp only); (repeat' split) <;> simp_all

/-! ### Calls -/

@[simp] theorem State.takeRef_item (s : State) {part : Part} (h : part ∉ ([.calls] : List Part)) :
    s.takeRef.2.item part = s.item part := by simp at h; simp [State.takeRef, h]

@[simp] theorem State.setCall_item (s : State) (e : Fin 8) (c : Option CallEntry) {part : Part}
    (h : part ∉ ([.calls] : List Part)) :
    (s.setCall e c).item part = s.item part := by
  simp at h; simp [State.setCall, h]

@[simp] theorem State.earpiece_item (s : State) (ph : PhoneId) (t : Option Tone) {part : Part}
    (h : part ∉ ([.calls] : List Part)) :
    (s.earpiece ph t).item part = s.item part := by
  simp at h; simp [State.earpiece, h]

@[simp] theorem State.entryTone_item (s : State) (c : CallEntry) (t : Option Tone) {part : Part}
    (h : part ∉ ([.calls] : List Part)) :
    (s.entryTone c t).item part = s.item part := by
  simp at h; unfold State.entryTone; (try dsimp only); (repeat' split) <;> simp_all

@[simp] theorem State.startRing_item (s : State) (ph : PhoneId) {part : Part} (h : part ∉ ([.calls] : List Part)) :
    (s.startRing ph).item part = s.item part := by
  simp at h; simp [State.startRing, h]

@[simp] theorem State.stopRing_item (s : State) (ph : PhoneId) {part : Part} (h : part ∉ ([.calls] : List Part)) :
    (s.stopRing ph).item part = s.item part := by
  simp at h; simp [State.stopRing, h]

@[simp] theorem State.freePhoneCall_item (s : State) (e : Fin 8) (c : CallEntry) {part : Part}
    (h : part ∉ ([.calls] : List Part)) :
    (s.freePhoneCall e c).item part = s.item part := by
  simp at h; unfold State.freePhoneCall; (try dsimp only); (repeat' split) <;> simp_all

@[simp] theorem State.offerCall_item (s : State) (far : Option Nat) (port : Option PortId) (k : FrameKind)
    (payload : List Byte) {part : Part}
    (h : part ∉ ([.east, .west] : List Part)) :
    (s.offerCall far port k payload).item part = s.item part := by
  simp at h; unfold State.offerCall; (try dsimp only); (repeat' split) <;> simp_all

@[simp] theorem State.sendAnswer_item (s : State) (c : CallEntry) (a : CallAnswer) (position : Nat) {part : Part}
    (h : part ∉ ([.east, .west] : List Part)) :
    (s.sendAnswer c a position).item part = s.item part := by
  simp at h; simp [State.sendAnswer, h]

@[simp] theorem State.sendBusy_item (s : State) (r : CallRef) (origin : Nat) (p : PortId) {part : Part}
    (h : part ∉ ([.east, .west] : List Part)) :
    (s.sendBusy r origin p).item part = s.item part := by
  simp at h; simp [State.sendBusy, h]

@[simp] theorem State.offerRelease_item (s : State) (r : Release) {part : Part}
    (h : part ∉ ([.east, .west] : List Part)) :
    (s.offerRelease r).item part = s.item part := by
  simp at h; simp [State.offerRelease, h]

@[simp] theorem State.placeRelease_item (s : State) (ref : CallRef) (far : Nat) (port : Option PortId)
    (cause : ReleaseCause) {part : Part}
    (h : part ∉ ([.east, .west, .calls] : List Part)) :
    (s.placeRelease ref far port cause).item part = s.item part := by
  simp at h; simp [State.placeRelease, h]

@[simp] theorem State.releaseEntry_item (s : State) (c : CallEntry) (cause : ReleaseCause) {part : Part}
    (h : part ∉ ([.east, .west, .calls] : List Part)) :
    (s.releaseEntry c cause).item part = s.item part := by
  simp at h; unfold State.releaseEntry; (try dsimp only); (repeat' split) <;> simp_all

@[simp] theorem State.offerCreq_item (s : State) (c : CallEntry) (q : CallRequest) (phone : Option PhoneId)
    {part : Part}
    (h : part ∉ ([.east, .west] : List Part)) :
    (s.offerCreq c q phone).item part = s.item part := by
  simp at h; simp [State.offerCreq, h]

@[simp] theorem State.attempt_item (s : State) (e : Fin 8) (c : CallEntry) {part : Part}
    (h : part ∉ ([.east, .west, .calls] : List Part)) :
    (s.attempt e c).item part = s.item part := by
  simp at h; simp [State.attempt, h]

@[simp] theorem State.slowAttempt_item (s : State) (e : Fin 8) (c : CallEntry) {part : Part}
    (h : part ∉ ([.east, .west, .calls] : List Part)) :
    (s.slowAttempt e c).item part = s.item part := by
  simp at h; simp [State.slowAttempt, h]

@[simp] theorem State.askAgain_item (s : State) (e : Fin 8) (c : CallEntry) {part : Part}
    (h : part ∉ ([.east, .west, .calls] : List Part)) :
    (s.askAgain e c).item part = s.item part := by
  simp at h; unfold State.askAgain; (try dsimp only); (repeat' split) <;> simp_all

@[simp] theorem State.emitVoice_item (s : State) (c : CallEntry) (samples : List Byte) {part : Part}
    (h : part ∉ ([.calls, .equip] : List Part)) :
    (s.emitVoice c samples).item part = s.item part := by
  simp at h; unfold State.emitVoice; (try dsimp only); (repeat' split) <;> simp_all

@[simp] theorem State.startPlayout_item (s : State) (e : Fin 8) (c : CallEntry) {part : Part}
    (h : part ∉ ([.calls, .equip] : List Part)) :
    (s.startPlayout e c).item part = s.item part := by
  simp at h; unfold State.startPlayout; (try dsimp only); (repeat' split) <;> simp_all

@[simp] theorem State.playoutArrival_item (s : State) (e : Fin 8) (c : CallEntry) (f : VoiceFrame) {part : Part}
    (h : part ∉ ([.calls, .equip] : List Part)) :
    (s.playoutArrival e c f).item part = s.item part := by
  simp at h; unfold State.playoutArrival; (try dsimp only); (repeat' split) <;> simp_all

@[simp] theorem State.sendVoice_item (s : State) (e : Fin 8) (c : CallEntry) (samples : List Byte) {part : Part}
    (h : part ∉ ([.east, .west, .calls] : List Part)) :
    (s.sendVoice e c samples).item part = s.item part := by
  simp at h; simp [State.sendVoice, h]

@[simp] theorem State.enterTalking_item (s : State) (e : Fin 8) (c : CallEntry) {part : Part}
    (h : part ∉ ([.calls] : List Part)) :
    (s.enterTalking e c).item part = s.item part := by
  simp at h; simp [State.enterTalking, h]

@[simp] theorem State.enterWaiting_item (s : State) (e : Fin 8) (c : CallEntry) (position : Nat) {part : Part}
    (h : part ∉ ([.calls] : List Part)) :
    (s.enterWaiting e c position).item part = s.item part := by
  simp at h; simp [State.enterWaiting, h]

@[simp] theorem State.enterResuming_item (s : State) (e : Fin 8) (c : CallEntry) {part : Part}
    (h : part ∉ ([.east, .west, .calls] : List Part)) :
    (s.enterResuming e c).item part = s.item part := by
  simp at h; simp [State.enterResuming, h]

@[simp] theorem State.enterCleared_item (s : State) (e : Fin 8) (c : CallEntry) {part : Part}
    (h : part ∉ ([.calls] : List Part)) :
    (s.enterCleared e c).item part = s.item part := by
  simp at h; simp [State.enterCleared, h]

@[simp] theorem State.backToAsking_item (s : State) (e : Fin 8) (c : CallEntry) {part : Part}
    (h : part ∉ ([.calls] : List Part)) :
    (s.backToAsking e c).item part = s.item part := by
  simp at h; simp [State.backToAsking, h]

@[simp] theorem State.waitAfterBusy_item (s : State) (e : Fin 8) (c : CallEntry) {part : Part}
    (h : part ∉ ([.calls] : List Part)) :
    (s.waitAfterBusy e c).item part = s.item part := by
  simp at h; simp [State.waitAfterBusy, h]

@[simp] theorem State.roadsideAnswer_item (s : State) (e : Fin 8) (c : CallEntry) (a : Cacc) {part : Part}
    (h : part ∉ ([.calls] : List Part)) :
    (s.roadsideAnswer e c a).item part = s.item part := by
  simp at h; unfold State.roadsideAnswer; (try dsimp only); (repeat' split) <;> simp_all

@[simp] theorem State.incidentAlert_item (s : State) {part : Part}
    (h : part ∉ ([.east, .west, .display, .equip] : List Part)) :
    s.incidentAlert.item part = s.item part := by
  simp at h; unfold State.incidentAlert; (try dsimp only); (repeat' split) <;> simp_all

@[simp] theorem State.startEmergencyCall_item (s : State) (ph : PhoneId) {part : Part}
    (h : part ∉ ([.east, .west, .calls, .display, .equip] : List Part)) :
    (s.startEmergencyCall ph).item part = s.item part := by
  simp at h; unfold State.startEmergencyCall; (try dsimp only); (repeat' split) <;> simp_all

@[simp] theorem State.answerRing_item (s : State) (e : Fin 8) (c : CallEntry) (ph : PhoneId) {part : Part}
    (h : part ∉ ([.east, .west, .calls] : List Part)) :
    (s.answerRing e c ph).item part = s.item part := by
  simp at h; simp [State.answerRing, h]

@[simp] theorem State.hookDepart_item (s : State) (ph : PhoneId) {part : Part}
    (h : part ∉ ([.east, .west, .calls, .display, .equip] : List Part)) :
    (s.hookDepart ph).item part = s.item part := by
  simp at h; unfold State.hookDepart; (try dsimp only); (repeat' split) <;> simp_all

@[simp] theorem State.hookReturn_item (s : State) (ph : PhoneId) {part : Part}
    (h : part ∉ ([.east, .west, .calls] : List Part)) :
    (s.hookReturn ph).item part = s.item part := by
  simp at h; unfold State.hookReturn; (try dsimp only); (repeat' split) <;> simp_all

@[simp] theorem State.choiceAttempt_item (s : State) (e : Fin 8) (c : CallEntry) {part : Part}
    (h : part ∉ ([.east, .west, .calls] : List Part)) :
    (s.choiceAttempt e c).item part = s.item part := by
  simp at h; unfold State.choiceAttempt; split <;> simp [h]

@[simp] theorem State.choiceForCall_item (n : Nat) (p : PortId) (s : State) (e : Fin 8) {part : Part}
    (h : part ∉ ([.east, .west, .calls] : List Part)) :
    (State.choiceForCall n p s e).item part = s.item part := by
  simp at h; unfold State.choiceForCall; (try dsimp only); (repeat' split) <;> simp_all

@[simp] theorem State.callsChoice_item (s : State) (r : Route) {part : Part}
    (h : part ∉ ([.east, .west, .calls] : List Part)) :
    (s.callsChoice r).item part = s.item part := by
  simp at h; unfold State.callsChoice; (try dsimp only); (repeat' split) <;> first
    | exact foldl_item _ _ _ fun t b => by first | split <;> simp [h] | simp [h]
    | simp_all

@[simp] theorem State.lossForCall_item (n : Nat) (s : State) (e : Fin 8) {part : Part}
    (h : part ∉ ([.east, .west, .calls] : List Part)) :
    (State.lossForCall n s e).item part = s.item part := by
  simp at h; unfold State.lossForCall; (try dsimp only); (repeat' split) <;> simp_all

@[simp] theorem State.callsLoss_item (s : State) (n : Nat) {part : Part}
    (h : part ∉ ([.east, .west, .calls] : List Part)) :
    (s.callsLoss n).item part = s.item part := by
  simp at h; simp [State.callsLoss, h]

@[simp] theorem State.leaveWait_item (s : State) (e : Fin 8) {part : Part} (h : part ∉ ([.calls] : List Part)) :
    (s.leaveWait e).item part = s.item part := by
  simp at h; simp [State.leaveWait, h]

@[simp] theorem State.connect_item (s : State) (e : Fin 8) (c : CallEntry) {part : Part}
    (h : part ∉ ([.calls] : List Part)) :
    (s.connect e c).item part = s.item part := by
  simp at h; simp [State.connect, h]

@[simp] theorem State.promote_item (s : State) {part : Part}
    (h : part ∉ ([.east, .west, .calls, .equip] : List Part)) :
    s.promote.item part = s.item part := by
  simp at h; unfold State.promote; (try dsimp only); (repeat' split) <;> simp_all

@[simp] theorem State.freeConsoleCall_item (s : State) (e : Fin 8) (c : CallEntry) (m : CabMsg) {part : Part}
    (h : part ∉ ([.east, .west, .calls, .equip] : List Part)) :
    (s.freeConsoleCall e c m).item part = s.item part := by
  simp at h; unfold State.freeConsoleCall; (try dsimp only); (repeat' split) <;> simp_all

@[simp] theorem State.callingAnswered_item (s : State) (e : Fin 8) (c : CallEntry) {part : Part}
    (h : part ∉ ([.east, .west, .calls, .equip] : List Part)) :
    (s.callingAnswered e c).item part = s.item part := by
  simp at h; simp [State.callingAnswered, h]

@[simp] theorem State.terminusAnswer_item (s : State) (e : Fin 8) (c : CallEntry) (a : Cacc) {part : Part}
    (h : part ∉ ([.east, .west, .calls, .equip] : List Part)) :
    (s.terminusAnswer e c a).item part = s.item part := by
  simp at h; unfold State.terminusAnswer; (try dsimp only); (repeat' split) <;> simp_all

@[simp] theorem State.newRequest_item (s : State) (p : PortId) (origin : Nat) (q : Creq) {part : Part}
    (h : part ∉ ([.east, .west, .calls, .equip] : List Part)) :
    (s.newRequest p origin q).item part = s.item part := by
  simp at h; unfold State.newRequest; (try dsimp only); (repeat' split) <;> simp_all

@[simp] theorem State.repeatRequest_item (s : State) (p : PortId) (e : Fin 8) (c : CallEntry) (q : Creq) {part : Part}
    (h : part ∉ ([.east, .west, .calls] : List Part)) :
    (s.repeatRequest p e c q).item part = s.item part := by
  simp at h; unfold State.repeatRequest; (try dsimp only); (repeat' split) <;> simp_all

@[simp] theorem State.repeatRing_item (s : State) (p : PortId) (e : Fin 8) (c : CallEntry) {part : Part}
    (h : part ∉ ([.east, .west, .calls] : List Part)) :
    (s.repeatRing p e c).item part = s.item part := by
  simp at h; unfold State.repeatRing; (try dsimp only); (repeat' split) <;> simp_all

@[simp] theorem State.beginRing_item (s : State) (p : PortId) (origin : Nat) (ref : CallRef) (ph : PhoneId)
    (e : Fin 8) {part : Part}
    (h : part ∉ ([.east, .west, .calls] : List Part)) :
    (s.beginRing p origin ref ph e).item part = s.item part := by
  simp at h; simp [State.beginRing, h]

@[simp] theorem State.ringRequest_item (s : State) (p : PortId) (origin : Nat) (q : Creq) {part : Part}
    (h : part ∉ ([.east, .west, .calls] : List Part)) :
    (s.ringRequest p origin q).item part = s.item part := by
  simp at h; unfold State.ringRequest; (try dsimp only); (repeat' split) <;> simp_all

@[simp] theorem State.matchedPort_item (s : State) (p : PortId) (e : Option (Fin 8)) {part : Part}
    (h : part ∉ ([.calls] : List Part)) :
    (s.matchedPort p e).item part = s.item part := by
  simp at h; unfold State.matchedPort; (repeat' split) <;> simp_all

@[simp] theorem State.busyCreq_item (s : State) (p : PortId) (origin : Nat) (q : Creq) {part : Part}
    (h : part ∉ ([.east, .west, .calls] : List Part)) :
    (s.busyCreq p origin q).item part = s.item part := by
  simp at h; simp [State.busyCreq, h]

@[simp] theorem State.takeCreq_item (s : State) (p : PortId) (origin : Nat) (q : Creq) {part : Part}
    (h : part ∉ ([.east, .west, .calls, .equip] : List Part)) :
    (s.takeCreq p origin q).item part = s.item part := by
  simp at h; unfold State.takeCreq; (try dsimp only); (repeat' split) <;> simp_all

@[simp] theorem State.takeCacc_item (s : State) (p : PortId) (origin : Nat) (a : Cacc) {part : Part}
    (h : part ∉ ([.east, .west, .calls, .equip] : List Part)) :
    (s.takeCacc p origin a).item part = s.item part := by
  simp at h; unfold State.takeCacc; (try dsimp only); (repeat' split) <;> simp_all

@[simp] theorem State.takeCrel_item (s : State) (p : PortId) (origin : Nat) (ref : CallRef) (cause : ReleaseCause)
    {part : Part}
    (h : part ∉ ([.east, .west, .calls, .equip] : List Part)) :
    (s.takeCrel p origin ref cause).item part = s.item part := by
  simp at h; unfold State.takeCrel; (try dsimp only); (repeat' split) <;> simp_all

@[simp] theorem State.takeVoic_item (s : State) (p : PortId) (origin : Nat) (ref : CallRef) (f : VoiceFrame)
    {part : Part}
    (h : part ∉ ([.east, .west, .calls, .equip] : List Part)) :
    (s.takeVoic p origin ref f).item part = s.item part := by
  simp at h; unfold State.takeVoic; (try dsimp only); (repeat' split) <;> simp_all

@[simp] theorem State.takeCallFrame_item (s : State) (p : PortId) (f : Frame) {part : Part}
    (h : part ∉ ([.east, .west, .calls, .equip] : List Part)) :
    (s.takeCallFrame p f).item part = s.item part := by
  simp at h; unfold State.takeCallFrame; (try dsimp only); (repeat' split) <;> simp_all

/-! ### Call timers -/

@[simp] theorem State.onEntry_item (s : State) (e : Fin 8) (cond : CallEntry → Bool) (act : CallEntry → State)
    {part : Part} (h : ∀ c, (act c).item part = s.item part) : (s.onEntry e cond act).item part = s.item part := by
  unfold State.onEntry; (repeat' split) <;> simp_all

@[simp] theorem State.attemptExpiry_item (s : State) (e : Fin 8) {part : Part}
    (h : part ∉ ([.east, .west, .calls] : List Part)) :
    (s.attemptExpiry e).item part = s.item part := by
  simp at h; unfold State.attemptExpiry; refine State.onEntry_item _ _ _ _ fun c => ?_; (repeat' split) <;> simp_all

@[simp] theorem State.roadsideSilence_item (s : State) (e : Fin 8) {part : Part}
    (h : part ∉ ([.east, .west, .calls] : List Part)) :
    (s.roadsideSilence e).item part = s.item part := by
  simp at h; unfold State.roadsideSilence; refine State.onEntry_item _ _ _ _ fun c => ?_; (repeat' split) <;> simp_all

@[simp] theorem State.roadsideKeep_item (s : State) (e : Fin 8) {part : Part}
    (h : part ∉ ([.east, .west, .calls] : List Part)) :
    (s.roadsideKeep e).item part = s.item part := by
  simp at h; simp [State.roadsideKeep, h]

@[simp] theorem State.roadsideRing_item (s : State) (e : Fin 8) {part : Part} (h : part ∉ ([.calls] : List Part)) :
    (s.roadsideRing e).item part = s.item part := by
  simp at h; simp [State.roadsideRing, h]

@[simp] theorem State.terminusSilence_item (s : State) (e : Fin 8) {part : Part}
    (h : part ∉ ([.east, .west, .calls, .equip] : List Part)) :
    (s.terminusSilence e).item part = s.item part := by
  simp at h; simp [State.terminusSilence, h]

@[simp] theorem State.queuedKeep_item (s : State) (e : Fin 8) {part : Part}
    (h : part ∉ ([.east, .west, .calls, .equip] : List Part)) :
    (s.queuedKeep e).item part = s.item part := by
  simp at h; simp [State.queuedKeep, h]

@[simp] theorem State.callingRing_item (s : State) (e : Fin 8) {part : Part}
    (h : part ∉ ([.east, .west, .calls, .equip] : List Part)) :
    (s.callingRing e).item part = s.item part := by
  simp at h; simp [State.callingRing, h]

@[simp] theorem State.ringAttempt_item (s : State) (e : Fin 8) (c : CallEntry) {part : Part}
    (h : part ∉ ([.east, .west, .calls] : List Part)) :
    (s.ringAttempt e c).item part = s.item part := by
  simp at h; simp [State.ringAttempt, h]

@[simp] theorem State.ringOutAttempt_item (s : State) (e : Fin 8) {part : Part}
    (h : part ∉ ([.east, .west, .calls] : List Part)) :
    (s.ringOutAttempt e).item part = s.item part := by
  simp at h; simp [State.ringOutAttempt, h]

@[simp] theorem State.takeRingOut_item (s : State) (node phone : Byte) {part : Part}
    (h : part ∉ ([.east, .west, .calls, .equip] : List Part)) :
    (s.takeRingOut node phone).item part = s.item part := by
  simp at h; unfold State.takeRingOut; (try dsimp only); (repeat' split) <;> simp_all

@[simp] theorem State.takeHangup_item (s : State) (ref : CallRef) {part : Part}
    (h : part ∉ ([.east, .west, .calls, .equip] : List Part)) :
    (s.takeHangup ref).item part = s.item part := by
  simp at h; unfold State.takeHangup; (try dsimp only); (repeat' split) <;> simp_all

@[simp] theorem State.takeConsoleVoice_item (s : State) (ref : CallRef) (samples : List Byte) {part : Part}
    (h : part ∉ ([.east, .west, .calls] : List Part)) :
    (s.takeConsoleVoice ref samples).item part = s.item part := by
  simp at h; unfold State.takeConsoleVoice; (try dsimp only); (repeat' split) <;> simp_all

@[simp] theorem State.drainPending_item (s : State) {part : Part} (h : part ∉ ([.calls, .equip] : List Part)) :
    s.drainPending.item part = s.item part := by
  simp at h; unfold State.drainPending; (try dsimp only); (repeat' split) <;> simp_all

@[simp] theorem State.releaseExpiry_item (s : State) (i : Fin 8) {part : Part}
    (h : part ∉ ([.east, .west, .calls] : List Part)) :
    (s.releaseExpiry i).item part = s.item part := by
  simp at h; unfold State.releaseExpiry; (try dsimp only); (repeat' split) <;> simp_all

@[simp] theorem State.playExpiry_item (s : State) (e : Fin 8) {part : Part}
    (h : part ∉ ([.calls, .equip] : List Part)) :
    (s.playExpiry e).item part = s.item part := by
  simp at h; simp [State.playExpiry, h]

@[simp] theorem State.takeSamples_item (s : State) (ph : PhoneId) (samples : List Byte) {part : Part}
    (h : part ∉ ([.east, .west, .calls] : List Part)) :
    (s.takeSamples ph samples).item part = s.item part := by
  simp at h; unfold State.takeSamples; (try dsimp only); (repeat' split) <;> simp_all

@[simp] theorem State.cadenceStep_item (s : State) (ph : PhoneId) {part : Part} (h : part ∉ ([.calls] : List Part)) :
    (s.cadenceStep ph).item part = s.item part := by
  simp at h; unfold State.cadenceStep; (try dsimp only); (repeat' split) <;> simp_all

@[simp] theorem State.ringStep_item (s : State) (ph : PhoneId) {part : Part} (h : part ∉ ([.calls] : List Part)) :
    (s.ringStep ph).item part = s.item part := by
  simp at h; unfold State.ringStep; (try dsimp only); (repeat' split) <;> simp_all

/-! ### Spool -/

@[simp] theorem State.joinBatch_item (s : State) (n : Nat) {part : Part} (h : part ∉ ([.spool] : List Part)) :
    (s.joinBatch n).item part = s.item part := by
  simp at h; simp [State.joinBatch, h]

@[simp] theorem State.retireSector_item (s : State) (n : Nat) {part : Part} (h : part ∉ ([.spool] : List Part)) :
    (s.retireSector n).item part = s.item part := by
  simp at h; unfold State.retireSector; (try dsimp only); (repeat' split) <;> simp_all

@[simp] theorem State.reclaimFull_item (s : State) (n : Nat) {part : Part} (h : part ∉ ([.spool] : List Part)) :
    (s.reclaimFull n).item part = s.item part := by
  simp at h; unfold State.reclaimFull; (try dsimp only); (repeat' split) <;> simp_all

@[simp] theorem State.sectorChange_item (s : State) {part : Part} (h : part ∉ ([.spool] : List Part)) :
    s.sectorChange.item part = s.item part := by
  simp at h; unfold State.sectorChange; (try dsimp only); (repeat' split) <;> simp_all

@[simp] theorem State.eraseInPart_item (s : State) (ns : List Nat) {part : Part}
    (h : part ∉ ([.array, .freeCount] : List Part)) :
    (s.eraseInPart ns).item part = s.item part := by
  simp at h; simp [State.eraseInPart, h]

@[simp] theorem State.cutArray_item (s : State) {part : Part} (h : part ∉ ([.array, .freeCount] : List Part)) :
    s.cutArray.item part = s.item part := by
  simp at h; unfold State.cutArray; (try dsimp only); (repeat' split) <;> simp_all

@[simp] theorem State.wantGenMark_item (s : State) (value : Nat) {part : Part} (h : part ∉ ([.spool] : List Part)) :
    (s.wantGenMark value).item part = s.item part := by
  simp at h; simp [State.wantGenMark, h]

@[simp] theorem State.startGenJob_item (s : State) {part : Part} (h : part ∉ ([.spool] : List Part)) :
    s.startGenJob.item part = s.item part := by
  simp at h; unfold State.startGenJob; (try dsimp only); (repeat' split) <;> simp_all

@[simp] theorem State.scan_item (s : State) {part : Part} (h : part ∉ ([.spool] : List Part)) :
    s.scan.item part = s.item part := by
  simp at h; unfold State.scan; dsimp only
  rw [State.startGenJob_item _ (by simp [h]), State.wantGenMark_item _ _ (by simp [h]),
    foldl_item _ _ _ (fun t b => by simp [h]),
    foldl_item _ _ _ (fun t b => by (repeat' split) <;> simp [h])]
  simp [h]

/-! ### Delivery and the array arbiter -/

@[simp] theorem State.windowJoin_item (s : State) (q : Position) {part : Part}
    (h : part ∉ ([.spool, .sending] : List Part)) :
    (s.windowJoin q).item part = s.item part := by
  simp at h; simp [State.windowJoin, h]

@[simp] theorem State.fillWindow_item (n : Nat) (s : State) {part : Part}
    (h : part ∉ ([.spool, .sending] : List Part)) : (s.fillWindow n).item part = s.item part := by
  induction n generalizing s with
  | zero => rfl
  | succ n ih => unfold State.fillWindow; (repeat' split) <;> simp_all

@[simp] theorem State.windowIntake_item (s : State) {part : Part} (h : part ∉ ([.spool, .sending] : List Part)) :
    s.windowIntake.item part = s.item part := by
  simp at h; simp [State.windowIntake, h]

@[simp] theorem State.readResult_item (s : State) (q : Position) (r : Option TollRecord) {part : Part}
    (h : part ∉ ([.spool, .sending] : List Part)) :
    (s.readResult q r).item part = s.item part := by
  simp at h; unfold State.readResult; (try dsimp only); (repeat' split) <;> simp_all

@[simp] theorem State.takeTack_item (s : State) (ack : Position) {part : Part}
    (h : part ∉ ([.spool, .sending] : List Part)) :
    (s.takeTack ack).item part = s.item part := by
  simp at h; unfold State.takeTack; (try dsimp only); (repeat' split) <;> simp_all

@[simp] theorem State.acceptRecord_item (s : State) (origin : Nat) (r : TollRecord) {part : Part}
    (h : part ∉ ([.receipt, .equip] : List Part)) :
    (s.acceptRecord origin r).item part = s.item part := by
  simp at h; simp [State.acceptRecord, h]

@[simp] theorem State.receiveRecords_item (base : Position) (origin : Nat) (rs : List TollRecord) (s : State)
    {part : Part} (h : part ∉ ([.receipt, .equip] : List Part)) :
    (State.receiveRecords base origin rs s).item part = s.item part := by
  induction rs generalizing s with
  | nil => rfl
  | cons r rs ih => unfold State.receiveRecords; (repeat' split) <;> simp_all

@[simp] theorem State.receiveTrec_item (s : State) (p : PortId) (f : Frame) {part : Part}
    (h : part ∉ ([.east, .west, .receipt, .equip] : List Part)) :
    (s.receiveTrec p f).item part = s.item part := by
  simp at h; unfold State.receiveTrec; (try dsimp only); (repeat' split) <;> simp_all

@[simp] theorem State.countSent_item (s : State) {part : Part} (h : part ∉ ([.sending] : List Part)) :
    s.countSent.item part = s.item part := by
  simp at h; simp [State.countSent, h]

@[simp] theorem State.buildOne_item (s : State) {part : Part}
    (h : part ∉ ([.east, .west, .spool, .sending, .receipt, .equip] : List Part)) :
    s.buildOne.item part = s.item part := by
  simp at h; unfold State.buildOne; (try dsimp only); (repeat' split) <;> simp_all

@[simp] theorem State.buildTrecs_item (n : Nat) (s : State) {part : Part}
    (h : part ∉ ([.east, .west, .spool, .sending, .receipt, .equip] : List Part)) :
    (s.buildTrecs n).item part = s.item part := by
  induction n generalizing s with
  | zero => rfl
  | succ n ih => unfold State.buildTrecs; (repeat' split) <;> simp_all

@[simp] theorem State.startRecord_item (s : State) (slot : Nat) (retry : Bool) {part : Part}
    (h : part ∉ ([.array, .spool] : List Part)) :
    (s.startRecord slot retry).item part = s.item part := by
  simp at h; simp [State.startRecord, h]

@[simp] theorem State.dropStaleReads_item (s : State) {part : Part} (h : part ∉ ([.spool, .sending] : List Part)) :
    s.dropStaleReads.item part = s.item part := by
  simp at h; simp [State.dropStaleReads, h]

@[simp] theorem State.startErase_item (s : State) (b : Batch) {part : Part} (h : part ∉ ([.spool] : List Part)) :
    (s.startErase b).item part = s.item part := by
  simp at h; simp [State.startErase, h]

@[simp] theorem State.grantRest_item (s : State) {part : Part} (h : part ∉ ([.spool] : List Part)) :
    s.grantRest.item part = s.item part := by
  simp at h; unfold State.grantRest; (try dsimp only); (repeat' split) <;> simp_all

@[simp] theorem State.grantRead_item (s : State) {part : Part} (h : part ∉ ([.spool, .sending] : List Part)) :
    s.grantRead.item part = s.item part := by
  simp at h; unfold State.grantRead; (try dsimp only); (repeat' split) <;> simp_all

@[simp] theorem State.grant_item (s : State) {part : Part} (h : part ∉ ([.array, .spool, .sending] : List Part)) :
    s.grant.item part = s.item part := by
  simp at h; unfold State.grant; (try dsimp only); (repeat' split) <;> simp_all

@[simp] theorem State.pump_item (s : State) {part : Part} (h : part ∉ ([.array, .spool, .sending] : List Part)) :
    s.pump.item part = s.item part := by
  simp at h; unfold State.pump; (try dsimp only); (repeat' split) <;> simp [h]

@[simp] theorem State.runToll_item (s : State) {part : Part}
    (h : part ∉ ([.east, .west, .array, .spool, .sending, .receipt, .equip] : List Part)) :
    s.runToll.item part = s.item part := by
  simp at h; simp [State.runToll, h]

@[simp] theorem State.steerTo_item (s : State) (r : Route) {part : Part}
    (h : part ∉ ([.array, .spool, .sending] : List Part)) :
    (s.steerTo r).item part = s.item part := by
  simp at h; unfold State.steerTo; (try dsimp only); (repeat' split) <;> simp_all

@[simp] theorem State.tackDelivered_item (s : State) (f : Frame) {part : Part}
    (h : part ∉ ([.east, .west, .array, .spool, .sending, .receipt, .equip] : List Part)) :
    (s.tackDelivered f).item part = s.item part := by
  simp at h; unfold State.tackDelivered; (try dsimp only); (repeat' split) <;> simp_all

/-! ### Weather -/

@[simp] theorem State.setRule_item (s : State) (n : Fin 8) (w : RuleWork) {part : Part}
    (h : part ∉ ([.weather] : List Part)) :
    (s.setRule n w).item part = s.item part := by
  simp at h; simp [State.setRule, h]

@[simp] theorem State.countWalr_item (s : State) (a : Answer) {part : Part} (h : part ∉ ([.weather] : List Part)) :
    (s.countWalr a).item part = s.item part := by
  simp at h; unfold State.countWalr; (try dsimp only); (repeat' split) <;> simp_all

@[simp] theorem State.offerWalr_item (s : State) (p : PortId) (zone : Nat) (payload : List Byte) {part : Part}
    (h : part ∉ ([.east, .west, .weather] : List Part)) :
    (s.offerWalr p zone payload).item part = s.item part := by
  simp at h; unfold State.offerWalr; (try dsimp only); (repeat' split) <;> simp_all

@[simp] theorem State.sendWalr_item (s : State) {part : Part}
    (h : part ∉ ([.east, .west, .weather, .equip] : List Part)) :
    s.sendWalr.item part = s.item part := by
  simp at h; unfold State.sendWalr; (try dsimp only); (repeat' split) <;> simp_all

@[simp] theorem State.gather_item (s : State) (g : GatherItem) {part : Part}
    (h : part ∉ ([.east, .west, .weather, .equip] : List Part)) :
    (s.gather g).item part = s.item part := by
  simp at h; unfold State.gather; (try dsimp only); (repeat' split) <;> simp_all

@[simp] theorem State.claimForRule_item (s : State) (n : Fin 8) {part : Part}
    (h : part ∉ ([.east, .west, .display, .equip] : List Part)) :
    (s.claimForRule n).item part = s.item part := by
  simp at h; unfold State.claimForRule; (try dsimp only); (repeat' split) <;> simp_all

@[simp] theorem State.withdrawForRule_item (s : State) (n : Fin 8) {part : Part}
    (h : part ∉ ([.display] : List Part)) :
    (s.withdrawForRule n).item part = s.item part := by
  simp at h; unfold State.withdrawForRule; (try dsimp only); (repeat' split) <;> simp_all

@[simp] theorem State.ruleRaised_item (s : State) (n : Fin 8) {part : Part}
    (h : part ∉ ([.east, .west, .display, .weather, .equip] : List Part)) :
    (s.ruleRaised n).item part = s.item part := by
  simp at h; simp [State.ruleRaised, h]

@[simp] theorem State.ruleCleared_item (s : State) (n : Fin 8) {part : Part}
    (h : part ∉ ([.east, .west, .display, .weather, .equip] : List Part)) :
    (s.ruleCleared n).item part = s.item part := by
  simp at h; simp [State.ruleCleared, h]

@[simp] theorem State.evaluate_item (s : State) (n : Fin 8) (raiseC clearC : Bool) {part : Part}
    (h : part ∉ ([.east, .west, .display, .weather, .equip] : List Part)) :
    (s.evaluate n raiseC clearC).item part = s.item part := by
  simp at h; unfold State.evaluate; (try dsimp only); (repeat' split) <;> simp_all

@[simp] theorem State.evaluateSource_item (s : State) (src : RuleSource) (v : Int) {part : Part}
    (h : part ∉ ([.east, .west, .display, .weather, .equip] : List Part)) :
    (s.evaluateSource src v).item part = s.item part := by
  simp at h; unfold State.evaluateSource; (try dsimp only); (repeat' split) <;> first
    | exact foldl_item _ _ _ fun t b => by first | split <;> simp [h] | simp [h]
    | simp_all

@[simp] theorem State.windowEnd_item (s : State) (ch : PulseId) {part : Part}
    (h : part ∉ ([.east, .west, .display, .weather, .equip] : List Part)) :
    (s.windowEnd ch).item part = s.item part := by
  simp at h; unfold State.windowEnd; (try dsimp only); (repeat' split) <;> simp_all

@[simp] theorem State.storeReading_item (s : State) (c : Fin 8) (value : Int) (valid : Bool) {part : Part}
    (h : part ∉ ([.weather] : List Part)) :
    (s.storeReading c value valid).item part = s.item part := by
  simp at h; simp [State.storeReading, h]

@[simp] theorem State.takeReading_item (s : State) (channel : Byte) (value : BitVec 16) (valid : Bool) {part : Part}
    (h : part ∉ ([.east, .west, .display, .weather, .equip] : List Part)) :
    (s.takeReading channel value valid).item part = s.item part := by
  simp at h; unfold State.takeReading; (try dsimp only); (repeat' split) <;> simp_all

@[simp] theorem State.contactForRule_item (i : Fin 6) (s : State) (n : Fin 8) {part : Part}
    (h : part ∉ ([.east, .west, .display, .weather, .equip] : List Part)) :
    (State.contactForRule i s n).item part = s.item part := by
  simp at h; unfold State.contactForRule; (try dsimp only); (repeat' split) <;> simp_all

@[simp] theorem State.contactEvent_item (s : State) (i : Fin 6) {part : Part}
    (h : part ∉ ([.east, .west, .display, .weather, .equip] : List Part)) :
    (s.contactEvent i).item part = s.item part := by
  simp at h; unfold State.contactEvent; (try dsimp only); (repeat' split) <;> first
    | exact foldl_item _ _ _ fun t b => by first | split <;> simp [h] | simp [h]
    | simp_all

@[simp] theorem State.renew_item (s : State) (n : Fin 8) {part : Part}
    (h : part ∉ ([.east, .west, .display, .weather, .equip] : List Part)) :
    (s.renew n).item part = s.item part := by
  simp at h; unfold State.renew; (try dsimp only); (repeat' split) <;> simp_all

@[simp] theorem State.countReportLost_item (s : State) {part : Part} (h : part ∉ ([.weather] : List Part)) :
    s.countReportLost.item part = s.item part := by
  simp at h; simp [State.countReportLost, h]

@[simp] theorem State.sendWrpt_item (s : State) {part : Part}
    (h : part ∉ ([.east, .west, .weather, .equip] : List Part)) :
    s.sendWrpt.item part = s.item part := by
  simp at h; unfold State.sendWrpt; (try dsimp only); (repeat' split) <;> simp_all

/-! ### Status -/

@[simp] theorem State.countStatusLost_item (s : State) (n : Nat) {part : Part} (h : part ∉ ([.equip] : List Part)) :
    (s.countStatusLost n).item part = s.item part := by
  simp at h; simp [State.countStatusLost, h]

@[simp] theorem State.offerPart_item (p : PortId) (s : State) (payload : List Byte) {part : Part}
    (h : part ∉ ([.east, .west, .equip] : List Part)) :
    (State.offerPart p s payload).item part = s.item part := by
  simp at h; unfold State.offerPart; (try dsimp only); (repeat' split) <;> simp_all

@[simp] theorem State.sendParts_item (s : State) (parts : List (List Byte)) {part : Part}
    (h : part ∉ ([.east, .west, .equip] : List Part)) :
    (s.sendParts parts).item part = s.item part := by
  simp at h; unfold State.sendParts; (try dsimp only); (repeat' split) <;> first
    | exact foldl_item _ _ _ fun t b => by first | split <;> simp [h] | simp [h]
    | simp_all

@[simp] theorem State.sendNsta_item (s : State) {part : Part} (h : part ∉ ([.east, .west, .equip] : List Part)) :
    s.sendNsta.item part = s.item part := by
  simp at h; simp [State.sendNsta, h]

@[simp] theorem State.answerStatus_item (s : State) (origin : Byte) {part : Part}
    (h : part ∉ ([.equip, .freeCount] : List Part)) :
    (s.answerStatus origin).item part = s.item part := by
  simp at h; unfold State.answerStatus; (try dsimp only); (repeat' split) <;> simp_all

/-! ### Inbound messages -/

@[simp] theorem State.countBad_item (s : State) {part : Part} (h : part ∉ ([.equip] : List Part)) :
    s.countBad.item part = s.item part := by
  simp at h; simp [State.countBad, h]

@[simp] theorem State.countNotReady_item (s : State) {part : Part} (h : part ∉ ([.equip] : List Part)) :
    s.countNotReady.item part = s.item part := by
  simp at h; simp [State.countNotReady, h]

@[simp] theorem State.countMisdirected_item (s : State) {part : Part} (h : part ∉ ([.equip] : List Part)) :
    s.countMisdirected.item part = s.item part := by
  simp at h; simp [State.countMisdirected, h]

@[simp] theorem State.dispatch_item (s : State) (ok used : Bool) (owner refusal : State → State) {part : Part}
    (h : part ∉ ([.equip] : List Part)) (ho : ∀ t, (owner t).item part = t.item part)
    (hr : ∀ t, (refusal t).item part = t.item part) : (s.dispatch ok used owner refusal).item part = s.item part := by
  simp at h; unfold State.dispatch; (repeat' split) <;> simp_all

@[simp] theorem State.countSignLost_item (s : State) {part : Part} (h : part ∉ ([.equip] : List Part)) :
    s.countSignLost.item part = s.item part := by
  simp at h; simp [State.countSignLost, h]

@[simp] theorem State.offerSign_item (s : State) (p : PortId) (f : Frame) {part : Part}
    (h : part ∉ ([.east, .west, .equip] : List Part)) :
    (s.offerSign p f).item part = s.item part := by
  simp at h; unfold State.offerSign; (try dsimp only); (repeat' split) <;> simp_all

@[simp] theorem State.handSign_item (s : State) (kind : Byte) (payload : List Byte) {part : Part}
    (h : part ∉ ([.east, .west, .pages, .display, .equip, .freeCount] : List Part)) :
    (s.handSign kind payload).item part = s.item part := by
  simp at h; unfold State.handSign; (try dsimp only); (repeat' split) <;> simp_all

@[simp] theorem State.sendSignFrame_item (s : State) (kind target zone : Byte) (payload : List Byte) {part : Part}
    (h : part ∉ ([.east, .west, .pages, .display, .equip, .freeCount] : List Part)) :
    (s.sendSignFrame kind target zone payload).item part = s.item part := by
  simp at h; unfold State.sendSignFrame; (try dsimp only); (repeat' split) <;> simp_all

/-! ### Line Time -/

@[simp] theorem State.passToCarry_item (s : State) {part : Part} (h : part ∉ ([.time, .refTime] : List Part)) :
    s.passToCarry.item part = s.item part := by
  simp at h; unfold State.passToCarry; (try dsimp only); (repeat' split) <;> simp_all

@[simp] theorem State.tick_item (s : State) {part : Part} (h : part ∉ ([.time, .refTime] : List Part)) :
    s.tick.item part = s.item part := by
  simp at h; unfold State.tick; (try dsimp only); (repeat' split) <;> simp_all

@[simp] theorem State.merge_item (s : State) (b : Beat) (n : Nat) {part : Part} (h : part ∉ ([.time] : List Part)) :
    (s.merge b n).item part = s.item part := by
  simp at h; simp [State.merge, h]

@[simp] theorem State.acceptPulse_item (s : State) (v : LTime) {part : Part} (h : part ∉ ([.time] : List Part)) :
    (s.acceptPulse v).item part = s.item part := by
  simp at h; simp [State.acceptPulse, h]

@[simp] theorem State.timePulse_item (s : State) {part : Part} (h : part ∉ ([.time] : List Part)) :
    s.timePulse.item part = s.item part := by
  simp at h; unfold State.timePulse; (try dsimp only); (repeat' split) <;> simp_all

/-! ### Changes of the Reach View and of port states -/

@[simp] theorem State.reportChoice_item (s : State) {part : Part}
    (h : part ∉ ([.east, .west, .reach, .calls, .array, .spool, .sending] : List Part)) :
    s.reportChoice.item part = s.item part := by
  simp at h; unfold State.reportChoice; (try dsimp only); (repeat' split) <;> simp_all

@[simp] theorem State.reportChange_item (s : State) (lost : List Nat) {part : Part}
    (h : part ∉ ([.east, .west, .reach, .calls, .array, .spool, .sending] : List Part)) :
    (s.reportChange lost).item part = s.item part := by
  simp at h; unfold State.reportChange; (try dsimp only); (repeat' split) <;> simp_all

@[simp] theorem State.takeEntry_item (s : State) (p : PortId) (b : Beat) (n : Nat) {part : Part}
    (h : part ∉ ([.east, .west, .reach, .calls, .array, .spool, .sending] : List Part)) :
    (s.takeEntry p b n).item part = s.item part := by
  simp at h; unfold State.takeEntry; (try dsimp only); (repeat' split) <;> simp_all

@[simp] theorem State.takeBeat_item (s : State) (p : PortId) (f : Frame) {part : Part}
    (h : part ∉ ([.east, .west, .reach, .time, .calls, .array, .spool, .sending] : List Part)) :
    (s.takeBeat p f).item part = s.item part := by
  simp at h; unfold State.takeBeat; (try dsimp only); (repeat' split) <;> simp_all

@[simp] theorem State.removeAged_item (s : State) (p : PortId) (node : Nat) {part : Part}
    (h : part ∉ ([.east, .west, .reach, .calls, .array, .spool, .sending] : List Part)) :
    (s.removeAged p node).item part = s.item part := by
  simp at h; unfold State.removeAged; (try dsimp only); (repeat' split) <;> simp_all

@[simp] theorem State.enterProbing_item (s : State) (p : PortId) {part : Part}
    (h : part ∉ ([.east, .west] : List Part)) :
    (s.enterProbing p).item part = s.item part := by
  simp at h; unfold State.enterProbing; (try dsimp only); (repeat' split) <;> simp_all

@[simp] theorem State.goDark_item (s : State) (p : PortId) {part : Part}
    (h : part ∉ ([.east, .west, .reach, .calls, .array, .spool, .sending] : List Part)) :
    (s.goDark p).item part = s.item part := by
  simp at h; unfold State.goDark; (try dsimp only); (repeat' split) <;> simp_all

@[simp] theorem State.enterDark_item (s : State) (p : PortId) {part : Part}
    (h : part ∉ ([.east, .west, .reach, .calls, .array, .spool, .sending] : List Part)) :
    (s.enterDark p).item part = s.item part := by
  simp at h; unfold State.enterDark; (try dsimp only); (repeat' split) <;> simp_all

@[simp] theorem State.enterLit_item (s : State) (p : PortId) {part : Part} (h : part ∉ ([.east, .west] : List Part)) :
    (s.enterLit p).item part = s.item part := by
  simp at h; simp [State.enterLit, h]

/-! ### Input Watch -/

@[simp] theorem State.abandonErase_item (s : State) {part : Part}
    (h : part ∉ ([.array, .spool, .freeCount] : List Part)) :
    s.abandonErase.item part = s.item part := by
  simp at h; unfold State.abandonErase; (try dsimp only); (repeat' split) <;> simp_all

@[simp] theorem State.resumeSpool_item (s : State) {part : Part}
    (h : part ∉ ([.array, .spool, .sending] : List Part)) :
    s.resumeSpool.item part = s.item part := by
  simp at h; unfold State.resumeSpool; (try dsimp only); (repeat' split) <;> simp_all

@[simp] theorem State.powerDepart_item (s : State) {part : Part}
    (h : part ∉ ([.array, .spool, .sending, .freeCount] : List Part)) :
    s.powerDepart.item part = s.item part := by
  simp at h; simp [State.powerDepart, h]

@[simp] theorem State.powerReturn_item (s : State) {part : Part}
    (h : part ∉ ([.array, .spool, .sending] : List Part)) :
    s.powerReturn.item part = s.item part := by
  simp at h; simp [State.powerReturn, h]

@[simp] theorem State.setLine_item (s : State) (l : LevelLine) (v : LevelState) {part : Part}
    (h : part ∉ ([.inputs] : List Part)) :
    (s.setLine l v).item part = s.item part := by
  simp at h; simp [State.setLine, h]

@[simp] theorem State.lineEvent_item (s : State) (l : LevelLine) {part : Part}
    (h : part ∉ ([.east, .west, .calls, .array, .spool, .sending, .display, .weather, .equip, .freeCount] : List Part)) :
    (s.lineEvent l).item part = s.item part := by
  simp at h; unfold State.lineEvent; (try dsimp only); (repeat' split) <;> simp_all

@[simp] theorem State.movePin_item (s : State) (l : LevelLine) (level : Bool) {part : Part}
    (h : part ∉ ([.inputs] : List Part)) :
    (s.movePin l level).item part = s.item part := by
  simp at h; unfold State.movePin; (try dsimp only); (repeat' split) <;> simp_all

@[simp] theorem State.endWait_item (s : State) (l : LevelLine) {part : Part}
    (h : part ∉ ([.east, .west, .inputs, .calls, .array, .spool, .sending, .display, .weather, .equip, .freeCount] : List Part)) :
    (s.endWait l).item part = s.item part := by
  simp at h; unfold State.endWait; (try dsimp only); (repeat' split) <;> simp_all

@[simp] theorem State.sampleLines_item (s : State) {part : Part} (h : part ∉ ([.inputs] : List Part)) :
    s.sampleLines.item part = s.item part := by
  simp at h; simp [State.sampleLines, h]

@[simp] theorem State.entryReport_item (s : State) {part : Part}
    (h : part ∉ ([.east, .west, .calls, .array, .spool, .sending, .display, .weather, .equip, .freeCount] : List Part)) :
    s.entryReport.item part = s.item part := by
  simp at h; unfold State.entryReport; (try dsimp only); (repeat' split) <;> first
    | exact foldl_item _ _ _ fun t b => by first | split <;> simp [h] | simp [h]
    | simp_all

@[simp] theorem State.setPulse_item (s : State) (ch : PulseId) (v : PulseState) {part : Part}
    (h : part ∉ ([.inputs] : List Part)) :
    (s.setPulse ch v).item part = s.item part := by
  simp at h; simp [State.setPulse, h]

@[simp] theorem State.endPulseWindow_item (s : State) (ch : PulseId) {part : Part}
    (h : part ∉ ([.east, .west, .inputs, .display, .weather, .equip] : List Part)) :
    (s.endPulseWindow ch).item part = s.item part := by
  simp at h; simp [State.endPulseWindow, h]

/-! ### Frames -/

@[simp] theorem State.copyToCentre_item (s : State) (kind : Byte) (f : Frame) {part : Part}
    (h : part ∉ ([.equip] : List Part)) :
    (s.copyToCentre kind f).item part = s.item part := by
  simp at h; unfold State.copyToCentre; (try dsimp only); (repeat' split) <;> simp_all

@[simp] theorem State.reportToCentre_item (s : State) (kind : Byte) (f : Frame) {part : Part}
    (h : part ∉ ([.equip] : List Part)) :
    (s.reportToCentre kind f).item part = s.item part := by
  simp at h; unfold State.reportToCentre; split <;> simp_all

@[simp] theorem State.toOwner_item (s : State) (p : PortId) (f : Frame) {part : Part}
    (h : part ∉ ([.east, .west, .reach, .time, .calls, .array, .spool, .sending, .receipt, .pages, .display, .equip, .freeCount] : List Part)) :
    (s.toOwner p f).item part = s.item part := by
  simp at h; unfold State.toOwner; (try dsimp only); (repeat' split) <;> simp_all

@[simp] theorem State.deliver_item (s : State) (p : PortId) (f : Frame) {part : Part}
    (h : part ∉ ([.east, .west, .reach, .time, .calls, .array, .spool, .sending, .receipt, .pages, .display, .equip, .freeCount] : List Part)) :
    (s.deliver p f).item part = s.item part := by
  simp at h; unfold State.deliver; (try dsimp only); (repeat' split) <;> simp_all

@[simp] theorem State.damaged_item (s : State) (p : PortId) (bumped : LineCounters → LineCounters) {part : Part}
    (h : part ∉ ([.east, .west] : List Part)) :
    (s.damaged p bumped).item part = s.item part := by
  simp at h; simp [State.damaged, h]

@[simp] theorem State.goodForPort_item (s : State) (p : PortId) {part : Part}
    (h : part ∉ ([.east, .west] : List Part)) :
    (s.goodForPort p).item part = s.item part := by
  simp at h; unfold State.goodForPort; (try dsimp only); (repeat' split) <;> simp_all

@[simp] theorem State.clashOn_item (s : State) (p : PortId) {part : Part}
    (h : part ∉ ([.east, .west, .clash] : List Part)) :
    (s.clashOn p).item part = s.item part := by
  simp at h; simp [State.clashOn, h]

@[simp] theorem State.goodFrame_item (s : State) (p : PortId) (f : Frame) {part : Part}
    (h : part ∉ ([.east, .west, .clash, .reach, .time, .calls, .array, .spool, .sending, .receipt, .pages, .display, .equip, .freeCount] : List Part)) :
    (s.goodFrame p f).item part = s.item part := by
  simp at h; unfold State.goodFrame; (try dsimp only); (repeat' split) <;> simp_all

@[simp] theorem State.takeFrame_item (s : State) (p : PortId) (bytes : List Byte) {part : Part}
    (h : part ∉ ([.east, .west, .clash, .reach, .time, .calls, .array, .spool, .sending, .receipt, .pages, .display, .equip, .freeCount] : List Part)) :
    (s.takeFrame p bytes).item part = s.item part := by
  simp at h; unfold State.takeFrame; (try dsimp only); (repeat' split) <;> simp_all

/-! ### Display -/

@[simp] theorem State.expireClaims_item (s : State) {part : Part} (h : part ∉ ([.display] : List Part)) :
    s.expireClaims.item part = s.item part := by
  simp at h; simp [State.expireClaims, h]

@[simp] theorem State.applySelection_item (s : State) {part : Part} (h : part ∉ ([.display] : List Part)) :
    s.applySelection.item part = s.item part := by
  simp at h; simp [State.applySelection, h]

@[simp] theorem State.clearOwed_item (s : State) {part : Part} (h : part ∉ ([.display] : List Part)) :
    s.clearOwed.item part = s.item part := by
  simp at h; simp [State.clearOwed, h]

@[simp] theorem State.tryDisplayReport_item (s : State) {part : Part}
    (h : part ∉ ([.east, .west, .display, .equip] : List Part)) :
    s.tryDisplayReport.item part = s.item part := by
  simp at h; unfold State.tryDisplayReport; (try dsimp only); (repeat' split) <;> simp_all

@[simp] theorem State.frameTimerAnew_item (s : State) {part : Part} (h : part ∉ ([.display] : List Part)) :
    s.frameTimerAnew.item part = s.item part := by
  simp at h; simp [State.frameTimerAnew, h]

@[simp] theorem State.endFrame_item (s : State) {part : Part}
    (h : part ∉ ([.east, .west, .display, .equip] : List Part)) :
    s.endFrame.item part = s.item part := by
  simp at h; simp [State.endFrame, h]

/-! ### Starts -/

@[simp] theorem State.enterRepeaterOnly_item (s : State) {part : Part}
    (h : part ∉ ([.node, .loadTimer, .reach] : List Part)) :
    s.enterRepeaterOnly.item part = s.item part := by
  simp at h; simp [State.enterRepeaterOnly, h]

@[simp] theorem State.startPulse_item (s : State) (ch : PulseId) {part : Part} (h : part ∉ ([.inputs] : List Part)) :
    (s.startPulse ch).item part = s.item part := by
  simp at h; simp [State.startPulse, h]

@[simp] theorem State.startFrames_item (s : State) {part : Part} (h : part ∉ ([.display] : List Part)) :
    s.startFrames.item part = s.item part := by
  simp at h; unfold State.startFrames; (try dsimp only); (repeat' split) <;> simp_all

@[simp] theorem State.startReports_item (s : State) {part : Part} (h : part ∉ ([.weather] : List Part)) :
    s.startReports.item part = s.item part := by
  simp at h; unfold State.startReports; (try dsimp only); (repeat' split) <;> simp_all

@[simp] theorem State.startGrade_item (s : State) {part : Part} (h : part ∉ ([.time] : List Part)) :
    s.startGrade.item part = s.item part := by
  simp at h; simp [State.startGrade, h]

@[simp] theorem State.startStatus_item (s : State) {part : Part} (h : part ∉ ([.east, .west, .equip] : List Part)) :
    s.startStatus.item part = s.item part := by
  simp at h; simp [State.startStatus, h]

@[simp] theorem State.enterRunning_item (s : State) {part : Part}
    (h : part ∉ ([.node, .east, .west, .reach, .time, .inputs, .calls, .array, .spool, .sending, .receipt, .display, .weather, .equip, .freeCount] : List Part)) :
    s.enterRunning.item part = s.item part := by
  simp at h; simp [State.enterRunning, h]

@[simp] theorem State.dropOwnEntries_item (s : State) {part : Part} (h : part ∉ ([.reach] : List Part)) :
    s.dropOwnEntries.item part = s.item part := by
  simp at h; simp [State.dropOwnEntries, h]

@[simp] theorem State.enterScanning_item (s : State) (c : Config) {part : Part}
    (h : part ∉ ([.node, .cfg, .loadTimer, .east, .west, .reach, .time, .inputs, .calls, .array, .spool, .sending, .receipt, .display, .weather, .equip, .freeCount] : List Part)) :
    (s.enterScanning c).item part = s.item part := by
  simp at h; unfold State.enterScanning; (try dsimp only); (repeat' split) <;> simp_all

@[simp] theorem State.imageRead_item (s : State) (image : Option (List Byte)) {part : Part}
    (h : part ∉ ([.node, .cfg, .loadTimer, .east, .west, .reach, .time, .inputs, .calls, .array, .spool, .sending, .receipt, .display, .weather, .equip, .freeCount] : List Part)) :
    (s.imageRead image).item part = s.item part := by
  simp at h; unfold State.imageRead; (try dsimp only); (repeat' split) <;> simp_all

@[simp] theorem State.generationSettled_item (s : State) (value : Nat) (fault : Bool) {part : Part}
    (h : part ∉ ([.node, .east, .west, .reach, .time, .inputs, .calls, .array, .spool, .sending, .receipt, .display, .weather, .equip, .freeCount] : List Part)) :
    (s.generationSettled value fault).item part = s.item part := by
  simp at h; unfold State.generationSettled; (try dsimp only); (repeat' split) <;> simp [h]

@[simp] theorem State.genStage_item (s : State) (value : Nat) (stage : GenStage) {part : Part}
    (h : part ∉ ([.array, .spool, .sending] : List Part)) :
    (s.genStage value stage).item part = s.item part := by
  simp at h; simp [State.genStage, h]

@[simp] theorem State.genMarkEnd_item (s : State) {part : Part}
    (h : part ∉ ([.node, .east, .west, .reach, .time, .inputs, .calls, .array, .spool, .sending, .receipt, .display, .weather, .equip, .freeCount] : List Part)) :
    s.genMarkEnd.item part = s.item part := by
  simp at h; unfold State.genMarkEnd; (try dsimp only); (repeat' split) <;> simp_all

@[simp] theorem State.genMarkLimit_item (s : State) {part : Part}
    (h : part ∉ ([.node, .east, .west, .reach, .time, .inputs, .calls, .array, .spool, .sending, .receipt, .display, .weather, .equip, .freeCount] : List Part)) :
    s.genMarkLimit.item part = s.item part := by
  simp at h; unfold State.genMarkLimit; (try dsimp only); (repeat' split) <;> simp_all

@[simp] theorem State.marksInPart_item (s : State) {part : Part} (h : part ∉ ([.array, .freeCount] : List Part)) :
    s.marksInPart.item part = s.item part := by
  simp at h; simp [State.marksInPart, h]

@[simp] theorem State.markEraseEnd_item (s : State) (erased : Bool) {part : Part}
    (h : part ∉ ([.node, .east, .west, .reach, .time, .inputs, .calls, .array, .spool, .sending, .receipt, .display, .weather, .equip, .freeCount] : List Part)) :
    (s.markEraseEnd erased).item part = s.item part := by
  simp at h; unfold State.markEraseEnd; (try dsimp only); (repeat' split) <;> simp_all

/-! ### Time commands -/

@[simp] theorem State.takeTime_item (s : State) (v : LTime) {part : Part} (h : part ∉ ([.time] : List Part)) :
    (s.takeTime v).item part = s.item part := by
  simp at h; unfold State.takeTime; (try dsimp only); (repeat' split) <;> simp_all

@[simp] theorem State.unlock_item (s : State) {part : Part} (h : part ∉ ([.time] : List Part)) :
    s.unlock.item part = s.item part := by
  simp at h; simp [State.unlock, h]

/-! ### Ends of array operations -/

@[simp] theorem State.holdSubmission_item (s : State) (tag : Byte) (gantry : BitVec 16) (lane : Byte)
    (body : List Byte) {part : Part}
    (h : part ∉ ([.spool] : List Part)) :
    (s.holdSubmission tag gantry lane body).item part = s.item part := by
  simp at h; simp [State.holdSubmission, h]

@[simp] theorem State.submit_item (s : State) (tag : Byte) (gantry : BitVec 16) (lane : Byte) (body : List Byte)
    {part : Part}
    (h : part ∉ ([.array, .spool, .sending, .equip] : List Part)) :
    (s.submit tag gantry lane body).item part = s.item part := by
  simp at h; unfold State.submit; (try dsimp only); (repeat' split) <;> simp_all

@[simp] theorem State.advanceSeq_item (s : State) (seq : Nat) {part : Part} (h : part ∉ ([.spool] : List Part)) :
    (s.advanceSeq seq).item part = s.item part := by
  simp at h; unfold State.advanceSeq; (try dsimp only); (repeat' split) <;> simp_all

@[simp] theorem State.fillSlot_item (s : State) (slot : Nat) (h : HeldSubmission) {part : Part}
    (hp : part ∉ ([.array, .spool] : List Part)) : (s.fillSlot slot h).item part = s.item part := by
  simp at hp; simp [State.fillSlot, hp]

@[simp] theorem State.recordEnd_item (s : State) {part : Part}
    (h : part ∉ ([.east, .west, .array, .spool, .sending, .receipt, .equip] : List Part)) :
    s.recordEnd.item part = s.item part := by
  simp at h; unfold State.recordEnd; (try dsimp only); (repeat' split) <;> simp_all

@[simp] theorem State.giveUp_item (s : State) (tag : Byte) (c : TollCause) {part : Part}
    (h : part ∉ ([.east, .west, .array, .spool, .sending, .receipt, .equip] : List Part)) :
    (s.giveUp tag c).item part = s.item part := by
  simp at h; simp [State.giveUp, h]

@[simp] theorem State.voidSlot_item (s : State) (slot : Nat) {part : Part} (h : part ∉ ([.spool] : List Part)) :
    (s.voidSlot slot).item part = s.item part := by
  simp at h; simp [State.voidSlot, h]

@[simp] theorem State.retryRecord_item (s : State) (tag : Byte) {part : Part}
    (h : part ∉ ([.east, .west, .array, .spool, .sending, .receipt, .equip] : List Part)) :
    (s.retryRecord tag).item part = s.item part := by
  simp at h; unfold State.retryRecord; (try dsimp only); (repeat' split) <;> simp_all

@[simp] theorem State.recordLimit_item (s : State) {part : Part}
    (h : part ∉ ([.east, .west, .array, .spool, .sending, .receipt, .equip] : List Part)) :
    s.recordLimit.item part = s.item part := by
  simp at h; unfold State.recordLimit; (try dsimp only); (repeat' split) <;> simp_all

@[simp] theorem State.opDone_item (s : State) {part : Part} (h : part ∉ ([.spool] : List Part)) :
    s.opDone.item part = s.item part := by
  simp at h; simp [State.opDone, h]

@[simp] theorem State.markEnd_item (s : State) {part : Part}
    (h : part ∉ ([.east, .west, .array, .spool, .sending, .receipt, .equip] : List Part)) :
    s.markEnd.item part = s.item part := by
  simp at h; unfold State.markEnd; (try dsimp only); (repeat' split) <;> simp_all

@[simp] theorem State.markLimit_item (s : State) {part : Part}
    (h : part ∉ ([.east, .west, .array, .spool, .sending, .receipt, .equip, .freeCount] : List Part)) :
    s.markLimit.item part = s.item part := by
  simp at h; unfold State.markLimit; (try dsimp only); (repeat' split) <;> simp_all

@[simp] theorem State.endRead_item (s : State) (ended : Bool) {part : Part}
    (h : part ∉ ([.east, .west, .array, .spool, .sending, .receipt, .equip] : List Part)) :
    (s.endRead ended).item part = s.item part := by
  simp at h; unfold State.endRead; (try dsimp only); (repeat' split) <;> simp_all

@[simp] theorem State.closeBatch_item (s : State) {part : Part}
    (h : part ∉ ([.array, .spool, .sending] : List Part)) :
    s.closeBatch.item part = s.item part := by
  simp at h; unfold State.closeBatch; (try dsimp only); (repeat' split) <;> simp_all

@[simp] theorem State.suspensionDone_item (s : State) {part : Part}
    (h : part ∉ ([.array, .spool, .sending] : List Part)) :
    s.suspensionDone.item part = s.item part := by
  simp at h; unfold State.suspensionDone; (try dsimp only); (repeat' split) <;> simp_all

@[simp] theorem State.sectorErased_item (s : State) (n : Nat) {part : Part}
    (h : part ∉ ([.array, .spool] : List Part)) :
    (s.sectorErased n).item part = s.item part := by
  simp at h; simp [State.sectorErased, h]

@[simp] theorem State.sectorFailed_item (s : State) (n : Nat) {part : Part}
    (h : part ∉ ([.array, .spool, .freeCount] : List Part)) :
    (s.sectorFailed n).item part = s.item part := by
  simp at h; simp [State.sectorFailed, h]

@[simp] theorem State.checkSector_item (failed : List (Fin 63)) (s : State) (n : Nat) {part : Part}
    (h : part ∉ ([.array, .spool, .freeCount] : List Part)) :
    (State.checkSector failed s n).item part = s.item part := by
  simp at h; unfold State.checkSector; (try dsimp only); (repeat' split) <;> simp_all

@[simp] theorem State.endFull_item (s : State) {part : Part} (h : part ∉ ([.spool] : List Part)) :
    s.endFull.item part = s.item part := by
  simp at h; unfold State.endFull; (try dsimp only); (repeat' split) <;> simp_all

@[simp] theorem State.endErase_item (s : State) (failed : List (Fin 63)) (limit : Bool) {part : Part}
    (h : part ∉ ([.east, .west, .array, .spool, .sending, .receipt, .equip, .freeCount] : List Part)) :
    (s.endErase failed limit).item part = s.item part := by
  simp at h; unfold State.endErase; (try dsimp only); (repeat' split) <;> simp_all

@[simp] theorem State.retryEnd_item (s : State) {part : Part}
    (h : part ∉ ([.east, .west, .array, .spool, .sending, .receipt, .equip] : List Part)) :
    s.retryEnd.item part = s.item part := by
  simp at h; unfold State.retryEnd; (try dsimp only); (repeat' split) <;> simp_all

@[simp] theorem State.goBackNow_item (s : State) {part : Part}
    (h : part ∉ ([.east, .west, .array, .spool, .sending, .receipt, .equip] : List Part)) :
    s.goBackNow.item part = s.item part := by
  simp at h; unfold State.goBackNow; (try dsimp only); (repeat' split) <;> simp_all

/-! ### Weather commands -/

@[simp] theorem State.setChannel_item (s : State) (c : Fin 8) (v : ReadingChannel) {part : Part}
    (h : part ∉ ([.weather] : List Part)) :
    (s.setChannel c v).item part = s.item part := by
  simp at h; simp [State.setChannel, h]

@[simp] theorem State.reportTimerAnew_item (s : State) {part : Part} (h : part ∉ ([.weather] : List Part)) :
    s.reportTimerAnew.item part = s.item part := by
  simp at h; simp [State.reportTimerAnew, h]

end Sys2Proof.Machine
end

