-- ==== Sys2Proof/Laws/Ports.lean ====
section
/-! SUPPORT. The line ports under the operations that reach them by offers alone: a property of ports that every offer keeps
is kept by each such operation. The soundness of a port is such a property. -/

namespace Sys2Proof.Machine

/-- A property of a port, kept folded. -/
def LinePort.Meets (P : LinePort → Prop) (q : LinePort) : Prop := P q
/-- A property of ports that an offer keeps. -/
def OfferClosed (P : PortId → LinePort → Prop) : Prop :=
  ∀ (s : State) (r : PortId) (f : Frame), P r (s.port r) → P r ((s.offer r f).port r)

theorem State.arbitrate_opposite (s : State) (p : PortId) :
    (s.arbitrate p).port (opposite p) = s.port (opposite p) := by
  unfold State.arbitrate; (repeat' split) <;> simp

theorem State.offer_opposite (s : State) (p : PortId) (f : Frame) :
    (s.offer p f).port (opposite p) = s.port (opposite p) := by
  unfold State.offer; split <;> simp [State.arbitrate_opposite]

@[simp] theorem State.offer_ports (s : State) (p : PortId) (f : Frame) {P : PortId → LinePort → Prop}
    (hP : OfferClosed P)
    (he : LinePort.Meets (P .east) (s.item .east)) (hw : LinePort.Meets (P .west) (s.item .west)) :
    LinePort.Meets (P .east) ((s.offer p f).item .east) ∧ LinePort.Meets (P .west) ((s.offer p f).item .west) := by
  cases p
  · exact ⟨hP s .east f he, (congrArg (P .west) (s.offer_opposite .east f)).mpr hw⟩
  · exact ⟨(congrArg (P .east) (s.offer_opposite .west f)).mpr he, hP s .west f hw⟩

theorem foldl_ports {β : Type} {P : PortId → LinePort → Prop} (f : State → β → State) (l : List β) (s : State)
    (he : LinePort.Meets (P .east) (s.item .east)) (hw : LinePort.Meets (P .west) (s.item .west))
    (h : ∀ t b, LinePort.Meets (P .east) (t.item .east) → LinePort.Meets (P .west) (t.item .west) →
      LinePort.Meets (P .east) ((f t b).item .east) ∧ LinePort.Meets (P .west) ((f t b).item .west)) :
    LinePort.Meets (P .east) ((l.foldl f s).item .east) ∧ LinePort.Meets (P .west) ((l.foldl f s).item .west) := by
  induction l generalizing s with
  | nil => exact ⟨he, hw⟩
  | cons a l ih => exact ih _ (h s a he hw).1 (h s a he hw).2

@[simp] theorem State.onEntry_ports (s : State) (e : Fin 8) (cond : CallEntry → Bool) (act : CallEntry → State)
    {P : PortId → LinePort → Prop} (he : LinePort.Meets (P .east) (s.item .east)) (hw : LinePort.Meets (P .west) (s.item .west))
    (h : ∀ c, LinePort.Meets (P .east) ((act c).item .east) ∧ LinePort.Meets (P .west) ((act c).item .west)) :
    LinePort.Meets (P .east) ((s.onEntry e cond act).item .east) ∧ LinePort.Meets (P .west) ((s.onEntry e cond act).item .west) := by
  unfold State.onEntry; (repeat' split) <;> simp_all

@[simp] theorem State.offerOn_ports (s : State) (p : Option PortId) (f : Frame) {P : PortId → LinePort → Prop}
    (hP : OfferClosed P)
    (he : LinePort.Meets (P .east) (s.item .east)) (hw : LinePort.Meets (P .west) (s.item .west)) :
    LinePort.Meets (P .east) ((s.offerOn p f).item .east) ∧ LinePort.Meets (P .west) ((s.offerOn p f).item .west) := by
  unfold State.offerOn; (try dsimp only); (repeat' split) <;> simp_all

@[simp] theorem State.offerBeat_ports (s : State) (p : PortId) {P : PortId → LinePort → Prop} (hP : OfferClosed P)
    (he : LinePort.Meets (P .east) (s.item .east)) (hw : LinePort.Meets (P .west) (s.item .west)) :
    LinePort.Meets (P .east) ((s.offerBeat p).item .east) ∧ LinePort.Meets (P .west) ((s.offerBeat p).item .west) := by
  unfold State.offerBeat; (try dsimp only); (repeat' split) <;> simp_all

@[simp] theorem State.startBeats_ports (s : State) {P : PortId → LinePort → Prop} (hP : OfferClosed P)
    (he : LinePort.Meets (P .east) (s.item .east)) (hw : LinePort.Meets (P .west) (s.item .west)) :
    LinePort.Meets (P .east) (s.startBeats.item .east) ∧ LinePort.Meets (P .west) (s.startBeats.item .west) := by
  unfold State.startBeats; (try dsimp only); (repeat' split) <;> simp_all

@[simp] theorem State.signReport_ports (s : State) (addressee : Nat) (fallback : Option PortId)
    (payload : List Byte) {P : PortId → LinePort → Prop} (hP : OfferClosed P)
    (he : LinePort.Meets (P .east) (s.item .east)) (hw : LinePort.Meets (P .west) (s.item .west)) :
    LinePort.Meets (P .east) ((s.signReport addressee fallback payload).item .east) ∧ LinePort.Meets (P .west) ((s.signReport addressee fallback payload).item .west) := by
  unfold State.signReport; (try dsimp only); (repeat' split) <;> simp_all

@[simp] theorem State.loadReport_ports (s : State) (page : Fin 4) (loadId : Byte) (index : Nat) (o : LoadOutcome)
    (addressee : Nat) (fallback : Option PortId) {P : PortId → LinePort → Prop} (hP : OfferClosed P)
    (he : LinePort.Meets (P .east) (s.item .east)) (hw : LinePort.Meets (P .west) (s.item .west)) :
    LinePort.Meets (P .east) ((s.loadReport page loadId index o addressee fallback).item .east) ∧ LinePort.Meets (P .west) ((s.loadReport page loadId index o addressee fallback).item .west) := by
  unfold State.loadReport; (try dsimp only); (repeat' split) <;> simp_all

@[simp] theorem State.recordReport_ports (s : State) (page : Fin 4) (index : Nat) (o : LoadOutcome)
    {P : PortId → LinePort → Prop} (hP : OfferClosed P)
    (he : LinePort.Meets (P .east) (s.item .east)) (hw : LinePort.Meets (P .west) (s.item .west)) :
    LinePort.Meets (P .east) ((s.recordReport page index o).item .east) ∧ LinePort.Meets (P .west) ((s.recordReport page index o).item .west) := by
  unfold State.recordReport; (try dsimp only); (repeat' split) <;> simp_all

@[simp] theorem State.abortLoad_ports (s : State) (page : Fin 4) (o : LoadOutcome) {P : PortId → LinePort → Prop}
    (hP : OfferClosed P)
    (he : LinePort.Meets (P .east) (s.item .east)) (hw : LinePort.Meets (P .west) (s.item .west)) :
    LinePort.Meets (P .east) ((s.abortLoad page o).item .east) ∧ LinePort.Meets (P .west) ((s.abortLoad page o).item .west) := by
  unfold State.abortLoad; (try dsimp only); (repeat' split) <;> simp_all

@[simp] theorem State.completeLoad_ports (s : State) (page : Fin 4) {P : PortId → LinePort → Prop}
    (hP : OfferClosed P)
    (he : LinePort.Meets (P .east) (s.item .east)) (hw : LinePort.Meets (P .west) (s.item .west)) :
    LinePort.Meets (P .east) ((s.completeLoad page).item .east) ∧ LinePort.Meets (P .west) ((s.completeLoad page).item .west) := by
  unfold State.completeLoad; (try dsimp only); (repeat' split) <;> simp_all

@[simp] theorem State.refuseSdat_ports (s : State) (d : Sdat) (origin : Nat) (port : Option PortId)
    (o : LoadOutcome) {P : PortId → LinePort → Prop} (hP : OfferClosed P)
    (he : LinePort.Meets (P .east) (s.item .east)) (hw : LinePort.Meets (P .west) (s.item .west)) :
    LinePort.Meets (P .east) ((s.refuseSdat d origin port o).item .east) ∧ LinePort.Meets (P .west) ((s.refuseSdat d origin port o).item .west) := by
  unfold State.refuseSdat; (try dsimp only); (repeat' split) <;> simp_all

@[simp] theorem State.supersede_ports (s : State) (page : Fin 4) {P : PortId → LinePort → Prop} (hP : OfferClosed P)
    (he : LinePort.Meets (P .east) (s.item .east)) (hw : LinePort.Meets (P .west) (s.item .west)) :
    LinePort.Meets (P .east) ((s.supersede page).item .east) ∧ LinePort.Meets (P .west) ((s.supersede page).item .west) := by
  unfold State.supersede; (try dsimp only); (repeat' split) <;> simp_all

@[simp] theorem State.beginLoad_ports (s : State) (d : Sdat) (origin : Nat) (port : Option PortId)
    {P : PortId → LinePort → Prop} (hP : OfferClosed P)
    (he : LinePort.Meets (P .east) (s.item .east)) (hw : LinePort.Meets (P .west) (s.item .west)) :
    LinePort.Meets (P .east) ((s.beginLoad d origin port).item .east) ∧ LinePort.Meets (P .west) ((s.beginLoad d origin port).item .west) := by
  unfold State.beginLoad; (try dsimp only); (repeat' split) <;> simp_all

@[simp] theorem State.continueLoad_ports (s : State) (d : Sdat) (origin : Nat) (port : Option PortId)
    {P : PortId → LinePort → Prop} (hP : OfferClosed P)
    (he : LinePort.Meets (P .east) (s.item .east)) (hw : LinePort.Meets (P .west) (s.item .west)) :
    LinePort.Meets (P .east) ((s.continueLoad d origin port).item .east) ∧ LinePort.Meets (P .west) ((s.continueLoad d origin port).item .west) := by
  unfold State.continueLoad; (try dsimp only); (repeat' split) <;> simp_all

@[simp] theorem State.takeSdat_ports (s : State) (origin : Nat) (port : Option PortId) (payload : List Byte)
    {P : PortId → LinePort → Prop} (hP : OfferClosed P)
    (he : LinePort.Meets (P .east) (s.item .east)) (hw : LinePort.Meets (P .west) (s.item .west)) :
    LinePort.Meets (P .east) ((s.takeSdat origin port payload).item .east) ∧ LinePort.Meets (P .west) ((s.takeSdat origin port payload).item .west) := by
  unfold State.takeSdat; (try dsimp only); (repeat' split) <;> simp_all

@[simp] theorem State.claimReport_ports (s : State) (command outcome page priority removed : Nat)
    (addressee : Nat) (fallback : Option PortId) {P : PortId → LinePort → Prop} (hP : OfferClosed P)
    (he : LinePort.Meets (P .east) (s.item .east)) (hw : LinePort.Meets (P .west) (s.item .west)) :
    LinePort.Meets (P .east) ((s.claimReport command outcome page priority removed addressee fallback).item .east) ∧ LinePort.Meets (P .west) ((s.claimReport command outcome page priority removed addressee fallback).item .west) := by
  unfold State.claimReport; (try dsimp only); (repeat' split) <;> simp_all

@[simp] theorem State.claimRequest_ports (s : State) (c : Claim) {P : PortId → LinePort → Prop} (hP : OfferClosed P)
    (he : LinePort.Meets (P .east) (s.item .east)) (hw : LinePort.Meets (P .west) (s.item .west)) :
    LinePort.Meets (P .east) ((s.claimRequest c).item .east) ∧ LinePort.Meets (P .west) ((s.claimRequest c).item .west) := by
  unfold State.claimRequest; (try dsimp only); (repeat' split) <;> simp_all

@[simp] theorem State.ruleClaim_ports (s : State) (n : Fin 8) (page : Fin 4) (priority lifetime : Nat)
    {P : PortId → LinePort → Prop} (hP : OfferClosed P)
    (he : LinePort.Meets (P .east) (s.item .east)) (hw : LinePort.Meets (P .west) (s.item .west)) :
    LinePort.Meets (P .east) ((s.ruleClaim n page priority lifetime).item .east) ∧ LinePort.Meets (P .west) ((s.ruleClaim n page priority lifetime).item .west) := by
  unfold State.ruleClaim; (try dsimp only); (repeat' split) <;> simp_all

@[simp] theorem State.alertItem_ports (s : State) (origin : Nat) (a : AlertItem) {P : PortId → LinePort → Prop}
    (hP : OfferClosed P)
    (he : LinePort.Meets (P .east) (s.item .east)) (hw : LinePort.Meets (P .west) (s.item .west)) :
    LinePort.Meets (P .east) ((s.alertItem origin a).item .east) ∧ LinePort.Meets (P .west) ((s.alertItem origin a).item .west) := by
  unfold State.alertItem; (try dsimp only); (repeat' split) <;> simp_all

@[simp] theorem State.takeWalr_ports (s : State) (origin : Nat) (payload : List Byte)
    {P : PortId → LinePort → Prop} (hP : OfferClosed P)
    (he : LinePort.Meets (P .east) (s.item .east)) (hw : LinePort.Meets (P .west) (s.item .west)) :
    LinePort.Meets (P .east) ((s.takeWalr origin payload).item .east) ∧ LinePort.Meets (P .west) ((s.takeWalr origin payload).item .west) := by
  unfold State.takeWalr; (try dsimp only); (repeat' split) <;> first
    | exact foldl_ports _ _ _ (by simp_all) (by simp_all) fun t b h1 h2 => by first | split <;> simp_all | simp_all
    | simp_all

@[simp] theorem State.takeClaim_ports (s : State) (origin : Nat) (port : Option PortId) (page : Fin 4)
    (priority lifetime : Nat) (showAt : Option LTime) {P : PortId → LinePort → Prop} (hP : OfferClosed P)
    (he : LinePort.Meets (P .east) (s.item .east)) (hw : LinePort.Meets (P .west) (s.item .west)) :
    LinePort.Meets (P .east) ((s.takeClaim origin port page priority lifetime showAt).item .east) ∧ LinePort.Meets (P .west) ((s.takeClaim origin port page priority lifetime showAt).item .west) := by
  unfold State.takeClaim; (try dsimp only); (repeat' split) <;> simp_all

@[simp] theorem State.takeScmd_ports (s : State) (origin : Nat) (port : Option PortId) (payload : List Byte)
    {P : PortId → LinePort → Prop} (hP : OfferClosed P)
    (he : LinePort.Meets (P .east) (s.item .east)) (hw : LinePort.Meets (P .west) (s.item .west)) :
    LinePort.Meets (P .east) ((s.takeScmd origin port payload).item .east) ∧ LinePort.Meets (P .west) ((s.takeScmd origin port payload).item .west) := by
  unfold State.takeScmd; (try dsimp only); (repeat' split) <;> simp_all

@[simp] theorem State.offerCall_ports (s : State) (far : Option Nat) (port : Option PortId) (k : FrameKind)
    (payload : List Byte) {P : PortId → LinePort → Prop} (hP : OfferClosed P)
    (he : LinePort.Meets (P .east) (s.item .east)) (hw : LinePort.Meets (P .west) (s.item .west)) :
    LinePort.Meets (P .east) ((s.offerCall far port k payload).item .east) ∧ LinePort.Meets (P .west) ((s.offerCall far port k payload).item .west) := by
  unfold State.offerCall; (try dsimp only); (repeat' split) <;> simp_all

@[simp] theorem State.sendAnswer_ports (s : State) (c : CallEntry) (a : CallAnswer) (position : Nat)
    {P : PortId → LinePort → Prop} (hP : OfferClosed P)
    (he : LinePort.Meets (P .east) (s.item .east)) (hw : LinePort.Meets (P .west) (s.item .west)) :
    LinePort.Meets (P .east) ((s.sendAnswer c a position).item .east) ∧ LinePort.Meets (P .west) ((s.sendAnswer c a position).item .west) := by
  unfold State.sendAnswer; (try dsimp only); (repeat' split) <;> simp_all

@[simp] theorem State.sendBusy_ports (s : State) (r : CallRef) (origin : Nat) (p : PortId)
    {P : PortId → LinePort → Prop} (hP : OfferClosed P)
    (he : LinePort.Meets (P .east) (s.item .east)) (hw : LinePort.Meets (P .west) (s.item .west)) :
    LinePort.Meets (P .east) ((s.sendBusy r origin p).item .east) ∧ LinePort.Meets (P .west) ((s.sendBusy r origin p).item .west) := by
  unfold State.sendBusy; (try dsimp only); (repeat' split) <;> simp_all

@[simp] theorem State.offerRelease_ports (s : State) (r : Release) {P : PortId → LinePort → Prop} (hP : OfferClosed P)
    (he : LinePort.Meets (P .east) (s.item .east)) (hw : LinePort.Meets (P .west) (s.item .west)) :
    LinePort.Meets (P .east) ((s.offerRelease r).item .east) ∧ LinePort.Meets (P .west) ((s.offerRelease r).item .west) := by
  unfold State.offerRelease; (try dsimp only); (repeat' split) <;> simp_all

@[simp] theorem State.placeRelease_ports (s : State) (ref : CallRef) (far : Nat) (port : Option PortId)
    (cause : ReleaseCause) {P : PortId → LinePort → Prop} (hP : OfferClosed P)
    (he : LinePort.Meets (P .east) (s.item .east)) (hw : LinePort.Meets (P .west) (s.item .west)) :
    LinePort.Meets (P .east) ((s.placeRelease ref far port cause).item .east) ∧ LinePort.Meets (P .west) ((s.placeRelease ref far port cause).item .west) := by
  unfold State.placeRelease; (try dsimp only); (repeat' split) <;> simp_all

@[simp] theorem State.releaseEntry_ports (s : State) (c : CallEntry) (cause : ReleaseCause)
    {P : PortId → LinePort → Prop} (hP : OfferClosed P)
    (he : LinePort.Meets (P .east) (s.item .east)) (hw : LinePort.Meets (P .west) (s.item .west)) :
    LinePort.Meets (P .east) ((s.releaseEntry c cause).item .east) ∧ LinePort.Meets (P .west) ((s.releaseEntry c cause).item .west) := by
  unfold State.releaseEntry; (try dsimp only); (repeat' split) <;> simp_all

@[simp] theorem State.offerCreq_ports (s : State) (c : CallEntry) (q : CallRequest) (phone : Option PhoneId)
    {P : PortId → LinePort → Prop} (hP : OfferClosed P)
    (he : LinePort.Meets (P .east) (s.item .east)) (hw : LinePort.Meets (P .west) (s.item .west)) :
    LinePort.Meets (P .east) ((s.offerCreq c q phone).item .east) ∧ LinePort.Meets (P .west) ((s.offerCreq c q phone).item .west) := by
  unfold State.offerCreq; (try dsimp only); (repeat' split) <;> simp_all

@[simp] theorem State.attempt_ports (s : State) (e : Fin 8) (c : CallEntry) {P : PortId → LinePort → Prop}
    (hP : OfferClosed P)
    (he : LinePort.Meets (P .east) (s.item .east)) (hw : LinePort.Meets (P .west) (s.item .west)) :
    LinePort.Meets (P .east) ((s.attempt e c).item .east) ∧ LinePort.Meets (P .west) ((s.attempt e c).item .west) := by
  unfold State.attempt; (try dsimp only); (repeat' split) <;> simp_all

@[simp] theorem State.slowAttempt_ports (s : State) (e : Fin 8) (c : CallEntry) {P : PortId → LinePort → Prop}
    (hP : OfferClosed P)
    (he : LinePort.Meets (P .east) (s.item .east)) (hw : LinePort.Meets (P .west) (s.item .west)) :
    LinePort.Meets (P .east) ((s.slowAttempt e c).item .east) ∧ LinePort.Meets (P .west) ((s.slowAttempt e c).item .west) := by
  unfold State.slowAttempt; (try dsimp only); (repeat' split) <;> simp_all

@[simp] theorem State.askAgain_ports (s : State) (e : Fin 8) (c : CallEntry) {P : PortId → LinePort → Prop}
    (hP : OfferClosed P)
    (he : LinePort.Meets (P .east) (s.item .east)) (hw : LinePort.Meets (P .west) (s.item .west)) :
    LinePort.Meets (P .east) ((s.askAgain e c).item .east) ∧ LinePort.Meets (P .west) ((s.askAgain e c).item .west) := by
  unfold State.askAgain; (try dsimp only); (repeat' split) <;> simp_all

@[simp] theorem State.sendVoice_ports (s : State) (e : Fin 8) (c : CallEntry) (samples : List Byte)
    {P : PortId → LinePort → Prop} (hP : OfferClosed P)
    (he : LinePort.Meets (P .east) (s.item .east)) (hw : LinePort.Meets (P .west) (s.item .west)) :
    LinePort.Meets (P .east) ((s.sendVoice e c samples).item .east) ∧ LinePort.Meets (P .west) ((s.sendVoice e c samples).item .west) := by
  unfold State.sendVoice; (try dsimp only); (repeat' split) <;> simp_all

@[simp] theorem State.enterResuming_ports (s : State) (e : Fin 8) (c : CallEntry) {P : PortId → LinePort → Prop}
    (hP : OfferClosed P)
    (he : LinePort.Meets (P .east) (s.item .east)) (hw : LinePort.Meets (P .west) (s.item .west)) :
    LinePort.Meets (P .east) ((s.enterResuming e c).item .east) ∧ LinePort.Meets (P .west) ((s.enterResuming e c).item .west) := by
  unfold State.enterResuming; (try dsimp only); (repeat' split) <;> simp_all

@[simp] theorem State.incidentAlert_ports (s : State) {P : PortId → LinePort → Prop} (hP : OfferClosed P)
    (he : LinePort.Meets (P .east) (s.item .east)) (hw : LinePort.Meets (P .west) (s.item .west)) :
    LinePort.Meets (P .east) (s.incidentAlert.item .east) ∧ LinePort.Meets (P .west) (s.incidentAlert.item .west) := by
  have h1 := fun f => State.offer_ports s .east f hP he hw
  have h2 := fun f => State.offer_ports _ .west f hP (h1 f).1 (h1 f).2
  unfold State.incidentAlert; split
  · exact ⟨he, hw⟩
  · exact State.alertItem_ports _ _ _ hP (h2 _).1 (h2 _).2

@[simp] theorem State.startEmergencyCall_ports (s : State) (ph : PhoneId) {P : PortId → LinePort → Prop}
    (hP : OfferClosed P)
    (he : LinePort.Meets (P .east) (s.item .east)) (hw : LinePort.Meets (P .west) (s.item .west)) :
    LinePort.Meets (P .east) ((s.startEmergencyCall ph).item .east) ∧ LinePort.Meets (P .west) ((s.startEmergencyCall ph).item .west) := by
  unfold State.startEmergencyCall; split
  · exact ⟨he, hw⟩
  · refine (fun h => State.attempt_ports _ _ _ hP h.1 h.2) (State.incidentAlert_ports _ hP ?_ ?_) <;> simp [*]

@[simp] theorem State.answerRing_ports (s : State) (e : Fin 8) (c : CallEntry) (ph : PhoneId)
    {P : PortId → LinePort → Prop} (hP : OfferClosed P)
    (he : LinePort.Meets (P .east) (s.item .east)) (hw : LinePort.Meets (P .west) (s.item .west)) :
    LinePort.Meets (P .east) ((s.answerRing e c ph).item .east) ∧ LinePort.Meets (P .west) ((s.answerRing e c ph).item .west) := by
  unfold State.answerRing; (try dsimp only); (repeat' split) <;> simp_all

@[simp] theorem State.hookDepart_ports (s : State) (ph : PhoneId) {P : PortId → LinePort → Prop} (hP : OfferClosed P)
    (he : LinePort.Meets (P .east) (s.item .east)) (hw : LinePort.Meets (P .west) (s.item .west)) :
    LinePort.Meets (P .east) ((s.hookDepart ph).item .east) ∧ LinePort.Meets (P .west) ((s.hookDepart ph).item .west) := by
  unfold State.hookDepart; (try dsimp only); (repeat' split) <;> simp_all

@[simp] theorem State.hookReturn_ports (s : State) (ph : PhoneId) {P : PortId → LinePort → Prop} (hP : OfferClosed P)
    (he : LinePort.Meets (P .east) (s.item .east)) (hw : LinePort.Meets (P .west) (s.item .west)) :
    LinePort.Meets (P .east) ((s.hookReturn ph).item .east) ∧ LinePort.Meets (P .west) ((s.hookReturn ph).item .west) := by
  unfold State.hookReturn; (try dsimp only); (repeat' split) <;> simp_all

@[simp] theorem State.choiceAttempt_ports (s : State) (e : Fin 8) (c : CallEntry) {P : PortId → LinePort → Prop}
    (hP : OfferClosed P)
    (he : LinePort.Meets (P .east) (s.item .east)) (hw : LinePort.Meets (P .west) (s.item .west)) :
    LinePort.Meets (P .east) ((s.choiceAttempt e c).item .east) ∧
      LinePort.Meets (P .west) ((s.choiceAttempt e c).item .west) := by
  unfold State.choiceAttempt; split <;> simp_all

@[simp] theorem State.choiceForCall_ports (n : Nat) (p : PortId) (s : State) (e : Fin 8)
    {P : PortId → LinePort → Prop} (hP : OfferClosed P)
    (he : LinePort.Meets (P .east) (s.item .east)) (hw : LinePort.Meets (P .west) (s.item .west)) :
    LinePort.Meets (P .east) ((State.choiceForCall n p s e).item .east) ∧ LinePort.Meets (P .west) ((State.choiceForCall n p s e).item .west) := by
  unfold State.choiceForCall; (try dsimp only); (repeat' split) <;> simp_all

@[simp] theorem State.callsChoice_ports (s : State) (r : Route) {P : PortId → LinePort → Prop} (hP : OfferClosed P)
    (he : LinePort.Meets (P .east) (s.item .east)) (hw : LinePort.Meets (P .west) (s.item .west)) :
    LinePort.Meets (P .east) ((s.callsChoice r).item .east) ∧ LinePort.Meets (P .west) ((s.callsChoice r).item .west) := by
  unfold State.callsChoice; (try dsimp only); (repeat' split) <;> first
    | exact foldl_ports _ _ _ (by simp_all) (by simp_all) fun t b h1 h2 => by first | split <;> simp_all | simp_all
    | simp_all

@[simp] theorem State.lossForCall_ports (n : Nat) (s : State) (e : Fin 8) {P : PortId → LinePort → Prop}
    (hP : OfferClosed P)
    (he : LinePort.Meets (P .east) (s.item .east)) (hw : LinePort.Meets (P .west) (s.item .west)) :
    LinePort.Meets (P .east) ((State.lossForCall n s e).item .east) ∧ LinePort.Meets (P .west) ((State.lossForCall n s e).item .west) := by
  unfold State.lossForCall; (try dsimp only); (repeat' split) <;> simp_all

@[simp] theorem State.callsLoss_ports (s : State) (n : Nat) {P : PortId → LinePort → Prop} (hP : OfferClosed P)
    (he : LinePort.Meets (P .east) (s.item .east)) (hw : LinePort.Meets (P .west) (s.item .west)) :
    LinePort.Meets (P .east) ((s.callsLoss n).item .east) ∧ LinePort.Meets (P .west) ((s.callsLoss n).item .west) := by
  unfold State.callsLoss; (try dsimp only); (repeat' split) <;> first
    | exact foldl_ports _ _ _ (by simp_all) (by simp_all) fun t b h1 h2 => by first | split <;> simp_all | simp_all
    | simp_all

@[simp] theorem State.promote_ports (s : State) {P : PortId → LinePort → Prop} (hP : OfferClosed P)
    (he : LinePort.Meets (P .east) (s.item .east)) (hw : LinePort.Meets (P .west) (s.item .west)) :
    LinePort.Meets (P .east) (s.promote.item .east) ∧ LinePort.Meets (P .west) (s.promote.item .west) := by
  unfold State.promote; (try dsimp only); (repeat' split) <;> simp_all

@[simp] theorem State.freeConsoleCall_ports (s : State) (e : Fin 8) (c : CallEntry) (m : CabMsg)
    {P : PortId → LinePort → Prop} (hP : OfferClosed P)
    (he : LinePort.Meets (P .east) (s.item .east)) (hw : LinePort.Meets (P .west) (s.item .west)) :
    LinePort.Meets (P .east) ((s.freeConsoleCall e c m).item .east) ∧ LinePort.Meets (P .west) ((s.freeConsoleCall e c m).item .west) := by
  unfold State.freeConsoleCall; (try dsimp only); (repeat' split) <;> simp_all

@[simp] theorem State.callingAnswered_ports (s : State) (e : Fin 8) (c : CallEntry) {P : PortId → LinePort → Prop}
    (hP : OfferClosed P)
    (he : LinePort.Meets (P .east) (s.item .east)) (hw : LinePort.Meets (P .west) (s.item .west)) :
    LinePort.Meets (P .east) ((s.callingAnswered e c).item .east) ∧ LinePort.Meets (P .west) ((s.callingAnswered e c).item .west) := by
  unfold State.callingAnswered; (try dsimp only); (repeat' split) <;> simp_all

@[simp] theorem State.terminusAnswer_ports (s : State) (e : Fin 8) (c : CallEntry) (a : Cacc)
    {P : PortId → LinePort → Prop} (hP : OfferClosed P)
    (he : LinePort.Meets (P .east) (s.item .east)) (hw : LinePort.Meets (P .west) (s.item .west)) :
    LinePort.Meets (P .east) ((s.terminusAnswer e c a).item .east) ∧ LinePort.Meets (P .west) ((s.terminusAnswer e c a).item .west) := by
  unfold State.terminusAnswer; (try dsimp only); (repeat' split) <;> simp_all

@[simp] theorem State.newRequest_ports (s : State) (p : PortId) (origin : Nat) (q : Creq)
    {P : PortId → LinePort → Prop} (hP : OfferClosed P)
    (he : LinePort.Meets (P .east) (s.item .east)) (hw : LinePort.Meets (P .west) (s.item .west)) :
    LinePort.Meets (P .east) ((s.newRequest p origin q).item .east) ∧ LinePort.Meets (P .west) ((s.newRequest p origin q).item .west) := by
  unfold State.newRequest; (try dsimp only); (repeat' split) <;> simp_all

@[simp] theorem State.repeatRequest_ports (s : State) (p : PortId) (e : Fin 8) (c : CallEntry) (q : Creq)
    {P : PortId → LinePort → Prop} (hP : OfferClosed P)
    (he : LinePort.Meets (P .east) (s.item .east)) (hw : LinePort.Meets (P .west) (s.item .west)) :
    LinePort.Meets (P .east) ((s.repeatRequest p e c q).item .east) ∧ LinePort.Meets (P .west) ((s.repeatRequest p e c q).item .west) := by
  unfold State.repeatRequest; (try dsimp only); (repeat' split) <;> simp_all

@[simp] theorem State.repeatRing_ports (s : State) (p : PortId) (e : Fin 8) (c : CallEntry)
    {P : PortId → LinePort → Prop} (hP : OfferClosed P)
    (he : LinePort.Meets (P .east) (s.item .east)) (hw : LinePort.Meets (P .west) (s.item .west)) :
    LinePort.Meets (P .east) ((s.repeatRing p e c).item .east) ∧ LinePort.Meets (P .west) ((s.repeatRing p e c).item .west) := by
  unfold State.repeatRing; (try dsimp only); (repeat' split) <;> simp_all

@[simp] theorem State.beginRing_ports (s : State) (p : PortId) (origin : Nat) (ref : CallRef) (ph : PhoneId)
    (e : Fin 8) {P : PortId → LinePort → Prop} (hP : OfferClosed P)
    (he : LinePort.Meets (P .east) (s.item .east)) (hw : LinePort.Meets (P .west) (s.item .west)) :
    LinePort.Meets (P .east) ((s.beginRing p origin ref ph e).item .east) ∧ LinePort.Meets (P .west) ((s.beginRing p origin ref ph e).item .west) := by
  unfold State.beginRing; (try dsimp only); (repeat' split) <;> simp_all

@[simp] theorem State.ringRequest_ports (s : State) (p : PortId) (origin : Nat) (q : Creq)
    {P : PortId → LinePort → Prop} (hP : OfferClosed P)
    (he : LinePort.Meets (P .east) (s.item .east)) (hw : LinePort.Meets (P .west) (s.item .west)) :
    LinePort.Meets (P .east) ((s.ringRequest p origin q).item .east) ∧ LinePort.Meets (P .west) ((s.ringRequest p origin q).item .west) := by
  unfold State.ringRequest; (try dsimp only); (repeat' split) <;> simp_all

@[simp] theorem State.busyCreq_ports (s : State) (p : PortId) (origin : Nat) (q : Creq)
    {P : PortId → LinePort → Prop} (hP : OfferClosed P)
    (he : LinePort.Meets (P .east) (s.item .east)) (hw : LinePort.Meets (P .west) (s.item .west)) :
    LinePort.Meets (P .east) ((s.busyCreq p origin q).item .east) ∧ LinePort.Meets (P .west) ((s.busyCreq p origin q).item .west) := by
  unfold State.busyCreq; simp_all

@[simp] theorem State.takeCreq_ports (s : State) (p : PortId) (origin : Nat) (q : Creq)
    {P : PortId → LinePort → Prop} (hP : OfferClosed P)
    (he : LinePort.Meets (P .east) (s.item .east)) (hw : LinePort.Meets (P .west) (s.item .west)) :
    LinePort.Meets (P .east) ((s.takeCreq p origin q).item .east) ∧ LinePort.Meets (P .west) ((s.takeCreq p origin q).item .west) := by
  unfold State.takeCreq; (try dsimp only); (repeat' split) <;> simp_all

@[simp] theorem State.takeCacc_ports (s : State) (p : PortId) (origin : Nat) (a : Cacc)
    {P : PortId → LinePort → Prop} (hP : OfferClosed P)
    (he : LinePort.Meets (P .east) (s.item .east)) (hw : LinePort.Meets (P .west) (s.item .west)) :
    LinePort.Meets (P .east) ((s.takeCacc p origin a).item .east) ∧ LinePort.Meets (P .west) ((s.takeCacc p origin a).item .west) := by
  unfold State.takeCacc; (try dsimp only); (repeat' split) <;> simp_all

@[simp] theorem State.takeCrel_ports (s : State) (p : PortId) (origin : Nat) (ref : CallRef)
    (cause : ReleaseCause) {P : PortId → LinePort → Prop} (hP : OfferClosed P)
    (he : LinePort.Meets (P .east) (s.item .east)) (hw : LinePort.Meets (P .west) (s.item .west)) :
    LinePort.Meets (P .east) ((s.takeCrel p origin ref cause).item .east) ∧ LinePort.Meets (P .west) ((s.takeCrel p origin ref cause).item .west) := by
  unfold State.takeCrel; (try dsimp only); (repeat' split) <;> simp_all

@[simp] theorem State.takeVoic_ports (s : State) (p : PortId) (origin : Nat) (ref : CallRef) (f : VoiceFrame)
    {P : PortId → LinePort → Prop} (hP : OfferClosed P)
    (he : LinePort.Meets (P .east) (s.item .east)) (hw : LinePort.Meets (P .west) (s.item .west)) :
    LinePort.Meets (P .east) ((s.takeVoic p origin ref f).item .east) ∧ LinePort.Meets (P .west) ((s.takeVoic p origin ref f).item .west) := by
  unfold State.takeVoic; (try dsimp only); (repeat' split) <;> simp_all

@[simp] theorem State.takeCallFrame_ports (s : State) (p : PortId) (f : Frame) {P : PortId → LinePort → Prop}
    (hP : OfferClosed P)
    (he : LinePort.Meets (P .east) (s.item .east)) (hw : LinePort.Meets (P .west) (s.item .west)) :
    LinePort.Meets (P .east) ((s.takeCallFrame p f).item .east) ∧ LinePort.Meets (P .west) ((s.takeCallFrame p f).item .west) := by
  unfold State.takeCallFrame; (try dsimp only); (repeat' split) <;> simp_all

@[simp] theorem State.attemptExpiry_ports (s : State) (e : Fin 8) {P : PortId → LinePort → Prop} (hP : OfferClosed P)
    (he : LinePort.Meets (P .east) (s.item .east)) (hw : LinePort.Meets (P .west) (s.item .west)) :
    LinePort.Meets (P .east) ((s.attemptExpiry e).item .east) ∧ LinePort.Meets (P .west) ((s.attemptExpiry e).item .west) := by
  unfold State.attemptExpiry; refine State.onEntry_ports s e _ _ he hw fun c => ?_; (repeat' split) <;> simp [*]

@[simp] theorem State.roadsideSilence_ports (s : State) (e : Fin 8) {P : PortId → LinePort → Prop}
    (hP : OfferClosed P)
    (he : LinePort.Meets (P .east) (s.item .east)) (hw : LinePort.Meets (P .west) (s.item .west)) :
    LinePort.Meets (P .east) ((s.roadsideSilence e).item .east) ∧ LinePort.Meets (P .west) ((s.roadsideSilence e).item .west) := by
  unfold State.roadsideSilence; refine State.onEntry_ports s e _ _ he hw fun c => ?_; (repeat' split) <;> simp [*]

@[simp] theorem State.roadsideKeep_ports (s : State) (e : Fin 8) {P : PortId → LinePort → Prop} (hP : OfferClosed P)
    (he : LinePort.Meets (P .east) (s.item .east)) (hw : LinePort.Meets (P .west) (s.item .west)) :
    LinePort.Meets (P .east) ((s.roadsideKeep e).item .east) ∧ LinePort.Meets (P .west) ((s.roadsideKeep e).item .west) := by
  unfold State.roadsideKeep; exact State.onEntry_ports s e _ _ he hw fun c => by simp [*]

@[simp] theorem State.terminusSilence_ports (s : State) (e : Fin 8) {P : PortId → LinePort → Prop}
    (hP : OfferClosed P)
    (he : LinePort.Meets (P .east) (s.item .east)) (hw : LinePort.Meets (P .west) (s.item .west)) :
    LinePort.Meets (P .east) ((s.terminusSilence e).item .east) ∧ LinePort.Meets (P .west) ((s.terminusSilence e).item .west) := by
  unfold State.terminusSilence; exact State.onEntry_ports s e _ _ he hw fun c => by simp [*]

@[simp] theorem State.queuedKeep_ports (s : State) (e : Fin 8) {P : PortId → LinePort → Prop} (hP : OfferClosed P)
    (he : LinePort.Meets (P .east) (s.item .east)) (hw : LinePort.Meets (P .west) (s.item .west)) :
    LinePort.Meets (P .east) ((s.queuedKeep e).item .east) ∧ LinePort.Meets (P .west) ((s.queuedKeep e).item .west) := by
  unfold State.queuedKeep; exact State.onEntry_ports s e _ _ he hw fun c => by simp [*]

@[simp] theorem State.callingRing_ports (s : State) (e : Fin 8) {P : PortId → LinePort → Prop} (hP : OfferClosed P)
    (he : LinePort.Meets (P .east) (s.item .east)) (hw : LinePort.Meets (P .west) (s.item .west)) :
    LinePort.Meets (P .east) ((s.callingRing e).item .east) ∧ LinePort.Meets (P .west) ((s.callingRing e).item .west) := by
  unfold State.callingRing; exact State.onEntry_ports s e _ _ he hw fun c => by simp [*]

@[simp] theorem State.ringAttempt_ports (s : State) (e : Fin 8) (c : CallEntry) {P : PortId → LinePort → Prop}
    (hP : OfferClosed P)
    (he : LinePort.Meets (P .east) (s.item .east)) (hw : LinePort.Meets (P .west) (s.item .west)) :
    LinePort.Meets (P .east) ((s.ringAttempt e c).item .east) ∧ LinePort.Meets (P .west) ((s.ringAttempt e c).item .west) := by
  unfold State.ringAttempt; (try dsimp only); (repeat' split) <;> simp_all

@[simp] theorem State.ringOutAttempt_ports (s : State) (e : Fin 8) {P : PortId → LinePort → Prop} (hP : OfferClosed P)
    (he : LinePort.Meets (P .east) (s.item .east)) (hw : LinePort.Meets (P .west) (s.item .west)) :
    LinePort.Meets (P .east) ((s.ringOutAttempt e).item .east) ∧ LinePort.Meets (P .west) ((s.ringOutAttempt e).item .west) := by
  unfold State.ringOutAttempt; exact State.onEntry_ports s e _ _ he hw fun c => by simp [*]

@[simp] theorem State.takeRingOut_ports (s : State) (node phone : Byte) {P : PortId → LinePort → Prop}
    (hP : OfferClosed P)
    (he : LinePort.Meets (P .east) (s.item .east)) (hw : LinePort.Meets (P .west) (s.item .west)) :
    LinePort.Meets (P .east) ((s.takeRingOut node phone).item .east) ∧ LinePort.Meets (P .west) ((s.takeRingOut node phone).item .west) := by
  unfold State.takeRingOut; (try dsimp only); (repeat' split) <;> simp_all

@[simp] theorem State.takeHangup_ports (s : State) (ref : CallRef) {P : PortId → LinePort → Prop} (hP : OfferClosed P)
    (he : LinePort.Meets (P .east) (s.item .east)) (hw : LinePort.Meets (P .west) (s.item .west)) :
    LinePort.Meets (P .east) ((s.takeHangup ref).item .east) ∧ LinePort.Meets (P .west) ((s.takeHangup ref).item .west) := by
  unfold State.takeHangup; (try dsimp only); (repeat' split) <;> simp_all

@[simp] theorem State.takeConsoleVoice_ports (s : State) (ref : CallRef) (samples : List Byte)
    {P : PortId → LinePort → Prop} (hP : OfferClosed P)
    (he : LinePort.Meets (P .east) (s.item .east)) (hw : LinePort.Meets (P .west) (s.item .west)) :
    LinePort.Meets (P .east) ((s.takeConsoleVoice ref samples).item .east) ∧ LinePort.Meets (P .west) ((s.takeConsoleVoice ref samples).item .west) := by
  unfold State.takeConsoleVoice; (repeat' split) <;> first
    | exact ⟨he, hw⟩
    | exact State.onEntry_ports _ _ _ _ he hw fun c => by simp [*]

@[simp] theorem State.releaseExpiry_ports (s : State) (i : Fin 8) {P : PortId → LinePort → Prop} (hP : OfferClosed P)
    (he : LinePort.Meets (P .east) (s.item .east)) (hw : LinePort.Meets (P .west) (s.item .west)) :
    LinePort.Meets (P .east) ((s.releaseExpiry i).item .east) ∧ LinePort.Meets (P .west) ((s.releaseExpiry i).item .west) := by
  unfold State.releaseExpiry; (try dsimp only); (repeat' split) <;> simp_all

@[simp] theorem State.takeSamples_ports (s : State) (ph : PhoneId) (samples : List Byte)
    {P : PortId → LinePort → Prop} (hP : OfferClosed P)
    (he : LinePort.Meets (P .east) (s.item .east)) (hw : LinePort.Meets (P .west) (s.item .west)) :
    LinePort.Meets (P .east) ((s.takeSamples ph samples).item .east) ∧ LinePort.Meets (P .west) ((s.takeSamples ph samples).item .west) := by
  unfold State.takeSamples; (repeat' split) <;> first
    | exact ⟨he, hw⟩
    | exact State.onEntry_ports _ _ _ _ he hw fun c => by simp [*]

@[simp] theorem State.receiveTrec_ports (s : State) (p : PortId) (f : Frame) {P : PortId → LinePort → Prop}
    (hP : OfferClosed P)
    (he : LinePort.Meets (P .east) (s.item .east)) (hw : LinePort.Meets (P .west) (s.item .west)) :
    LinePort.Meets (P .east) ((s.receiveTrec p f).item .east) ∧ LinePort.Meets (P .west) ((s.receiveTrec p f).item .west) := by
  unfold State.receiveTrec; (try dsimp only); (repeat' split) <;> simp_all

@[simp] theorem State.buildOne_ports (s : State) {P : PortId → LinePort → Prop} (hP : OfferClosed P)
    (he : LinePort.Meets (P .east) (s.item .east)) (hw : LinePort.Meets (P .west) (s.item .west)) :
    LinePort.Meets (P .east) (s.buildOne.item .east) ∧ LinePort.Meets (P .west) (s.buildOne.item .west) := by
  unfold State.buildOne; (try dsimp only); (repeat' split) <;> simp_all

@[simp] theorem State.buildTrecs_ports (n : Nat) (s : State) {P : PortId → LinePort → Prop} (hP : OfferClosed P)
    (he : LinePort.Meets (P .east) (s.item .east)) (hw : LinePort.Meets (P .west) (s.item .west)) :
    LinePort.Meets (P .east) ((s.buildTrecs n).item .east) ∧ LinePort.Meets (P .west) ((s.buildTrecs n).item .west) := by
  induction n generalizing s with
  | zero => exact ⟨he, hw⟩
  | succ n ih => unfold State.buildTrecs; (repeat' split) <;> simp_all

@[simp] theorem State.runToll_ports (s : State) {P : PortId → LinePort → Prop} (hP : OfferClosed P)
    (he : LinePort.Meets (P .east) (s.item .east)) (hw : LinePort.Meets (P .west) (s.item .west)) :
    LinePort.Meets (P .east) (s.runToll.item .east) ∧ LinePort.Meets (P .west) (s.runToll.item .west) := by
  unfold State.runToll; (try dsimp only); (repeat' split) <;> simp_all

@[simp] theorem State.tackDelivered_ports (s : State) (f : Frame) {P : PortId → LinePort → Prop} (hP : OfferClosed P)
    (he : LinePort.Meets (P .east) (s.item .east)) (hw : LinePort.Meets (P .west) (s.item .west)) :
    LinePort.Meets (P .east) ((s.tackDelivered f).item .east) ∧ LinePort.Meets (P .west) ((s.tackDelivered f).item .west) := by
  unfold State.tackDelivered; (try dsimp only); (repeat' split) <;> simp_all

@[simp] theorem State.offerWalr_ports (s : State) (p : PortId) (zone : Nat) (payload : List Byte)
    {P : PortId → LinePort → Prop} (hP : OfferClosed P)
    (he : LinePort.Meets (P .east) (s.item .east)) (hw : LinePort.Meets (P .west) (s.item .west)) :
    LinePort.Meets (P .east) ((s.offerWalr p zone payload).item .east) ∧ LinePort.Meets (P .west) ((s.offerWalr p zone payload).item .west) := by
  unfold State.offerWalr; (try dsimp only); (repeat' split) <;> simp_all

@[simp] theorem State.sendWalr_ports (s : State) {P : PortId → LinePort → Prop} (hP : OfferClosed P)
    (he : LinePort.Meets (P .east) (s.item .east)) (hw : LinePort.Meets (P .west) (s.item .west)) :
    LinePort.Meets (P .east) (s.sendWalr.item .east) ∧ LinePort.Meets (P .west) (s.sendWalr.item .west) := by
  have last : ∀ (t : State) (m : State → CabMsg), LinePort.Meets (P .east) (t.item .east) ∧ LinePort.Meets (P .west) (t.item .west) →
      LinePort.Meets (P .east) ((if t.isTerminus then t.placeOrDrop (m t) else t).item .east) ∧
        LinePort.Meets (P .west) ((if t.isTerminus then t.placeOrDrop (m t) else t).item .west) := by
    intro t m h; split <;> simp [h.1, h.2]
  unfold State.sendWalr
  refine last _ (fun u => centreCopy 0x87 u.cfg.number _) ?_
  split
  · have h1 := fun (t : State) he hw z f => State.offerWalr_ports t .east z f hP he hw
    exact (fun h => State.offerWalr_ports _ .west _ _ hP h.1 h.2) (h1 _ (by simp [*]) (by simp [*]) _ _)
  · simp [*]

@[simp] theorem State.gather_ports (s : State) (g : GatherItem) {P : PortId → LinePort → Prop} (hP : OfferClosed P)
    (he : LinePort.Meets (P .east) (s.item .east)) (hw : LinePort.Meets (P .west) (s.item .west)) :
    LinePort.Meets (P .east) ((s.gather g).item .east) ∧ LinePort.Meets (P .west) ((s.gather g).item .west) := by
  unfold State.gather; (try dsimp only); (repeat' split) <;> simp_all

@[simp] theorem State.claimForRule_ports (s : State) (n : Fin 8) {P : PortId → LinePort → Prop} (hP : OfferClosed P)
    (he : LinePort.Meets (P .east) (s.item .east)) (hw : LinePort.Meets (P .west) (s.item .west)) :
    LinePort.Meets (P .east) ((s.claimForRule n).item .east) ∧ LinePort.Meets (P .west) ((s.claimForRule n).item .west) := by
  unfold State.claimForRule; (try dsimp only); (repeat' split) <;> simp_all

@[simp] theorem State.ruleRaised_ports (s : State) (n : Fin 8) {P : PortId → LinePort → Prop} (hP : OfferClosed P)
    (he : LinePort.Meets (P .east) (s.item .east)) (hw : LinePort.Meets (P .west) (s.item .west)) :
    LinePort.Meets (P .east) ((s.ruleRaised n).item .east) ∧ LinePort.Meets (P .west) ((s.ruleRaised n).item .west) := by
  unfold State.ruleRaised; (try dsimp only); (repeat' split) <;> simp_all

@[simp] theorem State.ruleCleared_ports (s : State) (n : Fin 8) {P : PortId → LinePort → Prop} (hP : OfferClosed P)
    (he : LinePort.Meets (P .east) (s.item .east)) (hw : LinePort.Meets (P .west) (s.item .west)) :
    LinePort.Meets (P .east) ((s.ruleCleared n).item .east) ∧ LinePort.Meets (P .west) ((s.ruleCleared n).item .west) := by
  unfold State.ruleCleared; (try dsimp only); (repeat' split) <;> simp_all

@[simp] theorem State.evaluate_ports (s : State) (n : Fin 8) (raiseC clearC : Bool) {P : PortId → LinePort → Prop}
    (hP : OfferClosed P)
    (he : LinePort.Meets (P .east) (s.item .east)) (hw : LinePort.Meets (P .west) (s.item .west)) :
    LinePort.Meets (P .east) ((s.evaluate n raiseC clearC).item .east) ∧ LinePort.Meets (P .west) ((s.evaluate n raiseC clearC).item .west) := by
  unfold State.evaluate; (try dsimp only); (repeat' split) <;> simp_all

@[simp] theorem State.evaluateSource_ports (s : State) (src : RuleSource) (v : Int) {P : PortId → LinePort → Prop}
    (hP : OfferClosed P)
    (he : LinePort.Meets (P .east) (s.item .east)) (hw : LinePort.Meets (P .west) (s.item .west)) :
    LinePort.Meets (P .east) ((s.evaluateSource src v).item .east) ∧ LinePort.Meets (P .west) ((s.evaluateSource src v).item .west) := by
  unfold State.evaluateSource; (try dsimp only); (repeat' split) <;> first
    | exact foldl_ports _ _ _ (by simp_all) (by simp_all) fun t b h1 h2 => by first | split <;> simp_all | simp_all
    | simp_all

@[simp] theorem State.windowEnd_ports (s : State) (ch : PulseId) {P : PortId → LinePort → Prop} (hP : OfferClosed P)
    (he : LinePort.Meets (P .east) (s.item .east)) (hw : LinePort.Meets (P .west) (s.item .west)) :
    LinePort.Meets (P .east) ((s.windowEnd ch).item .east) ∧ LinePort.Meets (P .west) ((s.windowEnd ch).item .west) := by
  unfold State.windowEnd; (try dsimp only); (repeat' split) <;> simp_all

@[simp] theorem State.takeReading_ports (s : State) (channel : Byte) (value : BitVec 16) (valid : Bool)
    {P : PortId → LinePort → Prop} (hP : OfferClosed P)
    (he : LinePort.Meets (P .east) (s.item .east)) (hw : LinePort.Meets (P .west) (s.item .west)) :
    LinePort.Meets (P .east) ((s.takeReading channel value valid).item .east) ∧ LinePort.Meets (P .west) ((s.takeReading channel value valid).item .west) := by
  unfold State.takeReading; (try dsimp only); (repeat' split) <;> simp_all

@[simp] theorem State.contactForRule_ports (i : Fin 6) (s : State) (n : Fin 8) {P : PortId → LinePort → Prop}
    (hP : OfferClosed P)
    (he : LinePort.Meets (P .east) (s.item .east)) (hw : LinePort.Meets (P .west) (s.item .west)) :
    LinePort.Meets (P .east) ((State.contactForRule i s n).item .east) ∧ LinePort.Meets (P .west) ((State.contactForRule i s n).item .west) := by
  unfold State.contactForRule; (try dsimp only); (repeat' split) <;> simp_all

@[simp] theorem State.contactEvent_ports (s : State) (i : Fin 6) {P : PortId → LinePort → Prop} (hP : OfferClosed P)
    (he : LinePort.Meets (P .east) (s.item .east)) (hw : LinePort.Meets (P .west) (s.item .west)) :
    LinePort.Meets (P .east) ((s.contactEvent i).item .east) ∧ LinePort.Meets (P .west) ((s.contactEvent i).item .west) := by
  unfold State.contactEvent; (try dsimp only); (repeat' split) <;> first
    | exact foldl_ports _ _ _ (by simp_all) (by simp_all) fun t b h1 h2 => by first | split <;> simp_all | simp_all
    | simp_all

@[simp] theorem State.renew_ports (s : State) (n : Fin 8) {P : PortId → LinePort → Prop} (hP : OfferClosed P)
    (he : LinePort.Meets (P .east) (s.item .east)) (hw : LinePort.Meets (P .west) (s.item .west)) :
    LinePort.Meets (P .east) ((s.renew n).item .east) ∧ LinePort.Meets (P .west) ((s.renew n).item .west) := by
  unfold State.renew; dsimp only; split
  · refine (fun h => State.claimForRule_ports _ _ hP h.1 h.2) (State.gather_ports _ _ hP ?_ ?_) <;> simp [*]
  · simp [*]

@[simp] theorem State.sendWrpt_ports (s : State) {P : PortId → LinePort → Prop} (hP : OfferClosed P)
    (he : LinePort.Meets (P .east) (s.item .east)) (hw : LinePort.Meets (P .west) (s.item .west)) :
    LinePort.Meets (P .east) (s.sendWrpt.item .east) ∧ LinePort.Meets (P .west) (s.sendWrpt.item .west) := by
  unfold State.sendWrpt; (try dsimp only); (repeat' split) <;> simp_all

@[simp] theorem State.offerPart_ports (p : PortId) (s : State) (payload : List Byte)
    {P : PortId → LinePort → Prop} (hP : OfferClosed P)
    (he : LinePort.Meets (P .east) (s.item .east)) (hw : LinePort.Meets (P .west) (s.item .west)) :
    LinePort.Meets (P .east) ((State.offerPart p s payload).item .east) ∧ LinePort.Meets (P .west) ((State.offerPart p s payload).item .west) := by
  unfold State.offerPart; (try dsimp only); (repeat' split) <;> simp_all

@[simp] theorem State.sendParts_ports (s : State) (parts : List (List Byte)) {P : PortId → LinePort → Prop}
    (hP : OfferClosed P)
    (he : LinePort.Meets (P .east) (s.item .east)) (hw : LinePort.Meets (P .west) (s.item .west)) :
    LinePort.Meets (P .east) ((s.sendParts parts).item .east) ∧ LinePort.Meets (P .west) ((s.sendParts parts).item .west) := by
  unfold State.sendParts; (try dsimp only); (repeat' split) <;> first
    | exact foldl_ports _ _ _ (by simp_all) (by simp_all) fun t b h1 h2 => by first | split <;> simp_all | simp_all
    | simp_all

@[simp] theorem State.sendNsta_ports (s : State) {P : PortId → LinePort → Prop} (hP : OfferClosed P)
    (he : LinePort.Meets (P .east) (s.item .east)) (hw : LinePort.Meets (P .west) (s.item .west)) :
    LinePort.Meets (P .east) (s.sendNsta.item .east) ∧ LinePort.Meets (P .west) (s.sendNsta.item .west) := by
  unfold State.sendNsta; (try dsimp only); (repeat' split) <;> simp_all

@[simp] theorem State.offerSign_ports (s : State) (p : PortId) (f : Frame) {P : PortId → LinePort → Prop}
    (hP : OfferClosed P)
    (he : LinePort.Meets (P .east) (s.item .east)) (hw : LinePort.Meets (P .west) (s.item .west)) :
    LinePort.Meets (P .east) ((s.offerSign p f).item .east) ∧ LinePort.Meets (P .west) ((s.offerSign p f).item .west) := by
  unfold State.offerSign; (try dsimp only); (repeat' split) <;> simp_all

@[simp] theorem State.handSign_ports (s : State) (kind : Byte) (payload : List Byte)
    {P : PortId → LinePort → Prop} (hP : OfferClosed P)
    (he : LinePort.Meets (P .east) (s.item .east)) (hw : LinePort.Meets (P .west) (s.item .west)) :
    LinePort.Meets (P .east) ((s.handSign kind payload).item .east) ∧ LinePort.Meets (P .west) ((s.handSign kind payload).item .west) := by
  unfold State.handSign; (try dsimp only); (repeat' split) <;> simp_all

@[simp] theorem State.sendSignFrame_ports (s : State) (kind target zone : Byte) (payload : List Byte)
    {P : PortId → LinePort → Prop} (hP : OfferClosed P)
    (he : LinePort.Meets (P .east) (s.item .east)) (hw : LinePort.Meets (P .west) (s.item .west)) :
    LinePort.Meets (P .east) ((s.sendSignFrame kind target zone payload).item .east) ∧ LinePort.Meets (P .west) ((s.sendSignFrame kind target zone payload).item .west) := by
  have h1 := fun f => State.offerSign_ports s .east f hP he hw
  have h2 := fun f => State.offerSign_ports _ .west f hP (h1 f).1 (h1 f).2
  unfold State.sendSignFrame; dsimp only; (repeat' split)
  · exact State.handSign_ports _ _ _ hP (h2 _).1 (h2 _).2
  · exact State.handSign_ports _ _ _ hP he hw
  · exact State.offerSign_ports _ _ _ hP he hw
  · simp [*]

@[simp] theorem State.reportChoice_ports (s : State) {P : PortId → LinePort → Prop} (hP : OfferClosed P)
    (he : LinePort.Meets (P .east) (s.item .east)) (hw : LinePort.Meets (P .west) (s.item .west)) :
    LinePort.Meets (P .east) (s.reportChoice.item .east) ∧ LinePort.Meets (P .west) (s.reportChoice.item .west) := by
  unfold State.reportChoice; (try dsimp only); (repeat' split) <;> simp_all

@[simp] theorem State.reportChange_ports (s : State) (lost : List Nat) {P : PortId → LinePort → Prop}
    (hP : OfferClosed P)
    (he : LinePort.Meets (P .east) (s.item .east)) (hw : LinePort.Meets (P .west) (s.item .west)) :
    LinePort.Meets (P .east) ((s.reportChange lost).item .east) ∧ LinePort.Meets (P .west) ((s.reportChange lost).item .west) := by
  unfold State.reportChange; split
  · obtain ⟨h1, h2⟩ := foldl_ports State.callsLoss lost s he hw fun t b h1 h2 => State.callsLoss_ports t b hP h1 h2
    exact State.reportChoice_ports _ hP h1 h2
  · exact ⟨he, hw⟩

@[simp] theorem State.takeEntry_ports (s : State) (p : PortId) (b : Beat) (n : Nat) {P : PortId → LinePort → Prop}
    (hP : OfferClosed P)
    (he : LinePort.Meets (P .east) (s.item .east)) (hw : LinePort.Meets (P .west) (s.item .west)) :
    LinePort.Meets (P .east) ((s.takeEntry p b n).item .east) ∧ LinePort.Meets (P .west) ((s.takeEntry p b n).item .west) := by
  unfold State.takeEntry; (try dsimp only); (repeat' split) <;> simp_all

@[simp] theorem State.takeBeat_ports (s : State) (p : PortId) (f : Frame) {P : PortId → LinePort → Prop}
    (hP : OfferClosed P)
    (he : LinePort.Meets (P .east) (s.item .east)) (hw : LinePort.Meets (P .west) (s.item .west)) :
    LinePort.Meets (P .east) ((s.takeBeat p f).item .east) ∧ LinePort.Meets (P .west) ((s.takeBeat p f).item .west) := by
  unfold State.takeBeat; (try dsimp only); (repeat' split) <;> simp_all

@[simp] theorem State.removeAged_ports (s : State) (p : PortId) (node : Nat) {P : PortId → LinePort → Prop}
    (hP : OfferClosed P)
    (he : LinePort.Meets (P .east) (s.item .east)) (hw : LinePort.Meets (P .west) (s.item .west)) :
    LinePort.Meets (P .east) ((s.removeAged p node).item .east) ∧ LinePort.Meets (P .west) ((s.removeAged p node).item .west) := by
  unfold State.removeAged; (try dsimp only); (repeat' split) <;> simp_all

@[simp] theorem State.lineEvent_ports (s : State) (l : LevelLine) {P : PortId → LinePort → Prop} (hP : OfferClosed P)
    (he : LinePort.Meets (P .east) (s.item .east)) (hw : LinePort.Meets (P .west) (s.item .west)) :
    LinePort.Meets (P .east) ((s.lineEvent l).item .east) ∧ LinePort.Meets (P .west) ((s.lineEvent l).item .west) := by
  unfold State.lineEvent; (try dsimp only); (repeat' split) <;> simp_all

@[simp] theorem State.endWait_ports (s : State) (l : LevelLine) {P : PortId → LinePort → Prop} (hP : OfferClosed P)
    (he : LinePort.Meets (P .east) (s.item .east)) (hw : LinePort.Meets (P .west) (s.item .west)) :
    LinePort.Meets (P .east) ((s.endWait l).item .east) ∧ LinePort.Meets (P .west) ((s.endWait l).item .west) := by
  unfold State.endWait; (try dsimp only); (repeat' split) <;> simp_all

@[simp] theorem State.entryReport_ports (s : State) {P : PortId → LinePort → Prop} (hP : OfferClosed P)
    (he : LinePort.Meets (P .east) (s.item .east)) (hw : LinePort.Meets (P .west) (s.item .west)) :
    LinePort.Meets (P .east) (s.entryReport.item .east) ∧ LinePort.Meets (P .west) (s.entryReport.item .west) := by
  unfold State.entryReport; (try dsimp only); (repeat' split) <;> first
    | exact foldl_ports _ _ _ (by simp_all) (by simp_all) fun t b h1 h2 => by first | split <;> simp_all | simp_all
    | simp_all

@[simp] theorem State.endPulseWindow_ports (s : State) (ch : PulseId) {P : PortId → LinePort → Prop}
    (hP : OfferClosed P)
    (he : LinePort.Meets (P .east) (s.item .east)) (hw : LinePort.Meets (P .west) (s.item .west)) :
    LinePort.Meets (P .east) ((s.endPulseWindow ch).item .east) ∧ LinePort.Meets (P .west) ((s.endPulseWindow ch).item .west) := by
  unfold State.endPulseWindow; (try dsimp only); (repeat' split) <;> simp_all

@[simp] theorem State.toOwner_ports (s : State) (p : PortId) (f : Frame) {P : PortId → LinePort → Prop}
    (hP : OfferClosed P)
    (he : LinePort.Meets (P .east) (s.item .east)) (hw : LinePort.Meets (P .west) (s.item .west)) :
    LinePort.Meets (P .east) ((s.toOwner p f).item .east) ∧ LinePort.Meets (P .west) ((s.toOwner p f).item .west) := by
  unfold State.toOwner; (try dsimp only); (repeat' split) <;> simp_all

@[simp] theorem State.deliver_ports (s : State) (p : PortId) (f : Frame) {P : PortId → LinePort → Prop}
    (hP : OfferClosed P)
    (he : LinePort.Meets (P .east) (s.item .east)) (hw : LinePort.Meets (P .west) (s.item .west)) :
    LinePort.Meets (P .east) ((s.deliver p f).item .east) ∧ LinePort.Meets (P .west) ((s.deliver p f).item .west) := by
  unfold State.deliver; (try dsimp only); (repeat' split) <;> simp_all

@[simp] theorem State.tryDisplayReport_ports (s : State) {P : PortId → LinePort → Prop} (hP : OfferClosed P)
    (he : LinePort.Meets (P .east) (s.item .east)) (hw : LinePort.Meets (P .west) (s.item .west)) :
    LinePort.Meets (P .east) (s.tryDisplayReport.item .east) ∧ LinePort.Meets (P .west) (s.tryDisplayReport.item .west) := by
  unfold State.tryDisplayReport; (try dsimp only); (repeat' split) <;> simp_all

@[simp] theorem State.endFrame_ports (s : State) {P : PortId → LinePort → Prop} (hP : OfferClosed P)
    (he : LinePort.Meets (P .east) (s.item .east)) (hw : LinePort.Meets (P .west) (s.item .west)) :
    LinePort.Meets (P .east) (s.endFrame.item .east) ∧ LinePort.Meets (P .west) (s.endFrame.item .west) := by
  unfold State.endFrame; (try dsimp only); (repeat' split) <;> simp_all

@[simp] theorem State.startStatus_ports (s : State) {P : PortId → LinePort → Prop} (hP : OfferClosed P)
    (he : LinePort.Meets (P .east) (s.item .east)) (hw : LinePort.Meets (P .west) (s.item .west)) :
    LinePort.Meets (P .east) (s.startStatus.item .east) ∧ LinePort.Meets (P .west) (s.startStatus.item .west) := by
  unfold State.startStatus; (try dsimp only); (repeat' split) <;> simp_all

@[simp] theorem State.enterRunning_ports (s : State) {P : PortId → LinePort → Prop} (hP : OfferClosed P)
    (he : LinePort.Meets (P .east) (s.item .east)) (hw : LinePort.Meets (P .west) (s.item .west)) :
    LinePort.Meets (P .east) (s.enterRunning.item .east) ∧ LinePort.Meets (P .west) (s.enterRunning.item .west) := by
  have h1 := State.startBeats_ports { s with node := .running } hP he hw
  have h2 := State.reportChange_ports _ [] hP h1.1 h1.2
  have h3 := State.entryReport_ports _ hP h2.1 h2.2
  unfold State.enterRunning
  refine (fun h => State.runToll_ports _ hP h.1 h.2) (State.startStatus_ports _ hP ?_ ?_) <;> simp [h3.1, h3.2]

@[simp] theorem State.enterScanning_ports (s : State) (c : Config) {P : PortId → LinePort → Prop} (hP : OfferClosed P)
    (he : LinePort.Meets (P .east) (s.item .east)) (hw : LinePort.Meets (P .west) (s.item .west)) :
    LinePort.Meets (P .east) ((s.enterScanning c).item .east) ∧ LinePort.Meets (P .west) ((s.enterScanning c).item .west) := by
  unfold State.enterScanning; (try dsimp only); (repeat' split) <;> simp_all

@[simp] theorem State.imageRead_ports (s : State) (image : Option (List Byte)) {P : PortId → LinePort → Prop}
    (hP : OfferClosed P)
    (he : LinePort.Meets (P .east) (s.item .east)) (hw : LinePort.Meets (P .west) (s.item .west)) :
    LinePort.Meets (P .east) ((s.imageRead image).item .east) ∧ LinePort.Meets (P .west) ((s.imageRead image).item .west) := by
  unfold State.imageRead; (try dsimp only); (repeat' split) <;> simp_all

@[simp] theorem State.generationSettled_ports (s : State) (value : Nat) (fault : Bool)
    {P : PortId → LinePort → Prop} (hP : OfferClosed P)
    (he : LinePort.Meets (P .east) (s.item .east)) (hw : LinePort.Meets (P .west) (s.item .west)) :
    LinePort.Meets (P .east) ((s.generationSettled value fault).item .east) ∧ LinePort.Meets (P .west) ((s.generationSettled value fault).item .west) := by
  unfold State.generationSettled; dsimp only; split
  · exact State.enterRunning_ports _ hP he hw
  · exact State.runToll_ports _ hP he hw

@[simp] theorem State.genMarkEnd_ports (s : State) {P : PortId → LinePort → Prop} (hP : OfferClosed P)
    (he : LinePort.Meets (P .east) (s.item .east)) (hw : LinePort.Meets (P .west) (s.item .west)) :
    LinePort.Meets (P .east) (s.genMarkEnd.item .east) ∧ LinePort.Meets (P .west) (s.genMarkEnd.item .west) := by
  unfold State.genMarkEnd; (try dsimp only); (repeat' split) <;> simp_all

@[simp] theorem State.genMarkLimit_ports (s : State) {P : PortId → LinePort → Prop} (hP : OfferClosed P)
    (he : LinePort.Meets (P .east) (s.item .east)) (hw : LinePort.Meets (P .west) (s.item .west)) :
    LinePort.Meets (P .east) (s.genMarkLimit.item .east) ∧ LinePort.Meets (P .west) (s.genMarkLimit.item .west) := by
  unfold State.genMarkLimit; (try dsimp only); (repeat' split) <;> simp_all

@[simp] theorem State.markEraseEnd_ports (s : State) (erased : Bool) {P : PortId → LinePort → Prop}
    (hP : OfferClosed P)
    (he : LinePort.Meets (P .east) (s.item .east)) (hw : LinePort.Meets (P .west) (s.item .west)) :
    LinePort.Meets (P .east) ((s.markEraseEnd erased).item .east) ∧ LinePort.Meets (P .west) ((s.markEraseEnd erased).item .west) := by
  unfold State.markEraseEnd; (try dsimp only); (repeat' split) <;> simp_all

@[simp] theorem State.recordEnd_ports (s : State) {P : PortId → LinePort → Prop} (hP : OfferClosed P)
    (he : LinePort.Meets (P .east) (s.item .east)) (hw : LinePort.Meets (P .west) (s.item .west)) :
    LinePort.Meets (P .east) (s.recordEnd.item .east) ∧ LinePort.Meets (P .west) (s.recordEnd.item .west) := by
  unfold State.recordEnd; (try dsimp only); (repeat' split) <;> simp_all

@[simp] theorem State.giveUp_ports (s : State) (tag : Byte) (c : TollCause) {P : PortId → LinePort → Prop}
    (hP : OfferClosed P)
    (he : LinePort.Meets (P .east) (s.item .east)) (hw : LinePort.Meets (P .west) (s.item .west)) :
    LinePort.Meets (P .east) ((s.giveUp tag c).item .east) ∧ LinePort.Meets (P .west) ((s.giveUp tag c).item .west) := by
  unfold State.giveUp; (try dsimp only); (repeat' split) <;> simp_all

@[simp] theorem State.retryRecord_ports (s : State) (tag : Byte) {P : PortId → LinePort → Prop} (hP : OfferClosed P)
    (he : LinePort.Meets (P .east) (s.item .east)) (hw : LinePort.Meets (P .west) (s.item .west)) :
    LinePort.Meets (P .east) ((s.retryRecord tag).item .east) ∧ LinePort.Meets (P .west) ((s.retryRecord tag).item .west) := by
  unfold State.retryRecord; (try dsimp only); (repeat' split) <;> simp_all

@[simp] theorem State.recordLimit_ports (s : State) {P : PortId → LinePort → Prop} (hP : OfferClosed P)
    (he : LinePort.Meets (P .east) (s.item .east)) (hw : LinePort.Meets (P .west) (s.item .west)) :
    LinePort.Meets (P .east) (s.recordLimit.item .east) ∧ LinePort.Meets (P .west) (s.recordLimit.item .west) := by
  unfold State.recordLimit; (try dsimp only); (repeat' split) <;> simp_all

@[simp] theorem State.markEnd_ports (s : State) {P : PortId → LinePort → Prop} (hP : OfferClosed P)
    (he : LinePort.Meets (P .east) (s.item .east)) (hw : LinePort.Meets (P .west) (s.item .west)) :
    LinePort.Meets (P .east) (s.markEnd.item .east) ∧ LinePort.Meets (P .west) (s.markEnd.item .west) := by
  unfold State.markEnd; (try dsimp only); (repeat' split) <;> simp_all

@[simp] theorem State.markLimit_ports (s : State) {P : PortId → LinePort → Prop} (hP : OfferClosed P)
    (he : LinePort.Meets (P .east) (s.item .east)) (hw : LinePort.Meets (P .west) (s.item .west)) :
    LinePort.Meets (P .east) (s.markLimit.item .east) ∧ LinePort.Meets (P .west) (s.markLimit.item .west) := by
  unfold State.markLimit; (try dsimp only); (repeat' split) <;> simp_all

@[simp] theorem State.endRead_ports (s : State) (ended : Bool) {P : PortId → LinePort → Prop} (hP : OfferClosed P)
    (he : LinePort.Meets (P .east) (s.item .east)) (hw : LinePort.Meets (P .west) (s.item .west)) :
    LinePort.Meets (P .east) ((s.endRead ended).item .east) ∧ LinePort.Meets (P .west) ((s.endRead ended).item .west) := by
  unfold State.endRead; (try dsimp only); (repeat' split) <;> simp_all

@[simp] theorem State.endErase_ports (s : State) (failed : List (Fin 63)) (limit : Bool)
    {P : PortId → LinePort → Prop} (hP : OfferClosed P)
    (he : LinePort.Meets (P .east) (s.item .east)) (hw : LinePort.Meets (P .west) (s.item .west)) :
    LinePort.Meets (P .east) ((s.endErase failed limit).item .east) ∧ LinePort.Meets (P .west) ((s.endErase failed limit).item .west) := by
  unfold State.endErase; split
  · split
    · exact ⟨he, hw⟩
    · exact State.runToll_ports _ hP (by simpa [foldl_item] using he) (by simpa [foldl_item] using hw)
  · exact ⟨he, hw⟩

@[simp] theorem State.retryEnd_ports (s : State) {P : PortId → LinePort → Prop} (hP : OfferClosed P)
    (he : LinePort.Meets (P .east) (s.item .east)) (hw : LinePort.Meets (P .west) (s.item .west)) :
    LinePort.Meets (P .east) (s.retryEnd.item .east) ∧ LinePort.Meets (P .west) (s.retryEnd.item .west) := by
  unfold State.retryEnd; (try dsimp only); (repeat' split) <;> simp_all

@[simp] theorem State.goBackNow_ports (s : State) {P : PortId → LinePort → Prop} (hP : OfferClosed P)
    (he : LinePort.Meets (P .east) (s.item .east)) (hw : LinePort.Meets (P .west) (s.item .west)) :
    LinePort.Meets (P .east) (s.goBackNow.item .east) ∧ LinePort.Meets (P .west) (s.goBackNow.item .west) := by
  unfold State.goBackNow; (try dsimp only); (repeat' split) <;> simp_all

/-! ### Soundness (R1, R2, R4, R16, R20) -/

theorem Lane.take_none {l : Lane} (h : l.take = none) : l.transit = [] ∧ l.own = [] := by
  unfold Lane.take at h; split at h <;> (try split at h) <;> simp_all

theorem Lane.take_some {l l' : Lane} {f : Frame} {own u : Bool} (h : l.take = some (f, own, l')) (hf : l.Fits u) :
    l'.Fits u ∧ (f ∈ l.own ∨ f ∈ l.transit) ∧ (∀ x ∈ l'.own, x ∈ l.own) ∧ (l.transit = [] → l'.transit = []) := by
  unfold Lane.take at h; unfold Lane.Fits at *
  split at h
  · cases h
  · cases h; simp_all; omega
  · cases h; simp_all; omega
  · split at h <;> cases h <;> simp_all <;> omega

@[simp] theorem State.completed_kind (s : State) (f : Frame) (own : Bool) : (s.completed f own).kind = f.kind := by
  unfold State.completed; split <;> rfl

/-- A sound port, but that its transmitter may be free with frames waiting. -/
def LinePort.Stocked (q : LinePort) : Prop :=
  match q.state with
  | .dark =>
    q.probe = 0 ∧ q.silence = none ∧ q.urgent = Lane.initial ∧ q.bulk = Lane.initial ∧ q.sending = none
  | .probing =>
    q.probe ≤ 1 ∧ q.silence = none ∧ q.urgent.transit = [] ∧ q.urgent.Fits true ∧ q.bulk = Lane.initial ∧
      (∀ f ∈ q.urgent.own, f.kind = .beat) ∧ (∀ f, q.sending = some f → f.kind = .beat)
  | .lit => q.probe = 0 ∧ q.silence.isSome = true ∧ q.urgent.Fits true ∧ q.bulk.Fits false

theorem LinePort.Sound.stocked {q : LinePort} (h : q.Sound) : q.Stocked := by
  unfold LinePort.Sound at h; unfold LinePort.Stocked; split <;> simp_all

/-- What the output arbiter makes of a stocked port is sound. -/
theorem State.arbitrate_sound {s : State} {p : PortId} (h : (s.port p).Stocked) : ((s.arbitrate p).port p).Sound := by
  unfold LinePort.Stocked at h
  unfold State.arbitrate
  split
  · rename_i hc
    split
    · rename_i f own q hq
      rw [State.port_setPort]
      unfold LinePort.choose at hq
      split at hq
      · rename_i f' own' l hl
        cases hq
        unfold LinePort.Sound
        dsimp only
        split <;> simp_all
        · obtain ⟨a, b, c, d⟩ := Lane.take_some hl h.2.2.2.1
          refine ⟨d h.2.2.1, a, fun x hx => h.2.2.2.2.2 x (c x hx), ?_⟩
          rcases b with b | b
          · exact h.2.2.2.2.2 _ b
          · simp_all
        · exact (Lane.take_some hl h.2.2.1).1
      · split at hq
        · rename_i f' own' l hl
          cases hq
          unfold LinePort.Sound
          dsimp only
          split <;> simp_all
          · simp [Lane.initial, Lane.take] at hl
          · exact (Lane.take_some hl h.2.2.2).1
        · cases hq
    · rename_i hq
      have he : (s.port p).urgent.take = none ∧ (s.port p).bulk.take = none := by
        unfold LinePort.choose at hq
        split at hq
        · cases hq
        · split at hq
          · cases hq
          · simp_all
      have hu := Lane.take_none he.1
      have hb := Lane.take_none he.2
      unfold LinePort.Sound
      split <;> simp_all
  · rename_i hc
    unfold LinePort.Sound
    split <;> simp_all

theorem State.arbitrate_port (s : State) (p : PortId) (q : LinePort) (h : q.Stocked) :
    (((s.setPort p q).arbitrate p).port p).Sound := State.arbitrate_sound (by simpa using h)

theorem LinePort.Sound.countDark {q : LinePort} (h : q.Sound) (n : Nat) : (q.countDark n).Sound := h

theorem LinePort.Sound.counters {q : LinePort} (h : q.Sound) (c : LineCounters) :
    LinePort.Sound { q with counters := c } := h

theorem offerClosed_sound : ∀ (s : State) (p : PortId) (f : Frame), (s.port p).Sound →
    ((s.offer p f).port p).Sound := by
  intro s p f h
  unfold State.offer
  split
  · rename_i ha
    apply State.arbitrate_port
    have hs := h.stocked
    unfold LinePort.offerAnswer at ha
    unfold LinePort.appendOwn LinePort.Stocked at *
    (repeat' split at ha) <;> try cases ha
    rename_i hc hl
    rcases hc with hc | ⟨hc, hb⟩
    · cases hk : f.kind.isUrgent <;> simp_all [LinePort.lane, LinePort.setLane, localCapacity, Lane.Fits] <;> omega
    · have hk : f.kind.isUrgent = true := by rw [hb]; rfl
      simp only [hk, hc, LinePort.lane, LinePort.setLane, localCapacity, Lane.Fits, if_true] at *
      obtain ⟨h1, h2, h3, h4, h5, h6, h7⟩ := hs
      refine ⟨h1, h2, h3, ⟨h4.1, by simp; omega, h4.2.2.1, by simp⟩, h5, ?_, h7⟩
      intro x hx
      rcases List.mem_append.1 hx with hx | hx
      · exact h6 x hx
      · rw [List.mem_singleton.1 hx]; exact hb
  · simpa [LinePort.countRefusal] using h.counters _
  · simpa using h.countDark 1

end Sys2Proof.Machine
end

