-- ==== Sys2Proof/Laws/PortStates.lean ====
section
/-! SUPPORT. The soundness of the line ports under the operations that change a port's state: light, silence and received
frames. -/

namespace Sys2Proof.Machine

theorem State.PortsSound.port {s : State} (h : s.PortsSound) (p : PortId) : (s.port p).Sound := by
  cases p; exacts [h.1, h.2]

theorem State.PortsSound.ofPorts {s : State} (p : PortId) (h : (s.port p).Sound) (h' : (s.port (opposite p)).Sound) :
    s.PortsSound := by cases p; exacts [⟨h, h'⟩, ⟨h', h⟩]

theorem State.PortsSound.setPort {s : State} (h : s.PortsSound) (p : PortId) {q : LinePort} (hq : q.Sound) :
    (s.setPort p q).PortsSound := by cases p; exacts [⟨hq, h.2⟩, ⟨h.1, hq⟩]

theorem State.PortsSound.items {s t : State} (h : s.PortsSound) (he : t.item .east = s.item .east)
    (hw : t.item .west = s.item .west) : t.PortsSound := by
  have he : t.east = s.east := he
  have hw : t.west = s.west := hw
  exact ⟨he ▸ h.1, hw ▸ h.2⟩

/-- Soundness as a property of both ports. -/
def soundPorts : PortId → LinePort → Prop := fun _ q => q.Sound

theorem soundPorts_closed : OfferClosed soundPorts := fun s p f h => offerClosed_sound s p f h

theorem LinePort.offer_state (s : State) (p : PortId) (f : Frame) : ((s.offer p f).port p).state = (s.port p).state := by
  unfold State.offer
  split
  · unfold State.arbitrate; (repeat' split)
    · rename_i hq
      simp [LinePort.choose] at hq ⊢
      (repeat' split at hq) <;> simp at hq
      · rw [← hq.2.2]; simp [LinePort.appendOwn]
      · rw [← hq.2.2]; simp [LinePort.appendOwn]
    · simp [LinePort.appendOwn]
    · simp [LinePort.appendOwn]
  · simp [LinePort.countRefusal]
  · simp [LinePort.countDark]

/-- Soundness, and one port in a given state. -/
def soundPortsIn (p : PortId) (st : PortState) : PortId → LinePort → Prop := fun r q => q.Sound ∧ (r = p → q.state = st)

theorem soundPortsIn_closed (p : PortId) (st : PortState) : OfferClosed (soundPortsIn p st) := fun s r f h =>
  ⟨offerClosed_sound s r f h.1, fun e => (LinePort.offer_state s r f).trans (h.2 e)⟩

theorem State.PortsSound.offer {s : State} (h : s.PortsSound) (p : PortId) (f : Frame) : (s.offer p f).PortsSound :=
  State.offer_ports s p f soundPorts_closed h.1 h.2

theorem State.PortsSound.transitOffer {s : State} (h : s.PortsSound) (p : PortId) (f : Frame) :
    (s.transitOffer p f).PortsSound := by
  unfold State.transitOffer
  split
  · exact h.setPort p ((h.port p).countDark 1)
  · split
    · exact h.setPort p ((h.port p).counters _)
    · rename_i hl hf
      refine .ofPorts p (State.arbitrate_port _ _ _ ?_) ?_
      · have hs := (h.port p).stocked
        unfold LinePort.Stocked LinePort.appendTransit at *
        cases hk : f.kind.isUrgent <;>
          simp_all [LinePort.lane, LinePort.setLane, transitCapacity, Lane.Fits] <;> omega
      · rw [State.arbitrate_opposite, State.port_setPort_opposite]; exact h.port _

theorem State.PortsSound.forward {s : State} (h : s.PortsSound) (p : PortId) (f : Frame) :
    (s.forward p f).PortsSound := by
  unfold State.forward; split
  · exact h.transitOffer _ _
  · exact h

theorem State.PortsSound.enterProbing {s : State} (h : s.PortsSound) (p : PortId) (hd : (s.port p).state = .dark) :
    (s.enterProbing p).PortsSound := by
  unfold State.enterProbing
  have hp := h.port p
  unfold LinePort.Sound at hp
  rw [hd] at hp
  have h1 : (s.setPort p { s.port p with state := .probing, probe := 0 }).PortsSound := by
    refine h.setPort p ?_
    unfold LinePort.Sound
    simp_all [Lane.initial, Lane.Fits]
  dsimp only
  split
  · exact State.offerBeat_ports _ p soundPorts_closed h1.1 h1.2
  · exact h1

theorem LinePort.darken_sound (q : LinePort) : q.darken.Sound := by simp [LinePort.Sound, LinePort.darken]

theorem State.PortsSound.goDark {s : State} (h : s.PortsSound) (p : PortId) :
    (s.goDark p).PortsSound ∧ ((s.goDark p).port p).state = .dark := by
  have h1 : (s.setPort p (s.port p).darken).PortsSound := h.setPort p (LinePort.darken_sound _)
  have hst : ((s.setPort p (s.port p).darken).port p).state = .dark := by simp [LinePort.darken]
  unfold State.goDark
  dsimp only
  split
  · exact ⟨h1, hst⟩
  · have key := State.reportChange_ports { s.setPort p (s.port p).darken with
        reach := (s.setPort p (s.port p).darken).reach.setPart p [] } (terminiOf (s.reach.part p))
      (soundPortsIn_closed p .dark) ⟨h1.1, fun e => by subst e; exact hst⟩ ⟨h1.2, fun e => by subst e; exact hst⟩
    exact ⟨⟨key.1.1, key.2.1⟩, by cases p; exacts [key.1.2 rfl, key.2.2 rfl]⟩

theorem State.PortsSound.enterDark {s : State} (h : s.PortsSound) (p : PortId) : (s.enterDark p).PortsSound := by
  unfold State.enterDark
  dsimp only
  split
  · exact (h.goDark p).1.enterProbing p (h.goDark p).2
  · exact (h.goDark p).1

theorem State.PortsSound.enterLit {s : State} (h : s.PortsSound) (p : PortId) (hp : (s.port p).state = .probing) :
    (s.enterLit p).PortsSound := by
  refine h.setPort p ?_
  have hs := h.port p
  unfold LinePort.Sound at *
  simp_all [State.startTimer, Lane.initial, Lane.Fits, transitCapacity, localCapacity]

theorem State.PortsSound.damaged {s : State} (h : s.PortsSound) (p : PortId) (f : LineCounters → LineCounters) :
    (s.damaged p f).PortsSound := by
  refine h.setPort p ?_
  have hs := h.port p
  unfold LinePort.Sound at *
  dsimp only
  split <;> simp_all

theorem State.PortsSound.goodForPort {s : State} (h : s.PortsSound) (p : PortId) : (s.goodForPort p).PortsSound := by
  have hs := h.port p
  unfold State.goodForPort
  dsimp only
  split
  · split
    · exact (h.setPort p (hs.counters _)).enterLit p (by simpa)
    · refine h.setPort p ?_
      unfold LinePort.Sound at *
      simp_all
  · refine h.setPort p ?_
    unfold LinePort.Sound at *
    simp_all [State.startTimer]
  · exact h.setPort p (hs.counters _)

theorem State.PortsSound.takeFrame {s : State} (h : s.PortsSound) (p : PortId) (b : List Byte) :
    (s.takeFrame p b).PortsSound := by
  unfold State.takeFrame
  split
  · exact h
  · split
    · exact h.damaged p _
    · exact h.damaged p _
    · rename_i f hf
      have h1 := h.goodForPort p
      unfold State.goodFrame
      split
      · exact (h1.setPort p ((h1.port p).counters _)).items rfl rfl
      · dsimp only
        have h2 : (if ((s.goodForPort p).targetDecision f.target).forward then (s.goodForPort p).forward p f
            else s.goodForPort p).PortsSound := by
          split
          · exact h1.forward p f
          · exact h1
        split
        · exact State.deliver_ports _ p f soundPorts_closed h2.1 h2.2
        · exact h2

theorem initial_sound : LinePort.initial.Sound := by simp [LinePort.Sound, LinePort.initial]


theorem dispatch_ports (s : State) (ok used : Bool) (owner refusal : State → State)
    {P : PortId → LinePort → Prop}
    (he : LinePort.Meets (P .east) (s.item .east)) (hw : LinePort.Meets (P .west) (s.item .west))
    (ho : ∀ t, LinePort.Meets (P .east) (t.item .east) → LinePort.Meets (P .west) (t.item .west) →
      LinePort.Meets (P .east) ((owner t).item .east) ∧ LinePort.Meets (P .west) ((owner t).item .west))
    (hr : ∀ t, LinePort.Meets (P .east) (t.item .east) → LinePort.Meets (P .west) (t.item .west) →
      LinePort.Meets (P .east) ((refusal t).item .east) ∧ LinePort.Meets (P .west) ((refusal t).item .west)) :
    LinePort.Meets (P .east) ((s.dispatch ok used owner refusal).item .east) ∧
      LinePort.Meets (P .west) ((s.dispatch ok used owner refusal).item .west) := by
  unfold State.dispatch; (repeat' split) <;> simp_all

end Sys2Proof.Machine
end

