-- ==== Sys2Proof/Laws/Outbound.lean ====
section
/-! SUPPORT. The outbound queue stays within its capacity under every operation that places messages. -/

namespace Sys2Proof.Machine

@[simp] theorem item_put_equip (s : State) (x : Equip) : State.item { s with equip := x } .equip = x := rfl

@[simp] theorem Equip.fits_update (t : State) (a : Option CabMsg) (b c d e f g : Counter) (h : BitVec 16)
    (i : Timer) :
    Equip.Fits (Equip.mk t.equip.outbound a b c d e f g h i) = Equip.Fits (t.item .equip) := rfl
theorem foldl_item_keeps {β : Type} {part : Part} {Q : part.Content → Prop} (f : State → β → State) (l : List β)
    (s : State)
    (h : Q (s.item part)) (hf : ∀ t b, Q (t.item part) → Q ((f t b).item part)) : Q ((l.foldl f s).item part) := by
  induction l generalizing s with
  | nil => exact h
  | cons a l ih => exact ih _ (hf s a h)

@[simp] theorem State.onEntry_outbound (s : State) (e : Fin 8) (cond : CallEntry → Bool) (act : CallEntry → State)
    (h : Equip.Fits (s.item .equip)) (ha : ∀ c, Equip.Fits ((act c).item .equip)) :
    Equip.Fits ((s.onEntry e cond act).item .equip) := by
  unfold State.onEntry; (repeat' split) <;> simp_all

@[simp] theorem State.placeTail_outbound (s : State) (m : CabMsg) (h : s.queueRoom = true) :
    Equip.Fits ((s.placeTail m).item .equip) := by
  simp [State.queueRoom] at h; simp [State.placeTail, Equip.Fits, State.item]; omega

@[simp] theorem State.placeOrDrop_outbound (s : State) (m : CabMsg) (h : Equip.Fits (s.item .equip)) :
    Equip.Fits ((s.placeOrDrop m).item .equip) := by
  unfold State.placeOrDrop; (try dsimp only); (repeat' split) <;> first | (simp_all; done) | simp [*]

@[simp] theorem State.drainAnswer_outbound (s : State) (h : Equip.Fits (s.item .equip)) :
    Equip.Fits (s.drainAnswer.item .equip) := by
  unfold State.drainAnswer
  (repeat' split) <;> first | (simp_all; done) | exact State.placeTail_outbound _ _ (by simp_all [State.queueRoom])

@[simp] theorem State.answerSpool_outbound (s : State) (m : CabMsg) (h : Equip.Fits (s.item .equip)) :
    Equip.Fits ((s.answerSpool m).item .equip) := by
  unfold State.answerSpool; (try dsimp only); (repeat' split) <;> first | (simp_all; done) | simp [*]

@[simp] theorem State.callMessage_outbound (s : State) (m : CabMsg) (h : Equip.Fits (s.item .equip)) :
    Equip.Fits ((s.callMessage m).item .equip) := by
  unfold State.callMessage; (try dsimp only); (repeat' split) <;> first | (simp_all; done) | simp [*]

@[simp] theorem State.signReport_outbound (s : State) (addressee : Nat) (fallback : Option PortId)
    (payload : List Byte) (h : Equip.Fits (s.item .equip)) :
    Equip.Fits ((s.signReport addressee fallback payload).item .equip) := by
  unfold State.signReport; (try dsimp only); (repeat' split) <;> first | (simp_all; done) | simp [*]

@[simp] theorem State.loadReport_outbound (s : State) (page : Fin 4) (loadId : Byte) (index : Nat)
    (o : LoadOutcome) (addressee : Nat) (fallback : Option PortId) (h : Equip.Fits (s.item .equip)) :
    Equip.Fits ((s.loadReport page loadId index o addressee fallback).item .equip) := by
  unfold State.loadReport; (try dsimp only); (repeat' split) <;> first | (simp_all; done) | simp [*]

@[simp] theorem State.recordReport_outbound (s : State) (page : Fin 4) (index : Nat) (o : LoadOutcome)
    (h : Equip.Fits (s.item .equip)) :
    Equip.Fits ((s.recordReport page index o).item .equip) := by
  unfold State.recordReport; (try dsimp only); (repeat' split) <;> first | (simp_all; done) | simp [*]

@[simp] theorem State.abortLoad_outbound (s : State) (page : Fin 4) (o : LoadOutcome) (h : Equip.Fits
    (s.item .equip)) :
    Equip.Fits ((s.abortLoad page o).item .equip) := by
  unfold State.abortLoad; (try dsimp only); (repeat' split) <;> first | (simp_all; done) | simp [*]

@[simp] theorem State.completeLoad_outbound (s : State) (page : Fin 4) (h : Equip.Fits (s.item .equip)) :
    Equip.Fits ((s.completeLoad page).item .equip) := by
  unfold State.completeLoad; (try dsimp only); (repeat' split) <;> first | (simp_all; done) | simp [*]

@[simp] theorem State.refuseSdat_outbound (s : State) (d : Sdat) (origin : Nat) (port : Option PortId)
    (o : LoadOutcome) (h : Equip.Fits (s.item .equip)) :
    Equip.Fits ((s.refuseSdat d origin port o).item .equip) := by
  unfold State.refuseSdat; (try dsimp only); (repeat' split) <;> first | (simp_all; done) | simp [*]

@[simp] theorem State.supersede_outbound (s : State) (page : Fin 4) (h : Equip.Fits (s.item .equip)) :
    Equip.Fits ((s.supersede page).item .equip) := by
  unfold State.supersede; (try dsimp only); (repeat' split) <;> first | (simp_all; done) | simp [*]

@[simp] theorem State.beginLoad_outbound (s : State) (d : Sdat) (origin : Nat) (port : Option PortId)
    (h : Equip.Fits (s.item .equip)) :
    Equip.Fits ((s.beginLoad d origin port).item .equip) := by
  unfold State.beginLoad; (try dsimp only); (repeat' split) <;> first | (simp_all; done) | simp [*]

@[simp] theorem State.continueLoad_outbound (s : State) (d : Sdat) (origin : Nat) (port : Option PortId)
    (h : Equip.Fits (s.item .equip)) :
    Equip.Fits ((s.continueLoad d origin port).item .equip) := by
  unfold State.continueLoad; (try dsimp only); (repeat' split) <;> first | (simp_all; done) | simp [*]

@[simp] theorem State.takeSdat_outbound (s : State) (origin : Nat) (port : Option PortId) (payload : List Byte)
    (h : Equip.Fits (s.item .equip)) :
    Equip.Fits ((s.takeSdat origin port payload).item .equip) := by
  unfold State.takeSdat; (try dsimp only); (repeat' split) <;> first | (simp_all; done) | simp [*]

@[simp] theorem State.claimReport_outbound (s : State) (command outcome page priority removed : Nat)
    (addressee : Nat) (fallback : Option PortId) (h : Equip.Fits (s.item .equip)) :
    Equip.Fits ((s.claimReport command outcome page priority removed addressee fallback).item .equip) := by
  unfold State.claimReport; (try dsimp only); (repeat' split) <;> first | (simp_all; done) | simp [*]

@[simp] theorem State.claimRequest_outbound (s : State) (c : Claim) (h : Equip.Fits (s.item .equip)) :
    Equip.Fits ((s.claimRequest c).item .equip) := by
  unfold State.claimRequest; (try dsimp only); (repeat' split) <;> first | (simp_all; done) | simp [*]

@[simp] theorem State.ruleClaim_outbound (s : State) (n : Fin 8) (page : Fin 4) (priority lifetime : Nat)
    (h : Equip.Fits (s.item .equip)) :
    Equip.Fits ((s.ruleClaim n page priority lifetime).item .equip) := by
  unfold State.ruleClaim; (try dsimp only); (repeat' split) <;> first | (simp_all; done) | simp [*]

@[simp] theorem State.alertItem_outbound (s : State) (origin : Nat) (a : AlertItem) (h : Equip.Fits (s.item .equip)) :
    Equip.Fits ((s.alertItem origin a).item .equip) := by
  unfold State.alertItem; (try dsimp only); (repeat' split) <;> first | (simp_all; done) | simp [*]

@[simp] theorem State.takeWalr_outbound (s : State) (origin : Nat) (payload : List Byte) (h : Equip.Fits
    (s.item .equip)) :
    Equip.Fits ((s.takeWalr origin payload).item .equip) := by
  unfold State.takeWalr; (repeat' split) <;> first
    | exact foldl_item_keeps _ _ _ h fun t b h => by first | split <;> simp_all | simp_all
    | simp_all

@[simp] theorem State.takeClaim_outbound (s : State) (origin : Nat) (port : Option PortId) (page : Fin 4)
    (priority lifetime : Nat) (showAt : Option LTime) (h : Equip.Fits (s.item .equip)) :
    Equip.Fits ((s.takeClaim origin port page priority lifetime showAt).item .equip) := by
  unfold State.takeClaim; (try dsimp only); (repeat' split) <;> first | (simp_all; done) | simp [*]

@[simp] theorem State.takeScmd_outbound (s : State) (origin : Nat) (port : Option PortId) (payload : List Byte)
    (h : Equip.Fits (s.item .equip)) :
    Equip.Fits ((s.takeScmd origin port payload).item .equip) := by
  unfold State.takeScmd; (try dsimp only); (repeat' split) <;> first | (simp_all; done) | simp [*]

@[simp] theorem State.emitVoice_outbound (s : State) (c : CallEntry) (samples : List Byte) (h : Equip.Fits
    (s.item .equip)) :
    Equip.Fits ((s.emitVoice c samples).item .equip) := by
  unfold State.emitVoice; (try dsimp only); (repeat' split) <;> first | (simp_all; done) | simp [*]

@[simp] theorem State.startPlayout_outbound (s : State) (e : Fin 8) (c : CallEntry) (h : Equip.Fits (s.item .equip)) :
    Equip.Fits ((s.startPlayout e c).item .equip) := by
  unfold State.startPlayout; (try dsimp only); (repeat' split) <;> first | (simp_all; done) | simp [*]

@[simp] theorem State.playoutArrival_outbound (s : State) (e : Fin 8) (c : CallEntry) (f : VoiceFrame)
    (h : Equip.Fits (s.item .equip)) :
    Equip.Fits ((s.playoutArrival e c f).item .equip) := by
  unfold State.playoutArrival; (try dsimp only); (repeat' split) <;> first | (simp_all; done) | simp [*]

@[simp] theorem State.incidentAlert_outbound (s : State) (h : Equip.Fits (s.item .equip)) :
    Equip.Fits (s.incidentAlert.item .equip) := by
  unfold State.incidentAlert; (try dsimp only); (repeat' split) <;> first | (simp_all; done) | simp [*]

@[simp] theorem State.startEmergencyCall_outbound (s : State) (ph : PhoneId) (h : Equip.Fits (s.item .equip)) :
    Equip.Fits ((s.startEmergencyCall ph).item .equip) := by
  unfold State.startEmergencyCall; (try dsimp only); (repeat' split) <;> first | (simp_all; done) | simp [*]

@[simp] theorem State.hookDepart_outbound (s : State) (ph : PhoneId) (h : Equip.Fits (s.item .equip)) :
    Equip.Fits ((s.hookDepart ph).item .equip) := by
  unfold State.hookDepart; (try dsimp only); (repeat' split) <;> first | (simp_all; done) | simp [*]

@[simp] theorem State.promote_outbound (s : State) (h : Equip.Fits (s.item .equip)) :
    Equip.Fits (s.promote.item .equip) := by
  unfold State.promote; (try dsimp only); (repeat' split) <;> first | (simp_all; done) | simp [*]

@[simp] theorem State.freeConsoleCall_outbound (s : State) (e : Fin 8) (c : CallEntry) (m : CabMsg)
    (h : Equip.Fits (s.item .equip)) :
    Equip.Fits ((s.freeConsoleCall e c m).item .equip) := by
  have h1 := State.callMessage_outbound ((s.setCall e none).leaveWait e) m (by simp [*])
  unfold State.freeConsoleCall; dsimp only; split
  · exact State.promote_outbound _ h1
  · exact h1

@[simp] theorem State.callingAnswered_outbound (s : State) (e : Fin 8) (c : CallEntry) (h : Equip.Fits
    (s.item .equip)) :
    Equip.Fits ((s.callingAnswered e c).item .equip) := by
  exact State.promote_outbound _ (State.callMessage_outbound _ _ (by simp [*]))

@[simp] theorem State.terminusAnswer_outbound (s : State) (e : Fin 8) (c : CallEntry) (a : Cacc) (h : Equip.Fits
    (s.item .equip)) :
    Equip.Fits ((s.terminusAnswer e c a).item .equip) := by
  unfold State.terminusAnswer; (try dsimp only); (repeat' split) <;> first | (simp_all; done) | simp [*]

@[simp] theorem State.newRequest_outbound (s : State) (p : PortId) (origin : Nat) (q : Creq) (h : Equip.Fits
    (s.item .equip)) :
    Equip.Fits ((s.newRequest p origin q).item .equip) := by
  unfold State.newRequest; (try dsimp only); (repeat' split) <;> first | (simp_all; done) | simp [*]

@[simp] theorem State.busyCreq_outbound (s : State) (p : PortId) (origin : Nat) (q : Creq) (h : Equip.Fits
    (s.item .equip)) :
    Equip.Fits ((s.busyCreq p origin q).item .equip) := by
  simpa using h

@[simp] theorem State.takeCreq_outbound (s : State) (p : PortId) (origin : Nat) (q : Creq) (h : Equip.Fits
    (s.item .equip)) :
    Equip.Fits ((s.takeCreq p origin q).item .equip) := by
  unfold State.takeCreq; (try dsimp only); (repeat' split) <;> first | (simp_all; done) | simp [*]

@[simp] theorem State.takeCacc_outbound (s : State) (p : PortId) (origin : Nat) (a : Cacc) (h : Equip.Fits
    (s.item .equip)) :
    Equip.Fits ((s.takeCacc p origin a).item .equip) := by
  unfold State.takeCacc; (try dsimp only); (repeat' split) <;> first | (simp_all; done) | simp [*]

@[simp] theorem State.takeCrel_outbound (s : State) (p : PortId) (origin : Nat) (ref : CallRef)
    (cause : ReleaseCause) (h : Equip.Fits (s.item .equip)) :
    Equip.Fits ((s.takeCrel p origin ref cause).item .equip) := by
  unfold State.takeCrel; (try dsimp only); (repeat' split) <;> first | (simp_all; done) | simp [*]

@[simp] theorem State.takeVoic_outbound (s : State) (p : PortId) (origin : Nat) (ref : CallRef) (f : VoiceFrame)
    (h : Equip.Fits (s.item .equip)) :
    Equip.Fits ((s.takeVoic p origin ref f).item .equip) := by
  unfold State.takeVoic; (try dsimp only); (repeat' split) <;> first | (simp_all; done) | simp [*]

@[simp] theorem State.takeCallFrame_outbound (s : State) (p : PortId) (f : Frame) (h : Equip.Fits (s.item .equip)) :
    Equip.Fits ((s.takeCallFrame p f).item .equip) := by
  unfold State.takeCallFrame; (try dsimp only); (repeat' split) <;> first | (simp_all; done) | simp [*]

@[simp] theorem State.terminusSilence_outbound (s : State) (e : Fin 8) (h : Equip.Fits (s.item .equip)) :
    Equip.Fits ((s.terminusSilence e).item .equip) := by
  unfold State.terminusSilence; refine State.onEntry_outbound _ _ _ _ h fun c => ?_; (repeat' split) <;> simp [*]

@[simp] theorem State.queuedKeep_outbound (s : State) (e : Fin 8) (h : Equip.Fits (s.item .equip)) :
    Equip.Fits ((s.queuedKeep e).item .equip) := by
  unfold State.queuedKeep; refine State.onEntry_outbound _ _ _ _ h fun c => ?_; (repeat' split) <;> simp [*]

@[simp] theorem State.callingRing_outbound (s : State) (e : Fin 8) (h : Equip.Fits (s.item .equip)) :
    Equip.Fits ((s.callingRing e).item .equip) := by
  unfold State.callingRing; refine State.onEntry_outbound _ _ _ _ h fun c => ?_; (repeat' split) <;> simp [*]

@[simp] theorem State.takeRingOut_outbound (s : State) (node phone : Byte) (h : Equip.Fits (s.item .equip)) :
    Equip.Fits ((s.takeRingOut node phone).item .equip) := by
  unfold State.takeRingOut; (try dsimp only); (repeat' split) <;> first | (simp_all; done) | simp [*]

@[simp] theorem State.takeHangup_outbound (s : State) (ref : CallRef) (h : Equip.Fits (s.item .equip)) :
    Equip.Fits ((s.takeHangup ref).item .equip) := by
  unfold State.takeHangup; (try dsimp only); (repeat' split) <;> first | (simp_all; done) | simp [*]

@[simp] theorem State.drainPending_outbound (s : State) (h : Equip.Fits (s.item .equip)) :
    Equip.Fits (s.drainPending.item .equip) := by
  unfold State.drainPending; (repeat' split)
  · rename_i hq
    exact State.placeTail_outbound _ _ hq
  · exact h
  · exact h

@[simp] theorem State.playExpiry_outbound (s : State) (e : Fin 8) (h : Equip.Fits (s.item .equip)) :
    Equip.Fits ((s.playExpiry e).item .equip) := by
  unfold State.playExpiry; refine State.onEntry_outbound _ _ _ _ h fun c => ?_; (repeat' split) <;> simp [*]

@[simp] theorem State.acceptRecord_outbound (s : State) (origin : Nat) (r : TollRecord) (h : s.queueRoom = true) :
    Equip.Fits ((s.acceptRecord origin r).item .equip) := by
  unfold State.acceptRecord
  exact State.placeTail_outbound _ _ h

@[simp] theorem State.receiveRecords_outbound (base : Position) (origin : Nat) (rs : List TollRecord) (s : State)
    (h : Equip.Fits (s.item .equip)) : Equip.Fits ((State.receiveRecords base origin rs s).item .equip) := by
  induction rs generalizing s with
  | nil => exact h
  | cons r rs ih => unfold State.receiveRecords; (repeat' split) <;> simp_all

@[simp] theorem State.receiveTrec_outbound (s : State) (p : PortId) (f : Frame) (h : Equip.Fits (s.item .equip)) :
    Equip.Fits ((s.receiveTrec p f).item .equip) := by
  unfold State.receiveTrec; (try dsimp only); (repeat' split) <;> first | (simp_all; done) | simp [*]

@[simp] theorem State.buildOne_outbound (s : State) (h : Equip.Fits (s.item .equip)) :
    Equip.Fits (s.buildOne.item .equip) := by
  unfold State.buildOne; (try dsimp only); (repeat' split) <;> first | (simp_all; done) | simp [*]

@[simp] theorem State.buildTrecs_outbound (n : Nat) (s : State) (h : Equip.Fits (s.item .equip)) :
    Equip.Fits ((s.buildTrecs n).item .equip) := by
  induction n generalizing s with
  | zero => exact h
  | succ n ih => unfold State.buildTrecs; (repeat' split) <;> simp_all

@[simp] theorem State.runToll_outbound (s : State) (h : Equip.Fits (s.item .equip)) :
    Equip.Fits (s.runToll.item .equip) := by
  unfold State.runToll; (try dsimp only); (repeat' split) <;> first | (simp_all; done) | simp [*]

@[simp] theorem State.tackDelivered_outbound (s : State) (f : Frame) (h : Equip.Fits (s.item .equip)) :
    Equip.Fits ((s.tackDelivered f).item .equip) := by
  unfold State.tackDelivered; (try dsimp only); (repeat' split) <;> first | (simp_all; done) | simp [*]

@[simp] theorem State.sendWalr_outbound (s : State) (h : Equip.Fits (s.item .equip)) :
    Equip.Fits (s.sendWalr.item .equip) := by
  unfold State.sendWalr; (try dsimp only); (repeat' split) <;> first | (simp_all; done) | simp [*]

@[simp] theorem State.gather_outbound (s : State) (g : GatherItem) (h : Equip.Fits (s.item .equip)) :
    Equip.Fits ((s.gather g).item .equip) := by
  unfold State.gather; (try dsimp only); (repeat' split) <;> first | (simp_all; done) | simp [*]

@[simp] theorem State.claimForRule_outbound (s : State) (n : Fin 8) (h : Equip.Fits (s.item .equip)) :
    Equip.Fits ((s.claimForRule n).item .equip) := by
  unfold State.claimForRule; (try dsimp only); (repeat' split) <;> first | (simp_all; done) | simp [*]

@[simp] theorem State.ruleRaised_outbound (s : State) (n : Fin 8) (h : Equip.Fits (s.item .equip)) :
    Equip.Fits ((s.ruleRaised n).item .equip) := by
  unfold State.ruleRaised; (try dsimp only); (repeat' split) <;> first | (simp_all; done) | simp [*]

@[simp] theorem State.ruleCleared_outbound (s : State) (n : Fin 8) (h : Equip.Fits (s.item .equip)) :
    Equip.Fits ((s.ruleCleared n).item .equip) := by
  unfold State.ruleCleared; (try dsimp only); (repeat' split) <;> first | (simp_all; done) | simp [*]

@[simp] theorem State.evaluate_outbound (s : State) (n : Fin 8) (raiseC clearC : Bool) (h : Equip.Fits
    (s.item .equip)) :
    Equip.Fits ((s.evaluate n raiseC clearC).item .equip) := by
  unfold State.evaluate; (try dsimp only); (repeat' split) <;> first | (simp_all; done) | simp [*]

@[simp] theorem State.evaluateSource_outbound (s : State) (src : RuleSource) (v : Int) (h : Equip.Fits
    (s.item .equip)) :
    Equip.Fits ((s.evaluateSource src v).item .equip) := by
  unfold State.evaluateSource; (repeat' split) <;> first
    | exact foldl_item_keeps _ _ _ h fun t b h => by first | split <;> simp_all | simp_all
    | simp_all

@[simp] theorem State.windowEnd_outbound (s : State) (ch : PulseId) (h : Equip.Fits (s.item .equip)) :
    Equip.Fits ((s.windowEnd ch).item .equip) := by
  unfold State.windowEnd; (try dsimp only); (repeat' split) <;> first | (simp_all; done) | simp [*]

@[simp] theorem State.takeReading_outbound (s : State) (channel : Byte) (value : BitVec 16) (valid : Bool)
    (h : Equip.Fits (s.item .equip)) :
    Equip.Fits ((s.takeReading channel value valid).item .equip) := by
  unfold State.takeReading; (try dsimp only); (repeat' split) <;> first | (simp_all; done) | simp [*]

@[simp] theorem State.contactForRule_outbound (i : Fin 6) (s : State) (n : Fin 8) (h : Equip.Fits (s.item .equip)) :
    Equip.Fits ((State.contactForRule i s n).item .equip) := by
  unfold State.contactForRule; (try dsimp only); (repeat' split) <;> first | (simp_all; done) | simp [*]

@[simp] theorem State.contactEvent_outbound (s : State) (i : Fin 6) (h : Equip.Fits (s.item .equip)) :
    Equip.Fits ((s.contactEvent i).item .equip) := by
  unfold State.contactEvent; (repeat' split) <;> first
    | exact foldl_item_keeps _ _ _ h fun t b h => by first | split <;> simp_all | simp_all
    | simp_all

@[simp] theorem State.renew_outbound (s : State) (n : Fin 8) (h : Equip.Fits (s.item .equip)) :
    Equip.Fits ((s.renew n).item .equip) := by
  unfold State.renew; dsimp only; split
  · exact State.claimForRule_outbound _ _ (State.gather_outbound _ _ (by simp [*]))
  · simp [*]

@[simp] theorem State.sendWrpt_outbound (s : State) (h : Equip.Fits (s.item .equip)) :
    Equip.Fits (s.sendWrpt.item .equip) := by
  unfold State.sendWrpt; (try dsimp only); (repeat' split) <;> first | (simp_all; done) | simp [*]

@[simp] theorem State.countStatusLost_outbound (s : State) (n : Nat) (h : Equip.Fits (s.item .equip)) :
    Equip.Fits ((s.countStatusLost n).item .equip) := by
  unfold State.countStatusLost; (try dsimp only); (repeat' split) <;> first | (simp_all; done) | simp [*]

@[simp] theorem State.offerPart_outbound (p : PortId) (s : State) (payload : List Byte) (h : Equip.Fits
    (s.item .equip)) :
    Equip.Fits ((State.offerPart p s payload).item .equip) := by
  unfold State.offerPart; (try dsimp only); (repeat' split) <;> first | (simp_all; done) | simp [*]

@[simp] theorem State.sendParts_outbound (s : State) (parts : List (List Byte)) (h : Equip.Fits (s.item .equip)) :
    Equip.Fits ((s.sendParts parts).item .equip) := by
  unfold State.sendParts; (repeat' split) <;> first
    | exact foldl_item_keeps _ _ _ h fun t b h => by first | split <;> simp_all | simp_all
    | simp_all

@[simp] theorem State.sendNsta_outbound (s : State) (h : Equip.Fits (s.item .equip)) :
    Equip.Fits (s.sendNsta.item .equip) := by
  exact State.sendParts_outbound _ _ (by simp [*])

@[simp] theorem State.answerStatus_outbound (s : State) (origin : Byte) (h : Equip.Fits (s.item .equip)) :
    Equip.Fits ((s.answerStatus origin).item .equip) := by
  unfold State.answerStatus; (try dsimp only); (repeat' split) <;> first | (simp_all; done) | simp [*]

@[simp] theorem State.countBad_outbound (s : State) (h : Equip.Fits (s.item .equip)) :
    Equip.Fits (s.countBad.item .equip) := by
  unfold State.countBad; (try dsimp only); (repeat' split) <;> first | (simp_all; done) | simp [*]

@[simp] theorem State.countNotReady_outbound (s : State) (h : Equip.Fits (s.item .equip)) :
    Equip.Fits (s.countNotReady.item .equip) := by
  unfold State.countNotReady; (try dsimp only); (repeat' split) <;> first | (simp_all; done) | simp [*]

@[simp] theorem State.countMisdirected_outbound (s : State) (h : Equip.Fits (s.item .equip)) :
    Equip.Fits (s.countMisdirected.item .equip) := by
  unfold State.countMisdirected; (try dsimp only); (repeat' split) <;> first | (simp_all; done) | simp [*]

@[simp] theorem State.dispatch_outbound (s : State) (ok used : Bool) (owner refusal : State → State)
    (h : Equip.Fits (s.item .equip)) (ho : ∀ t, Equip.Fits (t.item .equip) → Equip.Fits ((owner t).item .equip))
    (hr : ∀ t, Equip.Fits (t.item .equip) → Equip.Fits ((refusal t).item .equip)) :
    Equip.Fits ((s.dispatch ok used owner refusal).item .equip) := by
  unfold State.dispatch; (repeat' split) <;> simp_all

@[simp] theorem State.countSignLost_outbound (s : State) (h : Equip.Fits (s.item .equip)) :
    Equip.Fits (s.countSignLost.item .equip) := by
  unfold State.countSignLost; (try dsimp only); (repeat' split) <;> first | (simp_all; done) | simp [*]

@[simp] theorem State.offerSign_outbound (s : State) (p : PortId) (f : Frame) (h : Equip.Fits (s.item .equip)) :
    Equip.Fits ((s.offerSign p f).item .equip) := by
  unfold State.offerSign; (try dsimp only); (repeat' split) <;> first | (simp_all; done) | simp [*]

@[simp] theorem State.handSign_outbound (s : State) (kind : Byte) (payload : List Byte) (h : Equip.Fits
    (s.item .equip)) :
    Equip.Fits ((s.handSign kind payload).item .equip) := by
  unfold State.handSign; (try dsimp only); (repeat' split) <;> first | (simp_all; done) | simp [*]

@[simp] theorem State.sendSignFrame_outbound (s : State) (kind target zone : Byte) (payload : List Byte)
    (h : Equip.Fits (s.item .equip)) :
    Equip.Fits ((s.sendSignFrame kind target zone payload).item .equip) := by
  have h1 := fun f => State.offerSign_outbound s .east f h
  have h2 := fun f => State.offerSign_outbound _ .west f (h1 f)
  unfold State.sendSignFrame; dsimp only; (repeat' split)
  · exact State.handSign_outbound _ _ _ (h2 _)
  · exact State.handSign_outbound _ _ _ h
  · exact State.offerSign_outbound _ _ _ h
  · simp [*]

@[simp] theorem State.lineEvent_outbound (s : State) (l : LevelLine) (h : Equip.Fits (s.item .equip)) :
    Equip.Fits ((s.lineEvent l).item .equip) := by
  unfold State.lineEvent; (try dsimp only); (repeat' split) <;> first | (simp_all; done) | simp [*]

@[simp] theorem State.endWait_outbound (s : State) (l : LevelLine) (h : Equip.Fits (s.item .equip)) :
    Equip.Fits ((s.endWait l).item .equip) := by
  unfold State.endWait; (try dsimp only); (repeat' split) <;> first | (simp_all; done) | simp [*]

@[simp] theorem State.entryReport_outbound (s : State) (h : Equip.Fits (s.item .equip)) :
    Equip.Fits (s.entryReport.item .equip) := by
  unfold State.entryReport; (repeat' split) <;> first
    | exact foldl_item_keeps _ _ _ h fun t b h => by first | split <;> simp_all | simp_all
    | simp_all

@[simp] theorem State.endPulseWindow_outbound (s : State) (ch : PulseId) (h : Equip.Fits (s.item .equip)) :
    Equip.Fits ((s.endPulseWindow ch).item .equip) := by
  unfold State.endPulseWindow; (try dsimp only); (repeat' split) <;> first | (simp_all; done) | simp [*]

@[simp] theorem State.copyToCentre_outbound (s : State) (kind : Byte) (f : Frame) (h : Equip.Fits (s.item .equip)) :
    Equip.Fits ((s.copyToCentre kind f).item .equip) := by
  unfold State.copyToCentre; (try dsimp only); (repeat' split) <;> first | (simp_all; done) | simp [*]

@[simp] theorem State.reportToCentre_outbound (s : State) (kind : Byte) (f : Frame) (h : Equip.Fits (s.item .equip)) :
    Equip.Fits ((s.reportToCentre kind f).item .equip) := by
  unfold State.reportToCentre; split <;> simp_all

@[simp] theorem State.toOwner_outbound (s : State) (p : PortId) (f : Frame) (h : Equip.Fits (s.item .equip)) :
    Equip.Fits ((s.toOwner p f).item .equip) := by
  unfold State.toOwner; (try dsimp only); (repeat' split) <;> first | (simp_all; done) | simp [*]

@[simp] theorem State.deliver_outbound (s : State) (p : PortId) (f : Frame) (h : Equip.Fits (s.item .equip)) :
    Equip.Fits ((s.deliver p f).item .equip) := by
  unfold State.deliver; (try dsimp only); (repeat' split) <;> first | (simp_all; done) | simp [*]

@[simp] theorem State.goodFrame_outbound (s : State) (p : PortId) (f : Frame) (h : Equip.Fits (s.item .equip)) :
    Equip.Fits ((s.goodFrame p f).item .equip) := by
  unfold State.goodFrame; (try dsimp only); (repeat' split) <;> first | (simp_all; done) | simp [*]

@[simp] theorem State.takeFrame_outbound (s : State) (p : PortId) (bytes : List Byte) (h : Equip.Fits
    (s.item .equip)) :
    Equip.Fits ((s.takeFrame p bytes).item .equip) := by
  unfold State.takeFrame; (try dsimp only); (repeat' split) <;> first | (simp_all; done) | simp [*]

@[simp] theorem State.tryDisplayReport_outbound (s : State) (h : Equip.Fits (s.item .equip)) :
    Equip.Fits (s.tryDisplayReport.item .equip) := by
  unfold State.tryDisplayReport; (try dsimp only); (repeat' split) <;> first | (simp_all; done) | simp [*]

@[simp] theorem State.endFrame_outbound (s : State) (h : Equip.Fits (s.item .equip)) :
    Equip.Fits (s.endFrame.item .equip) := by
  unfold State.endFrame; (try dsimp only); (repeat' split) <;> first | (simp_all; done) | simp [*]

@[simp] theorem State.startStatus_outbound (s : State) (h : Equip.Fits (s.item .equip)) :
    Equip.Fits (s.startStatus.item .equip) := by
  unfold State.startStatus; (try dsimp only); (repeat' split) <;> first | (simp_all; done) | simp [*]

@[simp] theorem State.enterRunning_outbound (s : State) (h : Equip.Fits (s.item .equip)) :
    Equip.Fits (s.enterRunning.item .equip) := by
  have h1 : Equip.Fits ((State.startBeats { s with node := .running }).item .equip) := by simp [*]
  have h3 := State.entryReport_outbound _ (show Equip.Fits (((State.startBeats { s with node := .running }).reportChange
    []).item .equip) by simp [*])
  exact State.runToll_outbound _ (State.startStatus_outbound _ (by simp [h3]))

@[simp] theorem State.enterScanning_outbound (s : State) (c : Config) (h : Equip.Fits (s.item .equip)) :
    Equip.Fits ((s.enterScanning c).item .equip) := by
  unfold State.enterScanning; (try dsimp only); (repeat' split) <;> first | (simp_all; done) | simp [*]

@[simp] theorem State.imageRead_outbound (s : State) (image : Option (List Byte)) (h : Equip.Fits (s.item .equip)) :
    Equip.Fits ((s.imageRead image).item .equip) := by
  unfold State.imageRead; (try dsimp only); (repeat' split) <;> first | (simp_all; done) | simp [*]

@[simp] theorem State.generationSettled_outbound (s : State) (value : Nat) (fault : Bool) (h : Equip.Fits
    (s.item .equip)) :
    Equip.Fits ((s.generationSettled value fault).item .equip) := by
  unfold State.generationSettled; dsimp only; split
  · exact State.enterRunning_outbound _ h
  · exact State.runToll_outbound _ h

@[simp] theorem State.genMarkEnd_outbound (s : State) (h : Equip.Fits (s.item .equip)) :
    Equip.Fits (s.genMarkEnd.item .equip) := by
  unfold State.genMarkEnd; (try dsimp only); (repeat' split) <;> first | (simp_all; done) | simp [*]

@[simp] theorem State.genMarkLimit_outbound (s : State) (h : Equip.Fits (s.item .equip)) :
    Equip.Fits (s.genMarkLimit.item .equip) := by
  unfold State.genMarkLimit; (try dsimp only); (repeat' split) <;> first | (simp_all; done) | simp [*]

@[simp] theorem State.markEraseEnd_outbound (s : State) (erased : Bool) (h : Equip.Fits (s.item .equip)) :
    Equip.Fits ((s.markEraseEnd erased).item .equip) := by
  unfold State.markEraseEnd; (try dsimp only); (repeat' split) <;> first | (simp_all; done) | simp [*]

@[simp] theorem State.submit_outbound (s : State) (tag : Byte) (gantry : BitVec 16) (lane : Byte)
    (body : List Byte) (h : Equip.Fits (s.item .equip)) :
    Equip.Fits ((s.submit tag gantry lane body).item .equip) := by
  unfold State.submit; (try dsimp only); (repeat' split) <;> first | (simp_all; done) | simp [*]

@[simp] theorem State.recordEnd_outbound (s : State) (h : Equip.Fits (s.item .equip)) :
    Equip.Fits (s.recordEnd.item .equip) := by
  unfold State.recordEnd; (repeat' split) <;> first
    | exact h
    | exact State.runToll_outbound _ ((congrArg Equip.Fits (State.windowIntake_item _ (by decide))).mpr
        (State.answerSpool_outbound _ _ (by simp [*])))

@[simp] theorem State.giveUp_outbound (s : State) (tag : Byte) (c : TollCause) (h : Equip.Fits (s.item .equip)) :
    Equip.Fits ((s.giveUp tag c).item .equip) := by
  exact State.runToll_outbound _ (State.answerSpool_outbound _ _ (by simp [*]))

@[simp] theorem State.retryRecord_outbound (s : State) (tag : Byte) (h : Equip.Fits (s.item .equip)) :
    Equip.Fits ((s.retryRecord tag).item .equip) := by
  unfold State.retryRecord; (try dsimp only); (repeat' split) <;> first | (simp_all; done) | simp [*]

@[simp] theorem State.recordLimit_outbound (s : State) (h : Equip.Fits (s.item .equip)) :
    Equip.Fits (s.recordLimit.item .equip) := by
  unfold State.recordLimit; (try dsimp only); (repeat' split) <;> first | (simp_all; done) | simp [*]

@[simp] theorem State.markEnd_outbound (s : State) (h : Equip.Fits (s.item .equip)) :
    Equip.Fits (s.markEnd.item .equip) := by
  unfold State.markEnd; (try dsimp only); (repeat' split) <;> first | (simp_all; done) | simp [*]

@[simp] theorem State.markLimit_outbound (s : State) (h : Equip.Fits (s.item .equip)) :
    Equip.Fits (s.markLimit.item .equip) := by
  unfold State.markLimit; (try dsimp only); (repeat' split) <;> first | (simp_all; done) | simp [*]

@[simp] theorem State.endRead_outbound (s : State) (ended : Bool) (h : Equip.Fits (s.item .equip)) :
    Equip.Fits ((s.endRead ended).item .equip) := by
  unfold State.endRead; (try dsimp only); (repeat' split) <;> first | (simp_all; done) | simp [*]

@[simp] theorem State.endErase_outbound (s : State) (failed : List (Fin 63)) (limit : Bool) (h : Equip.Fits
    (s.item .equip)) :
    Equip.Fits ((s.endErase failed limit).item .equip) := by
  unfold State.endErase; (repeat' split) <;> first
    | exact h
    | exact State.runToll_outbound _ (by simpa [foldl_item] using h)

@[simp] theorem State.retryEnd_outbound (s : State) (h : Equip.Fits (s.item .equip)) :
    Equip.Fits (s.retryEnd.item .equip) := by
  unfold State.retryEnd; (try dsimp only); (repeat' split) <;> first | (simp_all; done) | simp [*]

@[simp] theorem State.goBackNow_outbound (s : State) (h : Equip.Fits (s.item .equip)) :
    Equip.Fits (s.goBackNow.item .equip) := by
  unfold State.goBackNow; (try dsimp only); (repeat' split) <;> first | (simp_all; done) | simp [*]

end Sys2Proof.Machine
end

