-- ==== Sys2Proof/Laws/Pages.lean ====
section
/-! SUPPORT. Sparse stores and the pixel memory: reads after writes, the canonical form, and what one SDAT does to the
pages. -/

namespace Sys2Proof.Machine

/-! ### Sparse stores -/

theorem keysRising_iff {α : Type} (l : List (Nat × α)) : keysRising l = true ↔ l.Pairwise fun a b => a.1 < b.1 := by
  induction l with
  | nil => simp [keysRising]
  | cons a l ih =>
    cases l with
    | nil => simp [keysRising]
    | cons b l =>
      obtain ⟨a, x⟩ := a
      obtain ⟨b, y⟩ := b
      simp only [keysRising, Bool.and_eq_true, decide_eq_true_eq, ih]
      constructor
      · rintro ⟨h, h'⟩
        refine List.pairwise_cons.2 ⟨?_, h'⟩
        rintro ⟨c, z⟩ hc
        rcases List.mem_cons.1 hc with hc | hc
        · cases hc; exact h
        · exact Nat.lt_trans h ((List.pairwise_cons.1 h').1 _ hc)
      · intro h
        exact ⟨(List.pairwise_cons.1 h).1 _ (List.mem_cons_self ..), (List.pairwise_cons.1 h).2⟩

@[simp] theorem keyGet_keySet {α : Type} (l : List (Nat × α)) (a b : Nat) (x : α) :
    keyGet (keySet l a x) b = if b = a then some x else keyGet l b := by
  induction l with
  | nil => simp [keySet, keyGet]
  | cons c l ih =>
    obtain ⟨k, v⟩ := c
    simp only [keySet]
    split
    · simp [keyGet]
    · split
      · simp only [keyGet]; split <;> simp_all
      · simp only [keyGet, ih]; split <;> split <;> simp_all

theorem keyGet_none {α : Type} {l : List (Nat × α)} {a : Nat} (h : ∀ c ∈ l, c.1 ≠ a) : keyGet l a = none := by
  induction l with
  | nil => rfl
  | cons c l ih =>
    obtain ⟨k, v⟩ := c
    have : a ≠ k := fun e => h (k, v) (List.mem_cons_self ..) e.symm
    simp only [keyGet, if_neg this]
    exact ih fun c hc => h c (List.mem_cons_of_mem _ hc)

theorem keyGet_keyDel {α : Type} {l : List (Nat × α)} (h : keysRising l = true) (a b : Nat) :
    keyGet (keyDel l a) b = if b = a then none else keyGet l b := by
  rw [keysRising_iff] at h
  induction l with
  | nil => simp [keyDel, keyGet]
  | cons c l ih =>
    obtain ⟨k, v⟩ := c
    obtain ⟨h1, h2⟩ := List.pairwise_cons.1 h
    simp only [keyDel]
    split
    · rename_i hk
      subst hk
      split
      · rename_i hb; subst hb
        exact keyGet_none fun c hc => Nat.ne_of_gt (h1 c hc)
      · rename_i hb; simp [keyGet, hb]
    · simp only [keyGet, ih h2]; split <;> split <;> simp_all

theorem keyGet_keyDel_ne {α : Type} (l : List (Nat × α)) {a b : Nat} (h : b ≠ a) :
    keyGet (keyDel l a) b = keyGet l b := by
  induction l with
  | nil => rfl
  | cons c l ih =>
    obtain ⟨k, v⟩ := c
    simp only [keyDel]
    split
    · rename_i hk; subst hk; simp [keyGet, h]
    · simp only [keyGet, ih]

theorem mem_keySet {α : Type} {l : List (Nat × α)} {a : Nat} {x : α} {c : Nat × α} (h : c ∈ keySet l a x) :
    c = (a, x) ∨ c ∈ l := by
  induction l with
  | nil => simpa [keySet] using h
  | cons d l ih =>
    obtain ⟨k, v⟩ := d
    simp only [keySet] at h
    (repeat' split at h) <;> simp only [List.mem_cons] at h ⊢
    · tauto
    · tauto
    · rcases h with h | h
      · tauto
      · rcases ih h with h | h <;> tauto

theorem mem_keyDel {α : Type} {l : List (Nat × α)} {a : Nat} {c : Nat × α} (h : c ∈ keyDel l a) : c ∈ l := by
  induction l with
  | nil => exact h
  | cons d l ih =>
    obtain ⟨k, v⟩ := d
    simp only [keyDel] at h
    split at h
    · exact List.mem_cons_of_mem _ h
    · rcases List.mem_cons.1 h with h | h
      · exact h ▸ List.mem_cons_self ..
      · exact List.mem_cons_of_mem _ (ih h)

theorem keySet_rising {α : Type} {l : List (Nat × α)} (h : keysRising l = true) (a : Nat) (x : α) :
    keysRising (keySet l a x) = true := by
  rw [keysRising_iff] at h ⊢
  induction l with
  | nil => simp [keySet]
  | cons c l ih =>
    obtain ⟨k, v⟩ := c
    obtain ⟨h1, h2⟩ := List.pairwise_cons.1 h
    simp only [keySet]
    split
    · rename_i hk
      refine List.pairwise_cons.2 ⟨fun c hc => ?_, h⟩
      rcases List.mem_cons.1 hc with hc | hc
      · rw [hc]; exact hk
      · exact Nat.lt_trans hk (h1 c hc)
    · split
      · rename_i hk; subst hk
        exact List.pairwise_cons.2 ⟨h1, h2⟩
      · refine List.pairwise_cons.2 ⟨fun c hc => ?_, ih h2⟩
        rcases mem_keySet hc with hc | hc
        · rw [hc]; dsimp only; omega
        · exact h1 c hc

theorem keyDel_rising {α : Type} {l : List (Nat × α)} (h : keysRising l = true) (a : Nat) :
    keysRising (keyDel l a) = true := by
  rw [keysRising_iff] at h ⊢
  induction l with
  | nil => exact h
  | cons c l ih =>
    obtain ⟨k, v⟩ := c
    obtain ⟨h1, h2⟩ := List.pairwise_cons.1 h
    simp only [keyDel]
    split
    · exact h2
    · exact List.pairwise_cons.2 ⟨fun c hc => h1 c (mem_keyDel hc), ih h2⟩

/-! ### Pixel memory (R144) -/

theorem Memory.wf_iff (m : List Host.Cell) : Memory.wf m = true ↔ keysRising m = true ∧ ∀ c ∈ m, c.2 ≠ 0 := by
  simp [Memory.wf]

/-- A write keeps the canonical form. -/
theorem writePixelCell_wf {m : List Host.Cell} (h : Memory.wf m = true) (a : Nat) (v : Byte) :
    Memory.wf (writePixelCell m a v) = true := by
  rw [Memory.wf_iff] at *
  unfold writePixelCell
  split
  · exact ⟨keyDel_rising h.1 a, fun c hc => h.2 c (mem_keyDel hc)⟩
  · rename_i hv
    refine ⟨keySet_rising h.1 a v, fun c hc => ?_⟩
    rcases mem_keySet hc with hc | hc
    · rw [hc]; exact hv
    · exact h.2 c hc

theorem mem_writePixelCell {m : List Host.Cell} {a : Nat} {v : Byte} {c : Host.Cell} (h : c ∈ writePixelCell m a v) :
    c = (a, v) ∨ c ∈ m := by
  unfold writePixelCell at h
  split at h
  · exact .inr (mem_keyDel h)
  · exact mem_keySet h

/-- A read after a write to the same pixel gives the colour written. -/
theorem readPixelCell_write_same {m : List Host.Cell} (h : Memory.wf m = true) (a : Nat) (v : Byte) :
    readPixelCell (writePixelCell m a v) a = v := by
  unfold readPixelCell writePixelCell
  split
  · rename_i hv; rw [keyGet_keyDel ((Memory.wf_iff m).1 h).1]; simp [hv]
  · simp

/-- A write leaves every other pixel. -/
theorem readPixelCell_write_ne (m : List Host.Cell) {a b : Nat} (v : Byte) (h : b ≠ a) :
    readPixelCell (writePixelCell m a v) b = readPixelCell m b := by
  unfold readPixelCell writePixelCell
  split
  · rw [keyGet_keyDel_ne m h]
  · simp [h]

/-- A colour 0..15 at a pixel of the four pages. -/
def CellSound (c : Host.Cell) : Prop := c.1 < 65536 ∧ c.2.toNat < 16

theorem readPixelCell_lt {m : List Host.Cell} (h : ∀ c ∈ m, CellSound c) (a : Nat) : (readPixelCell m a).toNat < 16 := by
  unfold readPixelCell
  induction m with
  | nil => simp [keyGet]
  | cons c m ih =>
    obtain ⟨k, v⟩ := c
    simp only [keyGet]
    split
    · exact (h (k, v) (List.mem_cons_self ..)).2
    · exact ih fun c hc => h c (List.mem_cons_of_mem _ hc)

/-- One column byte painted within a page: the canonical form, the colours and the other pages are kept. -/
theorem paintByte_keeps {m : List Host.Cell} {page row col : Nat} {f : Nat → Byte → Byte} (hp : page < 4) (hr : row < 64)
    (hc : col < 32) (hw : Memory.wf m = true) (hm : ∀ c ∈ m, CellSound c)
    (hf : ∀ i b, b.toNat < 16 → (f i b).toNat < 16) :
    Memory.wf (paintByte m page row col f) = true ∧ (∀ c ∈ paintByte m page row col f, CellSound c) ∧
      ∀ a, a / 16384 ≠ page → readPixelCell (paintByte m page row col f) a = readPixelCell m a := by
  unfold paintByte
  have hl : ∀ i ∈ List.range 8, i < 8 := fun i hi => List.mem_range.1 hi
  revert hl
  generalize List.range 8 = l
  intro hl
  induction l generalizing m with
  | nil => exact ⟨hw, hm, fun _ _ => rfl⟩
  | cons i l ih =>
    have hi := hl i (List.mem_cons_self ..)
    obtain ⟨h1, h2, h3⟩ := ih
      (m := writePixelCell m (pixelAddr page row (8 * col + i)) (f i (readPixelCell m (pixelAddr page row (8 * col + i)))))
      (writePixelCell_wf hw _ _)
      (by
        intro c hc
        rcases mem_writePixelCell hc with hc | hc
        · rw [hc]
          refine ⟨?_, hf _ _ (readPixelCell_lt hm _)⟩
          simp only [pixelAddr]; omega
        · exact hm c hc)
      (fun j hj => hl j (List.mem_cons_of_mem _ hj))
    refine ⟨h1, h2, fun a ha => ?_⟩
    rw [List.foldl_cons, h3 a ha]
    refine readPixelCell_write_ne m _ fun e => ha ?_
    subst e
    simp only [pixelAddr]; omega

/-- What a write into one page keeps. -/
def WriteKeeps (page : Nat) (m n : List Host.Cell) : Prop :=
  Memory.wf n = true ∧ (∀ c ∈ n, CellSound c) ∧ ∀ a, a / 16384 ≠ page → readPixelCell n a = readPixelCell m a

theorem paintBytes_keeps {cols page row : Nat} {g : Byte → Nat → Byte → Byte} (hp : page < 4) (hr : row < 64)
    (hcols : cols ≤ 32) (hg : ∀ d i b, b.toNat < 16 → (g d i b).toNat < 16) (data : List Byte) (col : Nat)
    {m : List Host.Cell} (hw : Memory.wf m = true) (hm : ∀ c ∈ m, CellSound c) :
    WriteKeeps page m (paintBytes cols page row g col data m) := by
  induction data generalizing col m with
  | nil => exact ⟨hw, hm, fun _ _ => rfl⟩
  | cons d rest ih =>
    unfold paintBytes
    split
    · rename_i hc
      obtain ⟨h1, h2, h3⟩ := paintByte_keeps hp hr (Nat.lt_of_lt_of_le hc hcols) hw hm (hg d)
      obtain ⟨k1, k2, k3⟩ := ih (col + 1) h1 h2
      exact ⟨k1, k2, fun a ha => (k3 a ha).trans (h3 a ha)⟩
    · exact ih (col + 1) hw hm

theorem copyBytes_keeps {cols page row srcPage srcRow : Nat} {mask : Byte} (hp : page < 4) (hr : row < 64)
    (hcols : cols ≤ 32) (n col src : Nat) {m : List Host.Cell} (hw : Memory.wf m = true) (hm : ∀ c ∈ m, CellSound c) :
    WriteKeeps page m (copyBytes cols page row srcPage srcRow mask n col src m) := by
  induction n generalizing col src m with
  | zero => exact ⟨hw, hm, fun _ _ => rfl⟩
  | succ n ih =>
    unfold copyBytes
    split
    · rename_i hc
      obtain ⟨h1, h2, h3⟩ := paintByte_keeps (f := fun i old =>
          if pixelBit mask i then readPixelCell m (pixelAddr srcPage srcRow (8 * src + i)) else old)
        hp hr (Nat.lt_of_lt_of_le hc.1 hcols) hw hm
        (fun i b hb => by split; exacts [readPixelCell_lt hm _, hb])
      obtain ⟨k1, k2, k3⟩ := ih (col + 1) (src + 1) h1 h2
      exact ⟨k1, k2, fun a ha => (k3 a ha).trans (h3 a ha)⟩
    · exact ⟨hw, hm, fun _ _ => rfl⟩

theorem low_nibble (b : Byte) : b.toNat < 16 ↔ b &&& 0xF0 = 0 := by revert b; decide

theorem planePixel_lt (planes : BitVec 4) (fn : PlaneFn) (rotate : Nat) (mask data : Byte) (i : Nat) (old : Byte)
    (h : old.toNat < 16) : (planePixel planes fn rotate mask data i old).toNat < 16 := by
  unfold planePixel
  split
  · rw [low_nibble] at *
    have hp : planes.setWidth 8 &&& (0xF0 : Byte) = 0 := by revert planes; decide
    rw [BitVec.and_or_distrib_right, BitVec.and_assoc, BitVec.and_assoc, hp]
    rw [BitVec.and_comm (~~~planes.setWidth 8), ← BitVec.and_assoc, h]
    simp
  · exact h

theorem colourPixel_lt {colour : Nat} (hc : colour < 16) (mask data : Byte) (i : Nat) (old : Byte) (h : old.toNat < 16) :
    (colourPixel colour mask data i old).toNat < 16 := by
  unfold colourPixel; split
  · simp; omega
  · exact h

/-! ### Writes of SDAT fragments (R144 to R154) -/

/-- A COLOUR write carries a colour 0..15 (R146). -/
def SignWrite.Valid : SignWrite → Prop
  | SignWrite.colour _ _ _ c _ => c < 16
  | _ => True

theorem parseWrite_valid {p : List Byte} {w : SignWrite} (h : parseWrite p = some w) : w.Valid := by
  unfold parseWrite at h
  (repeat' split at h) <;> (try cases h) <;> simp_all [SignWrite.Valid] <;> try omega

theorem parseSdat_valid {p : List Byte} {d : Sdat} (h : parseSdat p = some d) : d.write.Valid := by
  unfold parseSdat at h
  (repeat' split at h) <;> cases h
  exact parseWrite_valid (by assumption)

/-- What one fragment does to the pages: the pixel store stays sound, and every other page keeps its record and pixels. -/
def PagesStep (page : Fin 4) (a b : Pages) : Prop :=
  a.PixelsSound → b.PixelsSound ∧
    ∀ q : Fin 4, q ≠ page → b.records[q] = a.records[q] ∧
      ∀ x : Nat, x / 16384 = (q : Nat) → readPixelCell b.pixels x = readPixelCell a.pixels x

theorem PagesStep.refl (page : Fin 4) (a : Pages) : PagesStep page a a := fun h => ⟨h, fun _ _ => ⟨rfl, fun _ _ => rfl⟩⟩

theorem PagesStep.trans {page : Fin 4} {a b c : Pages} (h : PagesStep page a b) (k : PagesStep page b c) :
    PagesStep page a c := fun ha =>
  ⟨(k (h ha).1).1, fun q hq => ⟨(((k (h ha).1).2 q hq).1).trans ((h ha).2 q hq).1,
    fun x hx => (((k (h ha).1).2 q hq).2 x hx).trans (((h ha).2 q hq).2 x hx)⟩⟩

/-- An operation that leaves pixels and the other records. -/
theorem PagesStep.of {page : Fin 4} {a b : Pages} (hp : b.pixels = a.pixels)
    (hr : ∀ q, q ≠ page → b.records[q] = a.records[q]) : PagesStep page a b := fun ha =>
  ⟨by unfold Pages.PixelsSound at *; rw [hp]; exact ha, fun q hq => ⟨hr q hq, fun _ _ => by rw [hp]⟩⟩

theorem records_set_ne {page q : Fin 4} (v : Vector PageRecord 4) (r : PageRecord) (h : q ≠ page) :
    (v.set page r)[q] = v[q] := by
  have : (page : Nat) ≠ q := fun e => h (Fin.ext e.symm)
  simp [Vector.getElem_set, this]

theorem PagesStep.pixels {page : Fin 4} {a : Pages} {m : List Host.Cell}
    (h : a.PixelsSound → WriteKeeps page a.pixels m) : PagesStep page a { a with pixels := m } := fun ha =>
  ⟨⟨(h ha).1, (h ha).2.1⟩, fun q hq => ⟨rfl, fun x hx => (h ha).2.2 x (by rw [hx]; exact fun e => hq (Fin.ext e))⟩⟩

theorem State.applyWrite_keeps {s : State} {page : Fin 4} {w : SignWrite} {m : List Host.Cell} (hw : w.Valid)
    (hs : s.SignSized) (h : s.applyWrite page w = some m) : PagesStep page s.pages { s.pages with pixels := m } := by
  have hc : s.signCols ≤ 32 := by have := hs.1; unfold State.signCols; omega
  have hh := hs.2
  refine PagesStep.pixels fun ha => ?_
  have same : WriteKeeps page s.pages.pixels s.pages.pixels := ⟨ha.1, ha.2, fun _ _ => rfl⟩
  unfold State.applyWrite at h
  cases w with
  | nothing => cases h; exact same
  | plane row col planes fn rotate mask data =>
    cases h
    split
    · exact paintBytes_keeps page.2 (by omega) hc (fun d i b hb => planePixel_lt _ _ _ _ _ _ _ hb) _ _ ha.1 ha.2
    · exact same
  | colour row col mask colour data =>
    cases h
    split
    · exact paintBytes_keeps page.2 (by omega) hc (fun d i b hb => colourPixel_lt hw _ _ _ _ hb) _ _ ha.1 ha.2
    · exact same
  | copy row col mask srcPage srcRow srcCol count =>
    dsimp only at h
    split at h
    · cases h
      split
      · exact copyBytes_keeps page.2 (by omega) hc _ _ _ ha.1 ha.2
      · exact same
    · cases h

theorem clearPage_keeps {page : Fin 4} {a : Pages} : PagesStep page a { a with pixels := clearPage a.pixels page } := by
  refine PagesStep.pixels fun ha => ?_
  refine ⟨?_, fun c hc => ha.2 c (List.mem_filter.1 hc).1, fun x hx => ?_⟩
  · obtain ⟨h1, h2⟩ := (Memory.wf_iff _).1 ha.1
    rw [Memory.wf_iff]
    refine ⟨?_, fun c hc => h2 c (List.mem_filter.1 hc).1⟩
    rw [keysRising_iff] at *
    exact h1.filter _
  · unfold readPixelCell clearPage
    congr 1
    generalize a.pixels = l
    induction l with
    | nil => rfl
    | cons c l ih =>
      obtain ⟨k, v⟩ := c
      rw [List.filter_cons]
      split
      · simp only [keyGet, ih]
      · rename_i hk
        simp only [keyGet]
        split
        · rename_i e; subst e; simp at hk; exact absurd hk hx
        · exact ih

/-! ### Loads (R147 to R151) -/

theorem State.pages_of_item {s t : State} (h : t.item .pages = s.item .pages) : t.pages = s.pages := h

theorem State.setRecord_step (s : State) (page : Fin 4) (r : PageRecord) :
    PagesStep page s.pages (s.setRecord page r).pages := PagesStep.of rfl fun _ h => records_set_ne _ _ h

theorem State.recordReport_pages (s : State) (page : Fin 4) (index : Nat) (o : LoadOutcome) :
    (s.recordReport page index o).pages = s.pages := s.recordReport_item page index o (part := .pages) (by decide)

theorem State.loadReport_pages (s : State) (page : Fin 4) (l : Byte) (index : Nat) (o : LoadOutcome) (a : Nat)
    (f : Option PortId) : (s.loadReport page l index o a f).pages = s.pages :=
  s.loadReport_item page l index o a f (part := .pages) (by decide)

theorem State.abortLoad_step (s : State) (page : Fin 4) (o : LoadOutcome) :
    PagesStep page s.pages (s.abortLoad page o).pages := by
  unfold State.abortLoad
  rw [State.recordReport_pages]
  exact PagesStep.of rfl fun _ h => records_set_ne _ _ h

theorem State.completeLoad_step (s : State) (page : Fin 4) : PagesStep page s.pages (s.completeLoad page).pages := by
  unfold State.completeLoad
  rw [State.recordReport_pages]
  exact PagesStep.of rfl fun _ h => records_set_ne _ _ h

theorem State.refuseSdat_step (s : State) (d : Sdat) (origin : Nat) (port : Option PortId) (o : LoadOutcome)
    (page : Fin 4) : PagesStep page s.pages (s.refuseSdat d origin port o).pages := by
  unfold State.refuseSdat
  rw [State.loadReport_pages]
  exact PagesStep.of rfl fun _ _ => rfl

theorem State.supersede_step (s : State) (page : Fin 4) : PagesStep page s.pages (s.supersede page).pages := by
  unfold State.supersede
  split
  · rw [State.recordReport_pages]; exact PagesStep.of rfl fun _ _ => rfl
  · exact PagesStep.refl _ _

theorem State.supersede_sized {s : State} (h : s.SignSized) (page : Fin 4) : (s.supersede page).SignSized := by
  have : (s.supersede page).cfg = s.cfg := s.supersede_item page (part := .cfg) (by decide)
  unfold State.SignSized at *; rw [this]; exact h

theorem State.beginLoad_step {s : State} (hs : s.SignSized) {d : Sdat} (hd : d.write.Valid) (origin : Nat)
    (port : Option PortId) : PagesStep d.page s.pages (s.beginLoad d origin port).pages := by
  have h1 := s.supersede_step d.page
  have z1 := State.supersede_sized hs d.page
  unfold State.beginLoad
  dsimp only
  split
  · exact PagesStep.of rfl fun _ _ => rfl
  · generalize s.supersede d.page = t at h1 z1
    generalize PageRecord.mk PageState.loading (some d.loadId) (some origin) port 1 0 0
      (s.pages.records[d.page]).activity (s.pages.records[d.page]).timer = r
    have h2 := h1.trans (t.setRecord_step d.page r)
    have z2 : (t.setRecord d.page r).SignSized := z1
    generalize t.setRecord d.page r = u at h2 z2
    have h3 : PagesStep d.page s.pages (if d.clear then
        { u with pages := { u.pages with pixels := clearPage u.pages.pixels d.page } } else u).pages := by
      split
      · exact h2.trans clearPage_keeps
      · exact h2
    have z3 : (if d.clear then
        { u with pages := { u.pages with pixels := clearPage u.pages.pixels d.page } } else u).SignSized := by
      split <;> exact z2
    generalize (if d.clear then
        { u with pages := { u.pages with pixels := clearPage u.pages.pixels d.page } } else u) = v at h3 z3
    split
    · exact h3.trans (v.abortLoad_step d.page _)
    · rename_i m hm
      have h4 := h3.trans (State.applyWrite_keeps hd z3 hm)
      split
      · exact (h4.trans (State.setRecord_step { v with pages := { v.pages with pixels := m } } d.page _)).trans
          (State.completeLoad_step _ d.page)
      · exact h4.trans (State.setRecord_step { v with pages := { v.pages with pixels := m } } d.page _)

theorem State.continueLoad_step {s : State} (hs : s.SignSized) {d : Sdat} (hd : d.write.Valid) (origin : Nat)
    (port : Option PortId) : PagesStep d.page s.pages (s.continueLoad d origin port).pages := by
  unfold State.continueLoad
  dsimp only
  split
  · exact s.refuseSdat_step d origin port _ d.page
  · split
    · exact s.abortLoad_step d.page _
    · split
      · exact PagesStep.of rfl fun _ _ => rfl
      · split
        · exact s.abortLoad_step d.page _
        · rename_i m hm
          have h1 := State.applyWrite_keeps hd hs hm
          have hu : ∀ r, PagesStep d.page s.pages
              (({ s with pages := { s.pages with pixels := m } } : State).setRecord d.page r).pages := fun r =>
            h1.trans (State.setRecord_step { s with pages := { s.pages with pixels := m } } d.page r)
          have last : ∀ v : State, (∃ r, v.pages =
              (({ s with pages := { s.pages with pixels := m } } : State).setRecord d.page r).pages) →
              PagesStep d.page s.pages (if d.last then v.completeLoad d.page else v).pages := by
            rintro v ⟨r, e⟩
            have h := hu r
            rw [← e] at h
            split
            · exact h.trans (State.completeLoad_step _ _)
            · exact h
          split
          · exact (hu _).trans (State.abortLoad_step _ d.page _)
          · by_cases hx : (s.pages.records[d.page]).next < 65535
            · simp only [if_pos hx]; exact last _ ⟨_, rfl⟩
            · simp only [if_neg hx]; exact last _ ⟨_, rfl⟩

/-- An SDAT acts on one page that is not displayed (R147): the pixel store stays sound, and the displayed page keeps its
record and its pixels. -/
theorem State.takeSdat_step {s : State} (hs : s.SignSized) (origin : Nat) (port : Option PortId) (payload : List Byte) :
    ∃ page, s.display.page ≠ some page ∧ PagesStep page s.pages (s.takeSdat origin port payload).pages := by
  have other : ∃ page : Fin 4, s.display.page ≠ some page := by
    cases h : s.display.page with
    | none => exact ⟨0, by simp⟩
    | some p => exact ⟨p + 1, by simp⟩
  obtain ⟨q, hq⟩ := other
  unfold State.takeSdat
  split
  · exact ⟨q, hq, PagesStep.of rfl fun _ _ => rfl⟩
  · split
    · exact ⟨q, hq, PagesStep.of rfl fun _ _ => rfl⟩
    · rename_i d hd
      have hv := parseSdat_valid hd
      split
      · exact ⟨q, hq, s.refuseSdat_step d origin port _ q⟩
      · rename_i hp
        split
        · exact ⟨d.page, hp, State.beginLoad_step hs hv _ _⟩
        · exact ⟨d.page, hp, State.continueLoad_step hs hv _ _⟩

end Sys2Proof.Machine
end

