-- ==== Sys2Proof/Laws/Display.lean ====
section
/-! SUPPORT. The displayed page under the operations that do not select: only a frame end changes it. -/

namespace Sys2Proof.Machine

/-- The page a display shows, kept folded. -/
def Display.Shows (pg : Option (Fin 4)) (d : Part.Content .display) : Prop := d.page = pg

@[simp] theorem item_put_display (s : State) (x : Display) : State.item { s with display := x } .display = x := rfl

@[simp] theorem Display.shows_update {pg : Option (Fin 4)} (t : State) (a : List Claim) (b : Option Claimant)
    (c d : Nat)
    (e f : Bool) (g : Option FrameRun) (h i j k l m : Counter) :
    Display.Shows pg (Display.mk a t.display.page b c d e f g h i j k l m) = Display.Shows pg (t.item .display) := rfl

@[simp] theorem State.claimRequest_shows {pg : Option (Fin 4)} (s : State) (c : Claim) (h : Display.Shows pg
    (s.item .display)) :
    Display.Shows pg ((s.claimRequest c).item .display) := by
  unfold State.claimRequest; (try dsimp only); (repeat' split) <;> first | (simp_all; done) | simp [*]

@[simp] theorem State.ruleClaim_shows {pg : Option (Fin 4)} (s : State) (n : Fin 8) (page : Fin 4)
    (priority lifetime : Nat) (h : Display.Shows pg (s.item .display)) :
    Display.Shows pg ((s.ruleClaim n page priority lifetime).item .display) := by
  unfold State.ruleClaim; (try dsimp only); (repeat' split) <;> first | (simp_all; done) | simp [*]

@[simp] theorem State.withdrawClaim_shows {pg : Option (Fin 4)} (s : State) (who : Claimant) (h : Display.Shows pg
    (s.item .display)) :
    Display.Shows pg ((s.withdrawClaim who).item .display) := by
  unfold State.withdrawClaim; (try dsimp only); (repeat' split) <;> first | (simp_all; done) | simp [*]

@[simp] theorem State.ruleWithdraw_shows {pg : Option (Fin 4)} (s : State) (n : Fin 8) (h : Display.Shows pg
    (s.item .display)) :
    Display.Shows pg ((s.ruleWithdraw n).item .display) := by
  unfold State.ruleWithdraw; (try dsimp only); (repeat' split) <;> first | (simp_all; done) | simp [*]

@[simp] theorem State.alertItem_shows {pg : Option (Fin 4)} (s : State) (origin : Nat) (a : AlertItem)
    (h : Display.Shows pg (s.item .display)) :
    Display.Shows pg ((s.alertItem origin a).item .display) := by
  unfold State.alertItem; (try dsimp only); (repeat' split) <;> first | (simp_all; done) | simp [*]

@[simp] theorem State.takeWalr_shows {pg : Option (Fin 4)} (s : State) (origin : Nat) (payload : List Byte)
    (h : Display.Shows pg (s.item .display)) :
    Display.Shows pg ((s.takeWalr origin payload).item .display) := by
  unfold State.takeWalr; (repeat' split) <;> first
    | exact foldl_item_keeps _ _ _ h fun t b h => by first | (split <;> simp_all; done) | simp_all
    | simp_all

@[simp] theorem State.takeClaim_shows {pg : Option (Fin 4)} (s : State) (origin : Nat) (port : Option PortId)
    (page : Fin 4) (priority lifetime : Nat) (showAt : Option LTime) (h : Display.Shows pg (s.item .display)) :
    Display.Shows pg ((s.takeClaim origin port page priority lifetime showAt).item .display) := by
  unfold State.takeClaim; (try dsimp only); (repeat' split) <;> first | (simp_all; done) | simp [*]

@[simp] theorem State.takeScmd_shows {pg : Option (Fin 4)} (s : State) (origin : Nat) (port : Option PortId)
    (payload : List Byte) (h : Display.Shows pg (s.item .display)) :
    Display.Shows pg ((s.takeScmd origin port payload).item .display) := by
  unfold State.takeScmd; (try dsimp only); (repeat' split) <;> first | (simp_all; done) | simp [*]

@[simp] theorem State.incidentAlert_shows {pg : Option (Fin 4)} (s : State) (h : Display.Shows pg (s.item .display)) :
    Display.Shows pg (s.incidentAlert.item .display) := by
  unfold State.incidentAlert; (try dsimp only); (repeat' split) <;> first | (simp_all; done) | simp [*]

@[simp] theorem State.startEmergencyCall_shows {pg : Option (Fin 4)} (s : State) (ph : PhoneId)
    (h : Display.Shows pg (s.item .display)) :
    Display.Shows pg ((s.startEmergencyCall ph).item .display) := by
  unfold State.startEmergencyCall; split
  · exact h
  · rw [State.attempt_item _ _ _ (by decide)]; exact State.incidentAlert_shows _ (by simp [*])

@[simp] theorem State.hookDepart_shows {pg : Option (Fin 4)} (s : State) (ph : PhoneId) (h : Display.Shows pg
    (s.item .display)) :
    Display.Shows pg ((s.hookDepart ph).item .display) := by
  unfold State.hookDepart; (try dsimp only); (repeat' split) <;> first | (simp_all; done) | simp [*]

@[simp] theorem State.claimForRule_shows {pg : Option (Fin 4)} (s : State) (n : Fin 8) (h : Display.Shows pg
    (s.item .display)) :
    Display.Shows pg ((s.claimForRule n).item .display) := by
  unfold State.claimForRule; (try dsimp only); (repeat' split) <;> first | (simp_all; done) | simp [*]

@[simp] theorem State.withdrawForRule_shows {pg : Option (Fin 4)} (s : State) (n : Fin 8) (h : Display.Shows pg
    (s.item .display)) :
    Display.Shows pg ((s.withdrawForRule n).item .display) := by
  unfold State.withdrawForRule; (try dsimp only); (repeat' split) <;> first | (simp_all; done) | simp [*]

@[simp] theorem State.ruleRaised_shows {pg : Option (Fin 4)} (s : State) (n : Fin 8) (h : Display.Shows pg
    (s.item .display)) :
    Display.Shows pg ((s.ruleRaised n).item .display) := by
  unfold State.ruleRaised; (try dsimp only); (repeat' split) <;> first | (simp_all; done) | simp [*]

@[simp] theorem State.ruleCleared_shows {pg : Option (Fin 4)} (s : State) (n : Fin 8) (h : Display.Shows pg
    (s.item .display)) :
    Display.Shows pg ((s.ruleCleared n).item .display) := by
  unfold State.ruleCleared; (try dsimp only); (repeat' split) <;> first | (simp_all; done) | simp [*]

@[simp] theorem State.evaluate_shows {pg : Option (Fin 4)} (s : State) (n : Fin 8) (raiseC clearC : Bool)
    (h : Display.Shows pg (s.item .display)) :
    Display.Shows pg ((s.evaluate n raiseC clearC).item .display) := by
  unfold State.evaluate; (try dsimp only); (repeat' split) <;> first | (simp_all; done) | simp [*]

@[simp] theorem State.evaluateSource_shows {pg : Option (Fin 4)} (s : State) (src : RuleSource) (v : Int)
    (h : Display.Shows pg (s.item .display)) :
    Display.Shows pg ((s.evaluateSource src v).item .display) := by
  unfold State.evaluateSource; (repeat' split) <;> first
    | exact foldl_item_keeps _ _ _ h fun t b h => by first | (split <;> simp_all; done) | simp_all
    | simp_all

@[simp] theorem State.windowEnd_shows {pg : Option (Fin 4)} (s : State) (ch : PulseId) (h : Display.Shows pg
    (s.item .display)) :
    Display.Shows pg ((s.windowEnd ch).item .display) := by
  unfold State.windowEnd; (try dsimp only); (repeat' split) <;> first | (simp_all; done) | simp [*]

@[simp] theorem State.takeReading_shows {pg : Option (Fin 4)} (s : State) (channel : Byte) (value : BitVec 16)
    (valid : Bool) (h : Display.Shows pg (s.item .display)) :
    Display.Shows pg ((s.takeReading channel value valid).item .display) := by
  unfold State.takeReading; (try dsimp only); (repeat' split) <;> first | (simp_all; done) | simp [*]

@[simp] theorem State.contactForRule_shows {pg : Option (Fin 4)} (i : Fin 6) (s : State) (n : Fin 8)
    (h : Display.Shows pg (s.item .display)) :
    Display.Shows pg ((State.contactForRule i s n).item .display) := by
  unfold State.contactForRule; (try dsimp only); (repeat' split) <;> first | (simp_all; done) | simp [*]

@[simp] theorem State.contactEvent_shows {pg : Option (Fin 4)} (s : State) (i : Fin 6) (h : Display.Shows pg
    (s.item .display)) :
    Display.Shows pg ((s.contactEvent i).item .display) := by
  unfold State.contactEvent; (repeat' split) <;> first
    | exact foldl_item_keeps _ _ _ h fun t b h => by first | (split <;> simp_all; done) | simp_all
    | simp_all

@[simp] theorem State.renew_shows {pg : Option (Fin 4)} (s : State) (n : Fin 8) (h : Display.Shows pg
    (s.item .display)) :
    Display.Shows pg ((s.renew n).item .display) := by
  unfold State.renew; dsimp only; split
  · exact State.claimForRule_shows _ _ (by simp [*])
  · simp [*]

@[simp] theorem State.handSign_shows {pg : Option (Fin 4)} (s : State) (kind : Byte) (payload : List Byte)
    (h : Display.Shows pg (s.item .display)) :
    Display.Shows pg ((s.handSign kind payload).item .display) := by
  unfold State.handSign; (try dsimp only); (repeat' split) <;> first | (simp_all; done) | simp [*]

@[simp] theorem State.sendSignFrame_shows {pg : Option (Fin 4)} (s : State) (kind target zone : Byte)
    (payload : List Byte) (h : Display.Shows pg (s.item .display)) :
    Display.Shows pg ((s.sendSignFrame kind target zone payload).item .display) := by
  unfold State.sendSignFrame; dsimp only; (repeat' split)
  · exact State.handSign_shows _ _ _ (by simp [*])
  · exact State.handSign_shows _ _ _ h
  · simp [*]
  · simp [*]

@[simp] theorem State.lineEvent_shows {pg : Option (Fin 4)} (s : State) (l : LevelLine) (h : Display.Shows pg
    (s.item .display)) :
    Display.Shows pg ((s.lineEvent l).item .display) := by
  unfold State.lineEvent; (try dsimp only); (repeat' split) <;> first | (simp_all; done) | simp [*]

@[simp] theorem State.endWait_shows {pg : Option (Fin 4)} (s : State) (l : LevelLine) (h : Display.Shows pg
    (s.item .display)) :
    Display.Shows pg ((s.endWait l).item .display) := by
  unfold State.endWait; (try dsimp only); (repeat' split) <;> first | (simp_all; done) | simp [*]

@[simp] theorem State.entryReport_shows {pg : Option (Fin 4)} (s : State) (h : Display.Shows pg (s.item .display)) :
    Display.Shows pg (s.entryReport.item .display) := by
  unfold State.entryReport; (repeat' split) <;> first
    | exact foldl_item_keeps _ _ _ h fun t b h => by first | (split <;> simp_all; done) | simp_all
    | simp_all

@[simp] theorem State.endPulseWindow_shows {pg : Option (Fin 4)} (s : State) (ch : PulseId) (h : Display.Shows pg
    (s.item .display)) :
    Display.Shows pg ((s.endPulseWindow ch).item .display) := by
  unfold State.endPulseWindow; (try dsimp only); (repeat' split) <;> first | (simp_all; done) | simp [*]

@[simp] theorem State.toOwner_shows {pg : Option (Fin 4)} (s : State) (p : PortId) (f : Frame)
    (h : Display.Shows pg (s.item .display)) :
    Display.Shows pg ((s.toOwner p f).item .display) := by
  unfold State.toOwner; (try dsimp only); (repeat' split) <;> first | (simp_all; done) | simp [*]

@[simp] theorem State.deliver_shows {pg : Option (Fin 4)} (s : State) (p : PortId) (f : Frame)
    (h : Display.Shows pg (s.item .display)) :
    Display.Shows pg ((s.deliver p f).item .display) := by
  unfold State.deliver; (try dsimp only); (repeat' split) <;> first | (simp_all; done) | simp [*]

@[simp] theorem State.goodFrame_shows {pg : Option (Fin 4)} (s : State) (p : PortId) (f : Frame)
    (h : Display.Shows pg (s.item .display)) :
    Display.Shows pg ((s.goodFrame p f).item .display) := by
  unfold State.goodFrame; (try dsimp only); (repeat' split) <;> first | (simp_all; done) | simp [*]

@[simp] theorem State.takeFrame_shows {pg : Option (Fin 4)} (s : State) (p : PortId) (bytes : List Byte)
    (h : Display.Shows pg (s.item .display)) :
    Display.Shows pg ((s.takeFrame p bytes).item .display) := by
  unfold State.takeFrame; (try dsimp only); (repeat' split) <;> first | (simp_all; done) | simp [*]

@[simp] theorem State.expireClaims_shows {pg : Option (Fin 4)} (s : State) (h : Display.Shows pg (s.item .display)) :
    Display.Shows pg (s.expireClaims.item .display) := by
  unfold State.expireClaims; (try dsimp only); (repeat' split) <;> first | (simp_all; done) | simp [*]

@[simp] theorem State.clearOwed_shows {pg : Option (Fin 4)} (s : State) (h : Display.Shows pg (s.item .display)) :
    Display.Shows pg (s.clearOwed.item .display) := by
  unfold State.clearOwed; (try dsimp only); (repeat' split) <;> first | (simp_all; done) | simp [*]

@[simp] theorem State.tryDisplayReport_shows {pg : Option (Fin 4)} (s : State) (h : Display.Shows pg
    (s.item .display)) :
    Display.Shows pg (s.tryDisplayReport.item .display) := by
  unfold State.tryDisplayReport; (try dsimp only); (repeat' split) <;> first | (simp_all; done) | simp [*]

@[simp] theorem State.frameTimerAnew_shows {pg : Option (Fin 4)} (s : State) (h : Display.Shows pg
    (s.item .display)) :
    Display.Shows pg (s.frameTimerAnew.item .display) := by
  unfold State.frameTimerAnew; (try dsimp only); (repeat' split) <;> first | (simp_all; done) | simp [*]

@[simp] theorem State.startFrames_shows {pg : Option (Fin 4)} (s : State) (h : Display.Shows pg (s.item .display)) :
    Display.Shows pg (s.startFrames.item .display) := by
  unfold State.startFrames; (try dsimp only); (repeat' split) <;> first | (simp_all; done) | simp [*]

@[simp] theorem State.enterRunning_shows {pg : Option (Fin 4)} (s : State) (h : Display.Shows pg (s.item .display)) :
    Display.Shows pg (s.enterRunning.item .display) := by
  have h3 := State.entryReport_shows (pg := pg) (((State.startBeats { s with node := .running }).reportChange [])) (by simp [*])
  unfold State.enterRunning
  rw [State.runToll_item _ (by decide), State.startStatus_item _ (by decide), State.startReports_item _ (by decide)]
  exact State.startFrames_shows _ (by simp [h3])

@[simp] theorem State.enterScanning_shows {pg : Option (Fin 4)} (s : State) (c : Config) (h : Display.Shows pg
    (s.item .display)) :
    Display.Shows pg ((s.enterScanning c).item .display) := by
  unfold State.enterScanning; (try dsimp only); (repeat' split) <;> first | (simp_all; done) | simp [*]

@[simp] theorem State.imageRead_shows {pg : Option (Fin 4)} (s : State) (image : Option (List Byte))
    (h : Display.Shows pg (s.item .display)) :
    Display.Shows pg ((s.imageRead image).item .display) := by
  unfold State.imageRead; (try dsimp only); (repeat' split) <;> first | (simp_all; done) | simp [*]

@[simp] theorem State.generationSettled_shows {pg : Option (Fin 4)} (s : State) (value : Nat) (fault : Bool)
    (h : Display.Shows pg (s.item .display)) :
    Display.Shows pg ((s.generationSettled value fault).item .display) := by
  unfold State.generationSettled; dsimp only; split
  · exact State.enterRunning_shows _ h
  · simp [*]

@[simp] theorem State.genMarkEnd_shows {pg : Option (Fin 4)} (s : State) (h : Display.Shows pg (s.item .display)) :
    Display.Shows pg (s.genMarkEnd.item .display) := by
  unfold State.genMarkEnd; (try dsimp only); (repeat' split) <;> first | (simp_all; done) | simp [*]

@[simp] theorem State.genMarkLimit_shows {pg : Option (Fin 4)} (s : State) (h : Display.Shows pg (s.item .display)) :
    Display.Shows pg (s.genMarkLimit.item .display) := by
  unfold State.genMarkLimit; (try dsimp only); (repeat' split) <;> first | (simp_all; done) | simp [*]

@[simp] theorem State.markEraseEnd_shows {pg : Option (Fin 4)} (s : State) (erased : Bool) (h : Display.Shows pg
    (s.item .display)) :
    Display.Shows pg ((s.markEraseEnd erased).item .display) := by
  unfold State.markEraseEnd; (try dsimp only); (repeat' split) <;> first | (simp_all; done) | simp [*]


theorem dispatch_shows {pg : Option (Fin 4)} (s : State) (ok used : Bool) (owner refusal : State → State)
    (h : Display.Shows pg (s.item .display)) (ho : ∀ t, Display.Shows pg (t.item .display) → Display.Shows pg ((owner t).item .display))
    (hr : ∀ t, Display.Shows pg (t.item .display) → Display.Shows pg ((refusal t).item .display)) :
    Display.Shows pg ((s.dispatch ok used owner refusal).item .display) := by
  unfold State.dispatch; (repeat' split) <;> simp_all

end Sys2Proof.Machine
end

