-- ==== Sys2Proof/Laws/Signs.lean ====
section
/-! SUPPORT. The sign blocks: the configured size, what a command may do to the pages, and what a frame end shows. -/

namespace Sys2Proof.Machine

theorem clamp_le {lo hi : Nat} (h : lo ≤ hi) (n : Nat) : clamp lo hi n ≤ hi := by unfold clamp; omega

theorem signWidthOf_le (w : Nat) : signWidthOf w ≤ 256 := by
  unfold signWidthOf; split
  · omega
  · have := clamp_le (lo := 32) (hi := 256) (by omega) w; omega

theorem parseImage_sized {img : List Byte} {c : Config} (h : parseImage img = some c) :
    c.signWidth ≤ 256 ∧ c.signHeight ≤ 64 := by
  unfold parseImage at h
  dsimp only at h
  (repeat' split at h) <;> try cases h
  simp only [Option.map_eq_some_iff] at h
  obtain ⟨r, _, rfl⟩ := h
  refine ⟨?_, ?_⟩ <;> simp only [configOf, imageNat]
  · cases imageField img (field img 0 2) 201 2 with
    | none => simp
    | some w => exact signWidthOf_le w
  · cases imageField img (field img 0 2) 203 1 with
    | none => simp
    | some w => exact clamp_le (by omega) w

/-- What a command other than a start may do to the pages: one page that is not displayed, and in it a sound change. -/
def PagesMove (s t : State) : Prop := ∃ page, s.display.page ≠ some page ∧ PagesStep page s.pages t.pages

theorem PagesMove.same {s t : State} (h : t.item .pages = s.item .pages) : PagesMove s t := by
  have h : t.pages = s.pages := h
  have other : ∃ page : Fin 4, s.display.page ≠ some page := by
    cases h : s.display.page with
    | none => exact ⟨0, by simp⟩
    | some p => exact ⟨p + 1, by simp⟩
  obtain ⟨q, hq⟩ := other
  exact ⟨q, hq, h ▸ PagesStep.refl _ _⟩

/-- Operations before and after that leave pages and display. -/
theorem PagesMove.between {s s' t t' : State} (h : PagesMove s' t') (h1 : s'.item .pages = s.item .pages)
    (h2 : s'.item .display = s.item .display) (h3 : t.item .pages = t'.item .pages) : PagesMove s t := by
  have h1 : s'.pages = s.pages := h1
  have h2 : s'.display = s.display := h2
  have h3 : t.pages = t'.pages := h3
  obtain ⟨p, a, b⟩ := h
  exact ⟨p, h2 ▸ a, by rw [h3, ← h1]; exact b⟩

theorem State.SignSized.items {s t : State} (h : s.SignSized) (hc : t.item .cfg = s.item .cfg) : t.SignSized := by
  have hc : t.cfg = s.cfg := hc
  unfold State.SignSized at *; rw [hc]; exact h

theorem State.deliver_move {s : State} (hs : s.SignSized) (p : PortId) (f : Frame) : PagesMove s (s.deliver p f) := by
  unfold State.deliver
  split
  · unfold State.toOwner
    split <;> first
      | exact State.takeSdat_step hs _ _ _
      | (refine PagesMove.same ?_; (repeat' split) <;> simp)
  · refine PagesMove.same ?_; split <;> simp
  · refine PagesMove.same ?_; split <;> simp
  · exact PagesMove.same rfl
  · exact PagesMove.same rfl

theorem State.takeFrame_move {s : State} (hs : s.SignSized) (p : PortId) (b : List Byte) :
    PagesMove s (s.takeFrame p b) := by
  unfold State.takeFrame
  split
  · exact PagesMove.same rfl
  · split
    · exact PagesMove.same (by simp)
    · exact PagesMove.same (by simp)
    · rename_i f _
      unfold State.goodFrame
      split
      · exact PagesMove.same (by simp)
      · dsimp only
        split
        · refine PagesMove.between (State.deliver_move (hs.items ?_) p f) ?_ ?_ rfl <;> split <;> simp
        · refine PagesMove.same ?_; split <;> simp

theorem State.handSign_move {s : State} (hs : s.SignSized) (kind : Byte) (payload : List Byte) :
    PagesMove s (s.handSign kind payload) := by
  unfold State.handSign
  (repeat' split) <;> first
    | exact State.takeSdat_step hs _ _ _
    | exact PagesMove.same (by simp)

theorem State.sendSignFrame_move {s : State} (hs : s.SignSized) (kind target zone : Byte) (payload : List Byte) :
    PagesMove s (s.sendSignFrame kind target zone payload) := by
  unfold State.sendSignFrame
  dsimp only
  (repeat' split)
  · exact (State.handSign_move (s := (s.offerSign .east _).offerSign .west _) (hs.items (by simp)) kind payload).between
      (by simp) (by simp) rfl
  · exact State.handSign_move hs kind payload
  · exact PagesMove.same (by simp)
  · exact PagesMove.same (by simp)

theorem State.dispatch_move (s : State) (ok used : Bool) (owner refusal : State → State)
    (ho : PagesMove s (owner s)) (hr : ∀ t, (refusal t).item .pages = t.item .pages) :
    PagesMove s (s.dispatch ok used owner refusal) := by
  unfold State.dispatch
  (repeat' split) <;> first | exact ho | exact PagesMove.same (by simp [hr])

/-- What is selected is READY (R171). -/
theorem State.selected_ready {s : State} {c : Claim} (h : s.selected = some c) :
    (s.pages.records[c.page]).state = .ready := by
  unfold State.selected at h
  have := List.find?_some h
  simp [State.qualifies] at this
  exact this.1

/-- A frame end shows the page of the claim selected after expired claims have left (R170, R171). -/
theorem State.endFrame_shows (s : State) :
    Display.Shows (s.expireClaims.selected.map (·.page)) (s.endFrame.item .display) :=
  State.frameTimerAnew_shows _ (State.tryDisplayReport_shows _ rfl)

/-- A frame end shows a READY page or none (R147, R171). -/
theorem State.endFrame_ready (s : State) : s.endFrame.ShownReady := by
  intro p hp
  have hpg : s.endFrame.pages = s.expireClaims.pages := s.endFrame_item (part := .pages) (by decide)
  have hsh : s.endFrame.display.page = s.expireClaims.selected.map (·.page) := s.endFrame_shows
  rw [hp] at hsh
  obtain ⟨c, hc, rfl⟩ := Option.map_eq_some_iff.1 hsh.symm
  rw [hpg]
  exact State.selected_ready hc

end Sys2Proof.Machine
end

