-- ==== Sys2Proof/Laws/Claims.lean ====
section
/-! SUPPORT. The claim list (R160 to R162) under every operation that reaches it. -/

namespace Sys2Proof.Machine

/-- What R160 and R161 say of a claim list. -/
def ClaimsSound (l : List Claim) : Prop :=
  l.length ≤ 8 ∧ (l.Pairwise fun a b => b.priority ≤ a.priority) ∧ (l.map fun c => c.claimant).Nodup

theorem mem_placeClaim {c x : Claim} {l : List Claim} (h : x ∈ placeClaim c l) : x = c ∨ x ∈ l := by
  induction l with
  | nil => simpa [placeClaim] using h
  | cons a l ih =>
    simp only [placeClaim] at h
    split at h <;> simp only [List.mem_cons] at h ⊢
    · tauto
    · rcases h with h | h
      · tauto
      · rcases ih h with h | h <;> tauto

theorem placeClaim_perm (c : Claim) (l : List Claim) : (placeClaim c l).Perm (c :: l) := by
  induction l with
  | nil => exact List.Perm.refl _
  | cons a l ih =>
    simp only [placeClaim]
    split
    · exact List.Perm.refl _
    · exact (ih.cons a).trans (List.Perm.swap c a l)

theorem placeClaim_sorted {c : Claim} {l : List Claim} (h : l.Pairwise fun a b => b.priority ≤ a.priority) :
    (placeClaim c l).Pairwise fun a b => b.priority ≤ a.priority := by
  induction l with
  | nil => simp [placeClaim]
  | cons a l ih =>
    obtain ⟨h1, h2⟩ := List.pairwise_cons.1 h
    simp only [placeClaim]
    split
    · rename_i hp
      refine List.pairwise_cons.2 ⟨fun x hx => ?_, h⟩
      rcases List.mem_cons.1 hx with hx | hx
      · rw [hx]; exact hp
      · exact Nat.le_trans (h1 x hx) hp
    · refine List.pairwise_cons.2 ⟨fun x hx => ?_, ih h2⟩
      rcases mem_placeClaim hx with hx | hx
      · rw [hx]; omega
      · exact h1 x hx

theorem ClaimsSound.filter {l : List Claim} (h : ClaimsSound l) (f : Claim → Bool) : ClaimsSound (l.filter f) :=
  ⟨Nat.le_trans (List.length_filter_le _ _) h.1, h.2.1.filter _,
    (List.Sublist.map _ List.filter_sublist).nodup h.2.2⟩

/-- A new claim of a claimant that holds none, where there is room. -/
theorem ClaimsSound.place {l : List Claim} (h : ClaimsSound l) {c : Claim} (hl : l.length < 8)
    (hc : ∀ x ∈ l, x.claimant ≠ c.claimant) : ClaimsSound (placeClaim c l) := by
  have hp := placeClaim_perm c l
  refine ⟨by rw [hp.length_eq]; simpa using hl, placeClaim_sorted h.2.1, ?_⟩
  rw [(hp.map _).nodup_iff]
  refine List.nodup_cons.2 ⟨?_, h.2.2⟩
  intro hm
  obtain ⟨x, hx, e⟩ := List.mem_map.1 hm
  exact hc x hx e

theorem claimOf_none {who : Claimant} {l : List Claim} (h : claimOf who l = none) : ∀ x ∈ l, x.claimant ≠ who := by
  intro x hx e
  have := List.find?_eq_none.1 h x hx
  simp [e] at this

theorem dropClaimant_length {l : List Claim} {who : Claimant} {old : Claim} (h : claimOf who l = some old) :
    (dropClaimant who l).length < l.length := by
  have hm := List.mem_of_find?_eq_some h
  have hw := List.find?_some h
  unfold dropClaimant
  refine List.length_filter_lt_length_iff_exists.2 ⟨old, hm, by simpa using hw⟩

/-- A claim request keeps the list sound (R161, R162). -/
theorem ClaimsSound.request {l : List Claim} (h : ClaimsSound l) (c : Claim) : ClaimsSound (requestClaim c l).1 := by
  unfold requestClaim
  split
  · rename_i old ho
    split
    · refine ⟨by simpa using h.1, ?_, ?_⟩
      · refine List.pairwise_map.2 (h.2.1.imp fun hab => ?_)
        split <;> split <;> exact hab
      · have : (fun x : Claim => x.claimant) ∘ (fun x => if x.claimant = c.claimant then { x with expiry := c.expiry } else x)
            = fun x => x.claimant := by funext x; simp only [Function.comp]; split <;> rfl
        rw [List.map_map, this]; exact h.2.2
    · refine (h.filter _).place (Nat.lt_of_lt_of_le (dropClaimant_length ho) h.1) fun x hx => ?_
      have := (List.mem_filter.1 hx).2
      simpa using this
  · rename_i ho
    split
    · exact h.place (by assumption) (claimOf_none ho)
    · split
      · rename_i last hl
        split
        · have hs : ClaimsSound l.dropLast :=
            ⟨by have := h.1; simp; omega, h.2.1.sublist (List.dropLast_sublist l),
              ((List.dropLast_sublist l).map _).nodup h.2.2⟩
          refine hs.place ?_ fun x hx => claimOf_none ho x (List.dropLast_subset l hx)
          have := h.1
          have : l ≠ [] := by intro e; simp [e] at hl
          have := List.length_pos_iff.2 this
          simp; omega
        · exact h
      · exact h

@[simp] theorem Display.listSound_mk (x : List Claim) (a : Option (Fin 4)) (b : Option Claimant) (c d : Nat)
    (e f : Bool) (g : Option FrameRun) (h i j k l m : Counter) :
    Display.ListSound (Display.mk x a b c d e f g h i j k l m) = ClaimsSound x := rfl

@[simp] theorem claimsSound_fold (t : State) : ClaimsSound t.display.claims = Display.ListSound
    (t.item .display) := rfl

@[simp] theorem claimsSound_nil : ClaimsSound [] := by simp [ClaimsSound]

@[simp] theorem State.claimRequest_claims (s : State) (c : Claim) (h : Display.ListSound (s.item .display)) :
    Display.ListSound ((s.claimRequest c).item .display) := by
  have h1 := ClaimsSound.request h c
  unfold State.claimRequest; dsimp only; (repeat' split) <;> first
    | exact h1
    | (rw [State.claimReport_item _ _ _ _ _ _ _ _ (by decide)]; exact h1)

@[simp] theorem State.ruleClaim_claims (s : State) (n : Fin 8) (page : Fin 4) (priority lifetime : Nat)
    (h : Display.ListSound (s.item .display)) :
    Display.ListSound ((s.ruleClaim n page priority lifetime).item .display) := by
  unfold State.ruleClaim; (try dsimp only); (repeat' split) <;> first | (simp_all; done) | simp [*]

@[simp] theorem State.withdrawClaim_claims (s : State) (who : Claimant) (h : Display.ListSound (s.item .display)) :
    Display.ListSound ((s.withdrawClaim who).item .display) := by
  exact ClaimsSound.filter h _

@[simp] theorem State.ruleWithdraw_claims (s : State) (n : Fin 8) (h : Display.ListSound (s.item .display)) :
    Display.ListSound ((s.ruleWithdraw n).item .display) := by
  unfold State.ruleWithdraw; (try dsimp only); (repeat' split) <;> first | (simp_all; done) | simp [*]

@[simp] theorem State.alertItem_claims (s : State) (origin : Nat) (a : AlertItem) (h : Display.ListSound
    (s.item .display)) :
    Display.ListSound ((s.alertItem origin a).item .display) := by
  unfold State.alertItem; (try dsimp only); (repeat' split) <;> first | (simp_all; done) | simp [*]

@[simp] theorem State.takeWalr_claims (s : State) (origin : Nat) (payload : List Byte) (h : Display.ListSound
    (s.item .display)) :
    Display.ListSound ((s.takeWalr origin payload).item .display) := by
  unfold State.takeWalr; (repeat' split) <;> first
    | exact foldl_item_keeps _ _ _ h fun t b h => by first | (split <;> simp_all; done) | simp_all
    | simp_all

@[simp] theorem State.takeClaim_claims (s : State) (origin : Nat) (port : Option PortId) (page : Fin 4)
    (priority lifetime : Nat) (showAt : Option LTime) (h : Display.ListSound (s.item .display)) :
    Display.ListSound ((s.takeClaim origin port page priority lifetime showAt).item .display) := by
  unfold State.takeClaim; (try dsimp only); (repeat' split) <;> first | (simp_all; done) | simp [*]

@[simp] theorem State.takeScmd_claims (s : State) (origin : Nat) (port : Option PortId) (payload : List Byte)
    (h : Display.ListSound (s.item .display)) :
    Display.ListSound ((s.takeScmd origin port payload).item .display) := by
  unfold State.takeScmd; (try dsimp only); (repeat' split) <;> first | (simp_all; done) | simp [*]

@[simp] theorem State.incidentAlert_claims (s : State) (h : Display.ListSound (s.item .display)) :
    Display.ListSound (s.incidentAlert.item .display) := by
  unfold State.incidentAlert; (try dsimp only); (repeat' split) <;> first | (simp_all; done) | simp [*]

@[simp] theorem State.startEmergencyCall_claims (s : State) (ph : PhoneId) (h : Display.ListSound (s.item .display)) :
    Display.ListSound ((s.startEmergencyCall ph).item .display) := by
  unfold State.startEmergencyCall; split
  · exact h
  · rw [State.attempt_item _ _ _ (by decide)]; exact State.incidentAlert_claims _ (by simp [*])

@[simp] theorem State.hookDepart_claims (s : State) (ph : PhoneId) (h : Display.ListSound (s.item .display)) :
    Display.ListSound ((s.hookDepart ph).item .display) := by
  unfold State.hookDepart; (try dsimp only); (repeat' split) <;> first | (simp_all; done) | simp [*]

@[simp] theorem State.claimForRule_claims (s : State) (n : Fin 8) (h : Display.ListSound (s.item .display)) :
    Display.ListSound ((s.claimForRule n).item .display) := by
  unfold State.claimForRule; (try dsimp only); (repeat' split) <;> first | (simp_all; done) | simp [*]

@[simp] theorem State.withdrawForRule_claims (s : State) (n : Fin 8) (h : Display.ListSound (s.item .display)) :
    Display.ListSound ((s.withdrawForRule n).item .display) := by
  unfold State.withdrawForRule; (try dsimp only); (repeat' split) <;> first | (simp_all; done) | simp [*]

@[simp] theorem State.ruleRaised_claims (s : State) (n : Fin 8) (h : Display.ListSound (s.item .display)) :
    Display.ListSound ((s.ruleRaised n).item .display) := by
  unfold State.ruleRaised; (try dsimp only); (repeat' split) <;> first | (simp_all; done) | simp [*]

@[simp] theorem State.ruleCleared_claims (s : State) (n : Fin 8) (h : Display.ListSound (s.item .display)) :
    Display.ListSound ((s.ruleCleared n).item .display) := by
  unfold State.ruleCleared; (try dsimp only); (repeat' split) <;> first | (simp_all; done) | simp [*]

@[simp] theorem State.evaluate_claims (s : State) (n : Fin 8) (raiseC clearC : Bool) (h : Display.ListSound
    (s.item .display)) :
    Display.ListSound ((s.evaluate n raiseC clearC).item .display) := by
  unfold State.evaluate; (try dsimp only); (repeat' split) <;> first | (simp_all; done) | simp [*]

@[simp] theorem State.evaluateSource_claims (s : State) (src : RuleSource) (v : Int) (h : Display.ListSound
    (s.item .display)) :
    Display.ListSound ((s.evaluateSource src v).item .display) := by
  unfold State.evaluateSource; (repeat' split) <;> first
    | exact foldl_item_keeps _ _ _ h fun t b h => by first | (split <;> simp_all; done) | simp_all
    | simp_all

@[simp] theorem State.windowEnd_claims (s : State) (ch : PulseId) (h : Display.ListSound (s.item .display)) :
    Display.ListSound ((s.windowEnd ch).item .display) := by
  unfold State.windowEnd; (try dsimp only); (repeat' split) <;> first | (simp_all; done) | simp [*]

@[simp] theorem State.takeReading_claims (s : State) (channel : Byte) (value : BitVec 16) (valid : Bool)
    (h : Display.ListSound (s.item .display)) :
    Display.ListSound ((s.takeReading channel value valid).item .display) := by
  unfold State.takeReading; (try dsimp only); (repeat' split) <;> first | (simp_all; done) | simp [*]

@[simp] theorem State.contactForRule_claims (i : Fin 6) (s : State) (n : Fin 8) (h : Display.ListSound
    (s.item .display)) :
    Display.ListSound ((State.contactForRule i s n).item .display) := by
  unfold State.contactForRule; (try dsimp only); (repeat' split) <;> first | (simp_all; done) | simp [*]

@[simp] theorem State.contactEvent_claims (s : State) (i : Fin 6) (h : Display.ListSound (s.item .display)) :
    Display.ListSound ((s.contactEvent i).item .display) := by
  unfold State.contactEvent; (repeat' split) <;> first
    | exact foldl_item_keeps _ _ _ h fun t b h => by first | (split <;> simp_all; done) | simp_all
    | simp_all

@[simp] theorem State.renew_claims (s : State) (n : Fin 8) (h : Display.ListSound (s.item .display)) :
    Display.ListSound ((s.renew n).item .display) := by
  unfold State.renew; dsimp only; split
  · exact State.claimForRule_claims _ _ (by simp [*])
  · simp [*]

@[simp] theorem State.handSign_claims (s : State) (kind : Byte) (payload : List Byte) (h : Display.ListSound
    (s.item .display)) :
    Display.ListSound ((s.handSign kind payload).item .display) := by
  unfold State.handSign; (try dsimp only); (repeat' split) <;> first | (simp_all; done) | simp [*]

@[simp] theorem State.sendSignFrame_claims (s : State) (kind target zone : Byte) (payload : List Byte)
    (h : Display.ListSound (s.item .display)) :
    Display.ListSound ((s.sendSignFrame kind target zone payload).item .display) := by
  unfold State.sendSignFrame; dsimp only; (repeat' split)
  · exact State.handSign_claims _ _ _ (by simp [*])
  · exact State.handSign_claims _ _ _ h
  · simp [*]
  · simp [*]

@[simp] theorem State.lineEvent_claims (s : State) (l : LevelLine) (h : Display.ListSound (s.item .display)) :
    Display.ListSound ((s.lineEvent l).item .display) := by
  unfold State.lineEvent; (try dsimp only); (repeat' split) <;> first | (simp_all; done) | simp [*]

@[simp] theorem State.endWait_claims (s : State) (l : LevelLine) (h : Display.ListSound (s.item .display)) :
    Display.ListSound ((s.endWait l).item .display) := by
  unfold State.endWait; (try dsimp only); (repeat' split) <;> first | (simp_all; done) | simp [*]

@[simp] theorem State.entryReport_claims (s : State) (h : Display.ListSound (s.item .display)) :
    Display.ListSound (s.entryReport.item .display) := by
  unfold State.entryReport; (repeat' split) <;> first
    | exact foldl_item_keeps _ _ _ h fun t b h => by first | (split <;> simp_all; done) | simp_all
    | simp_all

@[simp] theorem State.endPulseWindow_claims (s : State) (ch : PulseId) (h : Display.ListSound (s.item .display)) :
    Display.ListSound ((s.endPulseWindow ch).item .display) := by
  unfold State.endPulseWindow; (try dsimp only); (repeat' split) <;> first | (simp_all; done) | simp [*]

@[simp] theorem State.toOwner_claims (s : State) (p : PortId) (f : Frame) (h : Display.ListSound (s.item .display)) :
    Display.ListSound ((s.toOwner p f).item .display) := by
  unfold State.toOwner; (try dsimp only); (repeat' split) <;> first | (simp_all; done) | simp [*]

@[simp] theorem State.deliver_claims (s : State) (p : PortId) (f : Frame) (h : Display.ListSound (s.item .display)) :
    Display.ListSound ((s.deliver p f).item .display) := by
  unfold State.deliver; (try dsimp only); (repeat' split) <;> first | (simp_all; done) | simp [*]

@[simp] theorem State.goodFrame_claims (s : State) (p : PortId) (f : Frame) (h : Display.ListSound
    (s.item .display)) :
    Display.ListSound ((s.goodFrame p f).item .display) := by
  unfold State.goodFrame; (try dsimp only); (repeat' split) <;> first | (simp_all; done) | simp [*]

@[simp] theorem State.takeFrame_claims (s : State) (p : PortId) (bytes : List Byte) (h : Display.ListSound
    (s.item .display)) :
    Display.ListSound ((s.takeFrame p bytes).item .display) := by
  unfold State.takeFrame; (try dsimp only); (repeat' split) <;> first | (simp_all; done) | simp [*]

@[simp] theorem State.expireClaims_claims (s : State) (h : Display.ListSound (s.item .display)) :
    Display.ListSound (s.expireClaims.item .display) := by
  exact ClaimsSound.filter h _

@[simp] theorem State.applySelection_claims (s : State) (h : Display.ListSound (s.item .display)) :
    Display.ListSound (s.applySelection.item .display) := by
  unfold State.applySelection; (try dsimp only); (repeat' split) <;> first | (simp_all; done) | simp [*]

@[simp] theorem State.clearOwed_claims (s : State) (h : Display.ListSound (s.item .display)) :
    Display.ListSound (s.clearOwed.item .display) := by
  unfold State.clearOwed; (try dsimp only); (repeat' split) <;> first | (simp_all; done) | simp [*]

@[simp] theorem State.tryDisplayReport_claims (s : State) (h : Display.ListSound (s.item .display)) :
    Display.ListSound (s.tryDisplayReport.item .display) := by
  unfold State.tryDisplayReport; (try dsimp only); (repeat' split) <;> first | (simp_all; done) | simp [*]

@[simp] theorem State.frameTimerAnew_claims (s : State) (h : Display.ListSound (s.item .display)) :
    Display.ListSound (s.frameTimerAnew.item .display) := by
  unfold State.frameTimerAnew; (try dsimp only); (repeat' split) <;> first | (simp_all; done) | simp [*]

@[simp] theorem State.endFrame_claims (s : State) (h : Display.ListSound (s.item .display)) :
    Display.ListSound (s.endFrame.item .display) := by
  exact State.frameTimerAnew_claims _ (State.tryDisplayReport_claims _ (by simp [*]))

@[simp] theorem State.startFrames_claims (s : State) (h : Display.ListSound (s.item .display)) :
    Display.ListSound (s.startFrames.item .display) := by
  unfold State.startFrames; (try dsimp only); (repeat' split) <;> first | (simp_all; done) | simp [*]

@[simp] theorem State.enterRunning_claims (s : State) (h : Display.ListSound (s.item .display)) :
    Display.ListSound (s.enterRunning.item .display) := by
  have h3 := State.entryReport_claims (((State.startBeats { s with node := .running }).reportChange [])) (by simp [*])
  unfold State.enterRunning
  rw [State.runToll_item _ (by decide), State.startStatus_item _ (by decide), State.startReports_item _ (by decide)]
  exact State.startFrames_claims _ (by simp [h3])

@[simp] theorem State.enterScanning_claims (s : State) (c : Config) (h : Display.ListSound (s.item .display)) :
    Display.ListSound ((s.enterScanning c).item .display) := by
  unfold State.enterScanning; (try dsimp only); (repeat' split) <;> first | (simp_all; done) | simp [*]

@[simp] theorem State.imageRead_claims (s : State) (image : Option (List Byte)) (h : Display.ListSound
    (s.item .display)) :
    Display.ListSound ((s.imageRead image).item .display) := by
  unfold State.imageRead; (try dsimp only); (repeat' split) <;> first | (simp_all; done) | simp [*]

@[simp] theorem State.generationSettled_claims (s : State) (value : Nat) (fault : Bool) (h : Display.ListSound
    (s.item .display)) :
    Display.ListSound ((s.generationSettled value fault).item .display) := by
  unfold State.generationSettled; dsimp only; split
  · exact State.enterRunning_claims _ h
  · simp [*]

@[simp] theorem State.genMarkEnd_claims (s : State) (h : Display.ListSound (s.item .display)) :
    Display.ListSound (s.genMarkEnd.item .display) := by
  unfold State.genMarkEnd; (try dsimp only); (repeat' split) <;> first | (simp_all; done) | simp [*]

@[simp] theorem State.genMarkLimit_claims (s : State) (h : Display.ListSound (s.item .display)) :
    Display.ListSound (s.genMarkLimit.item .display) := by
  unfold State.genMarkLimit; (try dsimp only); (repeat' split) <;> first | (simp_all; done) | simp [*]

@[simp] theorem State.markEraseEnd_claims (s : State) (erased : Bool) (h : Display.ListSound (s.item .display)) :
    Display.ListSound ((s.markEraseEnd erased).item .display) := by
  unfold State.markEraseEnd; (try dsimp only); (repeat' split) <;> first | (simp_all; done) | simp [*]

theorem dispatch_claims (s : State) (ok used : Bool) (owner refusal : State → State)
    (h : Display.ListSound (s.item .display))
    (ho : ∀ t, Display.ListSound (t.item .display) → Display.ListSound ((owner t).item .display))
    (hr : ∀ t, Display.ListSound (t.item .display) → Display.ListSound ((refusal t).item .display)) :
    Display.ListSound ((s.dispatch ok used owner refusal).item .display) := by
  unfold State.dispatch; (repeat' split) <;> simp_all

end Sys2Proof.Machine
end

