-- ==== Sys2Proof/Laws/Reach.lean ====
section
/-! SUPPORT. The parts of the Reach View (R30 to R32) under every operation that changes them. -/

namespace Sys2Proof.Machine

theorem mem_insertEntry {e x : ReachEntry} {l : List ReachEntry} (h : x ∈ insertEntry e l) : x = e ∨ x ∈ l := by
  induction l with
  | nil => simpa [insertEntry] using h
  | cons a l ih =>
    simp only [insertEntry] at h
    split at h <;> simp only [List.mem_cons] at h ⊢
    · tauto
    · rcases h with h | h
      · tauto
      · rcases ih h with h | h <;> tauto

theorem insertEntry_perm (e : ReachEntry) (l : List ReachEntry) : (insertEntry e l).Perm (e :: l) := by
  induction l with
  | nil => exact List.Perm.refl _
  | cons a l ih =>
    simp only [insertEntry]
    split
    · exact List.Perm.refl _
    · exact (ih.cons a).trans (List.Perm.swap e a l)

theorem ReachEntry.nearer_trans {a b c : ReachEntry} (h : a.nearer b = true) (k : b.nearer c = true) :
    a.nearer c = true := by
  simp [ReachEntry.nearer] at *; omega

theorem ReachEntry.nearer_of_not {a b : ReachEntry} (h : ¬a.nearer b = true) (hn : a.node ≠ b.node) :
    b.nearer a = true := by
  simp [ReachEntry.nearer] at *; omega

/-- An entry of a node not in the part is put at its place. -/
theorem PartSound.insert {l : List ReachEntry} (h : PartSound l) {e : ReachEntry} (hl : l.length < 16)
    (hn : ∀ x ∈ l, x.node ≠ e.node) : PartSound (insertEntry e l) := by
  have hp := insertEntry_perm e l
  refine ⟨by rw [hp.length_eq]; simpa using hl, ?_, ?_⟩
  · have h2 := h.2.1
    clear hp hl h
    induction l with
    | nil => simp [insertEntry]
    | cons a l ih =>
      obtain ⟨k1, k2⟩ := List.pairwise_cons.1 h2
      simp only [insertEntry]
      split
      · rename_i hea
        refine List.pairwise_cons.2 ⟨fun x hx => ?_, h2⟩
        rcases List.mem_cons.1 hx with hx | hx
        · rw [hx]; exact hea
        · exact ReachEntry.nearer_trans hea (k1 x hx)
      · rename_i hea
        refine List.pairwise_cons.2 ⟨fun x hx => ?_, ih (fun x hx => hn x (List.mem_cons_of_mem _ hx)) k2⟩
        rcases mem_insertEntry hx with hx | hx
        · rw [hx]; exact ReachEntry.nearer_of_not hea (hn a (List.mem_cons_self ..)).symm
        · exact k1 x hx
  · rw [(hp.map _).nodup_iff]
    refine List.nodup_cons.2 ⟨fun hm => ?_, h.2.2⟩
    obtain ⟨x, hx, ex⟩ := List.mem_map.1 hm
    exact hn x hx ex

theorem PartSound.filter {l : List ReachEntry} (h : PartSound l) (f : ReachEntry → Bool) : PartSound (l.filter f) :=
  ⟨Nat.le_trans (List.length_filter_le _ _) h.1, h.2.1.filter _, (List.Sublist.map _ List.filter_sublist).nodup h.2.2⟩

theorem PartSound.nil : PartSound [] := by simp [PartSound]

theorem removeNode_length {l : List ReachEntry} {n : Nat} {x : ReachEntry} (hx : x ∈ l) (hn : x.node = n) :
    (removeNode n l).length < l.length :=
  List.length_filter_lt_length_iff_exists.2 ⟨x, hx, by simp [hn]⟩

/-- A BEAT keeps its part sound (R31, R32). -/
theorem PartSound.takeEntry {l : List ReachEntry} (h : PartSound l) (e : ReachEntry) : PartSound
    (takeEntry e l).1 := by
  unfold Machine.takeEntry
  have fresh : ∀ n, ∀ x ∈ removeNode n l, x.node ≠ n := fun n x hx => by
    have := (List.mem_filter.1 hx).2; simpa using this
  split
  · rename_i old ho
    have hm := List.mem_of_find?_eq_some ho
    have hw := List.find?_some ho
    exact (h.filter _).insert (Nat.lt_of_lt_of_le (removeNode_length hm (by simpa using hw)) h.1) (fresh _)
  · rename_i ho
    have hne : ∀ x ∈ l, x.node ≠ e.node := fun x hx => by
      have := List.find?_eq_none.1 ho x hx; simpa using this
    split
    · exact h.insert (by assumption) hne
    · split
      · exact h
      · rename_i v hv
        have hm : v ∈ l := (List.mem_filter.1 (List.mem_of_getLast? hv)).1
        split
        · exact (h.filter _).insert (Nat.lt_of_lt_of_le (removeNode_length hm rfl) h.1) fun x hx =>
            hne x (List.mem_filter.1 hx).1
        · exact h

@[simp] theorem item_put_reach (s : State) (x : ReachView) : State.item { s with reach := x } .reach = x := rfl

@[simp] theorem ReachView.sound_mk (a b : List ReachEntry) (c : Route) (d : Timer) (e : Counter) :
    ReachView.Sound (ReachView.mk a b c d e) = (PartSound a ∧ PartSound b) := rfl

theorem ReachView.Sound.setPart {r : ReachView} (h : r.Sound) (p : PortId) {l : List ReachEntry} (hl : PartSound l) :
    (r.setPart p l).Sound := by cases p; exacts [⟨hl, h.2⟩, ⟨h.1, hl⟩]

theorem ReachView.Sound.part {r : ReachView} (h : r.Sound) (p : PortId) : PartSound (r.part p) := by
  cases p; exacts [h.1, h.2]

@[simp] theorem State.startBeats_reachSound (s : State) (h : ReachView.Sound (s.item .reach)) :
    ReachView.Sound (s.startBeats.item .reach) := by
  have h0 : s.reach.Sound := h
  have hh : (((s.offerBeat .east).offerBeat .west).item .reach) = s.item .reach := by simp
  have hh : ((s.offerBeat .east).offerBeat .west).reach = s.reach := hh
  unfold State.startBeats; dsimp only; rw [item_put_reach, ReachView.sound_mk, hh]; exact h0

@[simp] theorem State.reportChoice_reachSound (s : State) (h : ReachView.Sound (s.item .reach)) :
    ReachView.Sound (s.reportChoice.item .reach) := by
  have h0 : s.reach.Sound := h
  unfold State.reportChoice; dsimp only; split
  · exact h
  · rw [State.callsChoice_item _ _ (by decide), State.steerTo_item _ _ (by decide)]; exact h0

@[simp] theorem State.reportChange_reachSound (s : State) (lost : List Nat) (h : ReachView.Sound (s.item .reach)) :
    ReachView.Sound ((s.reportChange lost).item .reach) := by
  unfold State.reportChange; split
  · refine State.reportChoice_reachSound _ ?_
    rw [foldl_item _ _ _ fun t b => State.callsLoss_item t b (by decide)]; exact h
  · exact h

@[simp] theorem State.takeEntry_reachSound (s : State) (p : PortId) (b : Beat) (n : Nat) (h : ReachView.Sound
    (s.item .reach)) :
    ReachView.Sound ((s.takeEntry p b n).item .reach) := by
  have h0 : s.reach.Sound := h
  have h1 := h0.setPart p ((h0.part p).takeEntry (entryOf b n s.refTime))
  unfold State.takeEntry; dsimp only; split
  · exact State.reportChange_reachSound _ _ h1
  · exact h1

@[simp] theorem State.takeBeat_reachSound (s : State) (p : PortId) (f : Frame) (h : ReachView.Sound (s.item .reach)) :
    ReachView.Sound ((s.takeBeat p f).item .reach) := by
  have h0 : s.reach.Sound := h
  unfold State.takeBeat; dsimp only; split
  · exact h0
  · split
    · exact State.takeEntry_reachSound _ _ _ _ h
    · exact State.takeEntry_reachSound _ _ _ _ h

@[simp] theorem State.removeAged_reachSound (s : State) (p : PortId) (node : Nat) (h : ReachView.Sound
    (s.item .reach)) :
    ReachView.Sound ((s.removeAged p node).item .reach) := by
  have h0 : s.reach.Sound := h
  unfold State.removeAged; dsimp only; split
  · exact h
  · exact State.reportChange_reachSound _ _ (h0.setPart p ((h0.part p).filter _))

@[simp] theorem State.goDark_reachSound (s : State) (p : PortId) (h : ReachView.Sound (s.item .reach)) :
    ReachView.Sound ((s.goDark p).item .reach) := by
  have h0 : s.reach.Sound := h
  have hh : (s.setPort p (s.port p).darken).reach = s.reach :=
    s.setPort_item p _ (part := .reach) (by decide)
  unfold State.goDark; dsimp only; split
  · rw [State.setPort_item _ _ _ (by decide)]; exact h
  · refine State.reportChange_reachSound _ _ ?_
    rw [item_put_reach, hh]; exact h0.setPart p PartSound.nil

@[simp] theorem State.enterDark_reachSound (s : State) (p : PortId) (h : ReachView.Sound (s.item .reach)) :
    ReachView.Sound ((s.enterDark p).item .reach) := by
  unfold State.enterDark; dsimp only; split
  · rw [State.enterProbing_item _ _ (by decide)]; exact State.goDark_reachSound _ _ h
  · exact State.goDark_reachSound _ _ h

@[simp] theorem State.toOwner_reachSound (s : State) (p : PortId) (f : Frame) (h : ReachView.Sound (s.item .reach)) :
    ReachView.Sound ((s.toOwner p f).item .reach) := by
  unfold State.toOwner; (try dsimp only); (repeat' split) <;> first | (simp_all; done) | simp [*]

@[simp] theorem State.deliver_reachSound (s : State) (p : PortId) (f : Frame) (h : ReachView.Sound (s.item .reach)) :
    ReachView.Sound ((s.deliver p f).item .reach) := by
  unfold State.deliver; (try dsimp only); (repeat' split) <;> first | (simp_all; done) | simp [*]

@[simp] theorem State.goodFrame_reachSound (s : State) (p : PortId) (f : Frame) (h : ReachView.Sound
    (s.item .reach)) :
    ReachView.Sound ((s.goodFrame p f).item .reach) := by
  unfold State.goodFrame; dsimp only; split
  · rw [State.clashOn_item _ _ (by decide)]; exact h
  · split
    · refine State.deliver_reachSound _ _ _ ?_
      split
      · rw [State.forward_item _ _ _ (by decide)]; exact h
      · exact h
    · split
      · rw [State.forward_item _ _ _ (by decide)]; exact h
      · exact h

@[simp] theorem State.takeFrame_reachSound (s : State) (p : PortId) (bytes : List Byte) (h : ReachView.Sound
    (s.item .reach)) :
    ReachView.Sound ((s.takeFrame p bytes).item .reach) := by
  unfold State.takeFrame; (repeat' split) <;> first
    | exact h
    | (rw [State.damaged_item _ _ _ (by decide)]; exact h)
    | exact State.goodFrame_reachSound _ _ _ (by rw [State.goodForPort_item _ _ (by decide)]; exact h)

@[simp] theorem State.enterRepeaterOnly_reachSound (s : State) (h : ReachView.Sound (s.item .reach)) :
    ReachView.Sound (s.enterRepeaterOnly.item .reach) := by
  exact ⟨PartSound.nil, PartSound.nil⟩

@[simp] theorem State.enterRunning_reachSound (s : State) (h : ReachView.Sound (s.item .reach)) :
    ReachView.Sound (s.enterRunning.item .reach) := by
  have h1 := State.startBeats_reachSound { s with node := .running } h
  have h2 := State.reportChange_reachSound _ [] h1
  unfold State.enterRunning
  simpa using h2

@[simp] theorem State.dropOwnEntries_reachSound (s : State) (h : ReachView.Sound (s.item .reach)) :
    ReachView.Sound (s.dropOwnEntries.item .reach) := by
  have h0 : s.reach.Sound := h
  exact ⟨h0.1.filter _, h0.2.filter _⟩

@[simp] theorem State.enterScanning_reachSound (s : State) (c : Config) (h : ReachView.Sound (s.item .reach)) :
    ReachView.Sound ((s.enterScanning c).item .reach) := by
  have h1 : (((State.sampleLines { s with
      node := .scanning, cfg := c, loadTimer := none,
      time := { s.time with k := some (rateOf (referenceHz c.reference) c.trim) } }).dropOwnEntries).item .reach).Sound :=
    State.dropOwnEntries_reachSound _ (by simpa using h)
  unfold State.enterScanning; dsimp only; split
  · rw [item_set_spool _ _ (by decide)]; exact h1
  · exact State.enterRunning_reachSound _ h1

@[simp] theorem State.imageRead_reachSound (s : State) (image : Option (List Byte)) (h : ReachView.Sound
    (s.item .reach)) :
    ReachView.Sound ((s.imageRead image).item .reach) := by
  unfold State.imageRead; (try dsimp only); (repeat' split) <;> first | (simp_all; done) | simp [*]

@[simp] theorem State.generationSettled_reachSound (s : State) (value : Nat) (fault : Bool) (h : ReachView.Sound
    (s.item .reach)) :
    ReachView.Sound ((s.generationSettled value fault).item .reach) := by
  unfold State.generationSettled; dsimp only; split
  · exact State.enterRunning_reachSound _ h
  · rw [State.runToll_item _ (by decide)]; exact h

@[simp] theorem State.genMarkEnd_reachSound (s : State) (h : ReachView.Sound (s.item .reach)) :
    ReachView.Sound (s.genMarkEnd.item .reach) := by
  unfold State.genMarkEnd; (try dsimp only); (repeat' split) <;> first | (simp_all; done) | simp [*]

@[simp] theorem State.genMarkLimit_reachSound (s : State) (h : ReachView.Sound (s.item .reach)) :
    ReachView.Sound (s.genMarkLimit.item .reach) := by
  unfold State.genMarkLimit; (try dsimp only); (repeat' split) <;> first | (simp_all; done) | simp [*]

@[simp] theorem State.markEraseEnd_reachSound (s : State) (erased : Bool) (h : ReachView.Sound (s.item .reach)) :
    ReachView.Sound ((s.markEraseEnd erased).item .reach) := by
  unfold State.markEraseEnd; (try dsimp only); (repeat' split) <;> first | (simp_all; done) | simp [*]

/-- In RUNNING a change of the table reports the losses of its termini and then the terminus choice (R38). -/
theorem State.reportChange_running {s : State} (h : s.node = .running) (lost : List Nat) :
    s.reportChange lost = (lost.foldl State.callsLoss s).reportChoice := by
  unfold State.reportChange; rw [if_pos (by simp [State.isRunning, h])]

/-- Outside RUNNING a change of the table reports nothing (R39). -/
theorem State.reportChange_idle {s : State} (h : s.node ≠ .running) (lost : List Nat) : s.reportChange lost = s := by
  unfold State.reportChange; rw [if_neg (by simp [State.isRunning, h])]

/-- After a report the choice last reported is the present one (R38). -/
theorem State.reportChoice_lastReported (s : State) :
    s.reportChoice.reach.lastReported = s.reportChoice.terminusChoice.route := by
  have h2 : ∀ (t : State) r, ((t.steerTo r).callsChoice r).reach = t.reach := fun t r =>
    (State.callsChoice_item (t.steerTo r) r (part := .reach) (by decide)).trans
      (State.steerTo_item t r (part := .reach) (by decide))
  have h3 : ∀ (t : State) r, ((t.steerTo r).callsChoice r).node = t.node := fun t r =>
    (State.callsChoice_item (t.steerTo r) r (part := .node) (by decide)).trans
      (State.steerTo_item t r (part := .node) (by decide))
  have h4 : ∀ (t : State) r, ((t.steerTo r).callsChoice r).cfg = t.cfg := fun t r =>
    (State.callsChoice_item (t.steerTo r) r (part := .cfg) (by decide)).trans
      (State.steerTo_item t r (part := .cfg) (by decide))
  unfold State.reportChoice; dsimp only; split
  · rename_i h; exact h.symm
  · unfold State.terminusChoice State.isTerminus ReachView.termini
    simp only [h2, h3, h4, State.numberKnown]; rfl

end Sys2Proof.Machine
end

