-- ==== Sys2Proof/Laws/Receipt.lean ====
section
/-! SUPPORT. The receipt table (R135, R138) under every operation that changes it. -/

namespace Sys2Proof.Machine

@[simp] theorem item_put_receipt (s : State) (x : Receipt) : State.item { s with receipt := x } .receipt = x := rfl

@[simp] theorem Receipt.sound_update (t : State) (a b c d e f : Counter) :
    Receipt.Sound (Receipt.mk t.receipt.table a b c d e f) = Receipt.Sound (t.item .receipt) := rfl

@[simp] theorem State.acceptRecord_receipt (s : State) (origin : Nat) (r : TollRecord) (h : Receipt.Sound
    (s.item .receipt)) :
    Receipt.Sound ((s.acceptRecord origin r).item .receipt) := by
  have h0 : (s.placeTail (tollIn origin r)).receipt = s.receipt := rfl
  have h1 : s.receipt.Sound := h
  unfold State.acceptRecord; dsimp only
  refine ⟨?_, fun e he => ?_⟩
  · rw [h0]; exact keySet_rising h1.1 _ _
  · rw [h0] at he
    rcases mem_keySet he with he | he
    · rw [he]
    · exact h1.2 e he

@[simp] theorem State.receiveRecords_receipt (base : Position) (origin : Nat) (rs : List TollRecord) (s : State)
    (h : Receipt.Sound (s.item .receipt)) : Receipt.Sound ((State.receiveRecords base origin rs s).item .receipt) := by
  induction rs generalizing s with
  | nil => exact h
  | cons r rs ih =>
    unfold State.receiveRecords; (repeat' split)
    · exact ih _ (State.acceptRecord_receipt _ _ _ h)
    · exact h
    · exact ih _ h
    · exact h

@[simp] theorem State.receiveTrec_receipt (s : State) (p : PortId) (f : Frame) (h : Receipt.Sound (s.item .receipt)) :
    Receipt.Sound ((s.receiveTrec p f).item .receipt) := by
  unfold State.receiveTrec; (try dsimp only); (repeat' split) <;> first | (simp_all; done) | simp [*]

@[simp] theorem State.buildOne_receipt (s : State) (h : Receipt.Sound (s.item .receipt)) :
    Receipt.Sound (s.buildOne.item .receipt) := by
  unfold State.buildOne; (try dsimp only); (repeat' split) <;> first | (simp_all; done) | simp [*]

@[simp] theorem State.buildTrecs_receipt (n : Nat) (s : State) (h : Receipt.Sound (s.item .receipt)) :
    Receipt.Sound ((s.buildTrecs n).item .receipt) := by
  induction n generalizing s with
  | zero => exact h
  | succ n ih => unfold State.buildTrecs; (repeat' split) <;> simp_all

@[simp] theorem State.runToll_receipt (s : State) (h : Receipt.Sound (s.item .receipt)) :
    Receipt.Sound (s.runToll.item .receipt) := by
  unfold State.runToll; (try dsimp only); (repeat' split) <;> first | (simp_all; done) | simp [*]

@[simp] theorem State.tackDelivered_receipt (s : State) (f : Frame) (h : Receipt.Sound (s.item .receipt)) :
    Receipt.Sound ((s.tackDelivered f).item .receipt) := by
  unfold State.tackDelivered; (try dsimp only); (repeat' split) <;> first | (simp_all; done) | simp [*]

@[simp] theorem State.toOwner_receipt (s : State) (p : PortId) (f : Frame) (h : Receipt.Sound (s.item .receipt)) :
    Receipt.Sound ((s.toOwner p f).item .receipt) := by
  unfold State.toOwner; (try dsimp only); (repeat' split) <;> first | (simp_all; done) | simp [*]

@[simp] theorem State.deliver_receipt (s : State) (p : PortId) (f : Frame) (h : Receipt.Sound (s.item .receipt)) :
    Receipt.Sound ((s.deliver p f).item .receipt) := by
  unfold State.deliver; (try dsimp only); (repeat' split) <;> first | (simp_all; done) | simp [*]

@[simp] theorem State.goodFrame_receipt (s : State) (p : PortId) (f : Frame) (h : Receipt.Sound (s.item .receipt)) :
    Receipt.Sound ((s.goodFrame p f).item .receipt) := by
  unfold State.goodFrame; (try dsimp only); (repeat' split) <;> first | (simp_all; done) | simp [*]

@[simp] theorem State.takeFrame_receipt (s : State) (p : PortId) (bytes : List Byte) (h : Receipt.Sound
    (s.item .receipt)) :
    Receipt.Sound ((s.takeFrame p bytes).item .receipt) := by
  unfold State.takeFrame; (try dsimp only); (repeat' split) <;> first | (simp_all; done) | simp [*]

@[simp] theorem State.enterRunning_receipt (s : State) (h : Receipt.Sound (s.item .receipt)) :
    Receipt.Sound (s.enterRunning.item .receipt) := by
  unfold State.enterRunning; (try dsimp only); (repeat' split) <;> first | (simp_all; done) | simp [*]

@[simp] theorem State.enterScanning_receipt (s : State) (c : Config) (h : Receipt.Sound (s.item .receipt)) :
    Receipt.Sound ((s.enterScanning c).item .receipt) := by
  unfold State.enterScanning; (try dsimp only); (repeat' split) <;> first | (simp_all; done) | simp [*]

@[simp] theorem State.imageRead_receipt (s : State) (image : Option (List Byte)) (h : Receipt.Sound
    (s.item .receipt)) :
    Receipt.Sound ((s.imageRead image).item .receipt) := by
  unfold State.imageRead; (try dsimp only); (repeat' split) <;> first | (simp_all; done) | simp [*]

@[simp] theorem State.generationSettled_receipt (s : State) (value : Nat) (fault : Bool) (h : Receipt.Sound
    (s.item .receipt)) :
    Receipt.Sound ((s.generationSettled value fault).item .receipt) := by
  unfold State.generationSettled; dsimp only; split
  · exact State.enterRunning_receipt _ h
  · exact State.runToll_receipt _ h

@[simp] theorem State.genMarkEnd_receipt (s : State) (h : Receipt.Sound (s.item .receipt)) :
    Receipt.Sound (s.genMarkEnd.item .receipt) := by
  unfold State.genMarkEnd; (try dsimp only); (repeat' split) <;> first | (simp_all; done) | simp [*]

@[simp] theorem State.genMarkLimit_receipt (s : State) (h : Receipt.Sound (s.item .receipt)) :
    Receipt.Sound (s.genMarkLimit.item .receipt) := by
  unfold State.genMarkLimit; (try dsimp only); (repeat' split) <;> first | (simp_all; done) | simp [*]

@[simp] theorem State.markEraseEnd_receipt (s : State) (erased : Bool) (h : Receipt.Sound (s.item .receipt)) :
    Receipt.Sound ((s.markEraseEnd erased).item .receipt) := by
  unfold State.markEraseEnd; (try dsimp only); (repeat' split) <;> first | (simp_all; done) | simp [*]

@[simp] theorem State.recordEnd_receipt (s : State) (h : Receipt.Sound (s.item .receipt)) :
    Receipt.Sound (s.recordEnd.item .receipt) := by
  unfold State.recordEnd; (try dsimp only); (repeat' split) <;> first | (simp_all; done) | simp [*]

@[simp] theorem State.giveUp_receipt (s : State) (tag : Byte) (c : TollCause) (h : Receipt.Sound (s.item .receipt)) :
    Receipt.Sound ((s.giveUp tag c).item .receipt) := by
  unfold State.giveUp; (try dsimp only); (repeat' split) <;> first | (simp_all; done) | simp [*]

@[simp] theorem State.retryRecord_receipt (s : State) (tag : Byte) (h : Receipt.Sound (s.item .receipt)) :
    Receipt.Sound ((s.retryRecord tag).item .receipt) := by
  unfold State.retryRecord; (try dsimp only); (repeat' split) <;> first | (simp_all; done) | simp [*]

@[simp] theorem State.recordLimit_receipt (s : State) (h : Receipt.Sound (s.item .receipt)) :
    Receipt.Sound (s.recordLimit.item .receipt) := by
  unfold State.recordLimit; (try dsimp only); (repeat' split) <;> first | (simp_all; done) | simp [*]

@[simp] theorem State.markEnd_receipt (s : State) (h : Receipt.Sound (s.item .receipt)) :
    Receipt.Sound (s.markEnd.item .receipt) := by
  unfold State.markEnd; (try dsimp only); (repeat' split) <;> first | (simp_all; done) | simp [*]

@[simp] theorem State.markLimit_receipt (s : State) (h : Receipt.Sound (s.item .receipt)) :
    Receipt.Sound (s.markLimit.item .receipt) := by
  unfold State.markLimit; (try dsimp only); (repeat' split) <;> first | (simp_all; done) | simp [*]

@[simp] theorem State.endRead_receipt (s : State) (ended : Bool) (h : Receipt.Sound (s.item .receipt)) :
    Receipt.Sound ((s.endRead ended).item .receipt) := by
  unfold State.endRead; (try dsimp only); (repeat' split) <;> first | (simp_all; done) | simp [*]

@[simp] theorem State.endErase_receipt (s : State) (failed : List (Fin 63)) (limit : Bool) (h : Receipt.Sound
    (s.item .receipt)) :
    Receipt.Sound ((s.endErase failed limit).item .receipt) := by
  unfold State.endErase; (repeat' split) <;> first
    | exact h
    | exact State.runToll_receipt _ (by simpa [foldl_item] using h)

@[simp] theorem State.retryEnd_receipt (s : State) (h : Receipt.Sound (s.item .receipt)) :
    Receipt.Sound (s.retryEnd.item .receipt) := by
  unfold State.retryEnd; (try dsimp only); (repeat' split) <;> first | (simp_all; done) | simp [*]

@[simp] theorem State.goBackNow_receipt (s : State) (h : Receipt.Sound (s.item .receipt)) :
    Receipt.Sound (s.goBackNow.item .receipt) := by
  unfold State.goBackNow; (try dsimp only); (repeat' split) <;> first | (simp_all; done) | simp [*]

end Sys2Proof.Machine
end

