-- ==== Sys2Proof/Laws/Reports.lean ====
section
/-! SUPPORT. What the check of a delivered NSTA part says (R204, 12.3). -/

namespace Sys2Proof.Machine

/-- The bytes of an item: item number, value length, value (12.3). -/
def itemBytes (number : Nat) (v : List Byte) : List Byte := [BitVec.ofNat 8 number, BitVec.ofNat 8 v.length] ++ v

/-- The items of a part fit their table exactly when they are values numbered in order, each of which its check passes. -/
theorem itemsFit_iff (checks : List ValueCheck) (n : Nat) (l : List Byte) (hl : l.length < 256)
    (hn : n + checks.length ≤ 256) :
    itemsFit n checks l = true ↔ ∃ vs : List (List Byte),
      l = ((vs.zipIdx n).flatMap fun v => itemBytes v.2 v.1) ∧
      ∀ (j : Nat) (v : List Byte), vs[j]? = some v → ∃ check, checks[j]? = some check ∧ check v = true := by
  induction checks generalizing n l with
  | nil =>
    match l with
    | [] => simp [itemsFit]; exact ⟨[], by simp, by simp⟩
    | a :: r =>
      have : itemsFit n [] (a :: r) = false := by cases r <;> rfl
      simp only [this, Bool.false_eq_true, false_iff, not_exists]
      rintro vs ⟨h, hv⟩
      cases vs with
      | nil => simp at h
      | cons v vs => obtain ⟨c, hc, -⟩ := hv 0 v rfl; simp at hc
  | cons check rest ih =>
    match l with
    | [] => simp [itemsFit]; exact ⟨[], by simp, by simp⟩
    | [a] =>
      simp only [itemsFit, Bool.false_eq_true, false_iff, not_exists]
      rintro vs ⟨h, -⟩
      cases vs <;> simp [itemBytes] at h
    | a :: b :: r =>
      have hr : (r.drop b.toNat).length < 256 := by simp at hl ⊢; omega
      simp only [List.length_cons] at hn
      simp only [itemsFit, Bool.and_eq_true, beq_iff_eq, decide_eq_true_eq, ih (n + 1) _ hr (by omega)]
      constructor
      · rintro ⟨⟨⟨h1, h2⟩, h3⟩, vs, h4, h5⟩
        refine ⟨r.take b.toNat :: vs, ?_, ?_⟩
        · have ha : BitVec.ofNat 8 n = a := by rw [← h1]; simp
          have hb : BitVec.ofNat 8 (r.take b.toNat).length = b := by simp [Nat.min_eq_left h2]
          simp only [List.zipIdx_cons, List.flatMap_cons, ← h4]
          simp [itemBytes, ha, Nat.min_eq_left h2]
        · rintro (_ | j) v hv
          · obtain rfl : r.take b.toNat = v := by simpa using hv
            exact ⟨check, rfl, h3⟩
          · exact h5 j v (by simpa using hv)
      · rintro ⟨vs, h, hv⟩
        cases vs with
        | nil => simp at h
        | cons v vs =>
          simp only [List.zipIdx_cons, List.flatMap_cons, itemBytes, List.cons_append, List.nil_append,
            List.cons.injEq] at h
          obtain ⟨rfl, rfl, h⟩ := h
          have hlen : v.length < 256 := by rw [h] at hl; simp at hl; omega
          have hbn : (BitVec.ofNat 8 v.length).toNat = v.length := by simp; omega
          obtain ⟨c, hc, hcv⟩ := hv 0 v rfl
          obtain rfl : check = c := by simpa using hc
          refine ⟨⟨⟨by simp; omega, ?_⟩, ?_⟩, vs, ?_, fun j w hw => ?_⟩
          · rw [hbn, h]; simp
          · rw [hbn, h]; simpa using hcv
          · rw [hbn, h]; simp [itemBytes]
          · obtain ⟨d, hd, hdw⟩ := hv (j + 1) w (by simpa using hw)
            exact ⟨d, by simpa using hd, hdw⟩

end Sys2Proof.Machine
end

