-- ==== Sys2Proof/Laws/Spool.lean ====
section
/-! SUPPORT. What the Toll Spool's searches find in stores whose keys rise (R104, R111, R112). -/

namespace Sys2Proof.Machine

/-- A store with rising keys holds an entry exactly where its key reads as it. -/
theorem mem_iff_keyGet {α : Type} {l : List (Nat × α)} (h : keysRising l = true) (k : Nat) (v : α) :
    (k, v) ∈ l ↔ keyGet l k = some v := by
  rw [keysRising_iff] at h
  induction l with
  | nil => simp [keyGet]
  | cons c rest ih =>
    obtain ⟨a, x⟩ := c
    rw [List.pairwise_cons] at h
    simp only [List.mem_cons, Prod.mk.injEq, keyGet]
    by_cases hk : k = a
    · subst hk
      rw [if_pos rfl]
      constructor
      · rintro (⟨-, rfl⟩ | hm)
        · rfl
        · exact absurd (h.1 _ hm) (Nat.lt_irrefl _)
      · rintro ⟨⟩; exact .inl ⟨rfl, rfl⟩
    · rw [if_neg hk, ← ih h.2]; simp [hk]

/-- A search of a store with rising keys finds the lowest key whose entry passes. -/
theorem find_key_iff {α : Type} {l : List (Nat × α)} (h : keysRising l = true) (p : α → Bool) (k : Nat) :
    (l.find? fun e => p e.2).map Prod.fst = some k ↔
      (∃ v, keyGet l k = some v ∧ p v = true) ∧ ∀ j, j < k → ∀ w, keyGet l j = some w → p w = false := by
  have hm := mem_iff_keyGet h
  rw [keysRising_iff] at h
  simp only [← hm]
  induction l with
  | nil => simp
  | cons c rest ih =>
    obtain ⟨a, x⟩ := c
    rw [List.pairwise_cons] at h
    have hr : keysRising rest = true := (keysRising_iff rest).2 h.2
    by_cases hp : p x = true
    · simp only [List.find?_cons, hp, Option.map_some, Option.some.injEq, List.mem_cons, Prod.mk.injEq]
      constructor
      · rintro rfl
        refine ⟨⟨x, .inl ⟨rfl, rfl⟩, hp⟩, ?_⟩
        rintro j hj w (⟨rfl, -⟩ | hw)
        · omega
        · exact absurd (h.1 _ hw) (by simp; omega)
      · rintro ⟨⟨v, hv, hpv⟩, hlow⟩
        by_contra hne
        rcases hv with ⟨rfl, -⟩ | hv
        · exact hne rfl
        · have := hlow a (h.1 _ hv) x (.inl ⟨rfl, rfl⟩)
          rw [hp] at this; cases this
    · simp only [List.find?_cons, Bool.eq_false_iff.2 hp, List.mem_cons, Prod.mk.injEq]
      refine (ih h.2 (mem_iff_keyGet hr)).trans ?_
      constructor
      · rintro ⟨⟨v, hv, hpv⟩, hlow⟩
        refine ⟨⟨v, .inr hv, hpv⟩, ?_⟩
        rintro j hj w (⟨rfl, rfl⟩ | hw)
        · simpa using hp
        · exact hlow j hj w hw
      · rintro ⟨⟨v, hv, hpv⟩, hlow⟩
        refine ⟨⟨v, ?_, hpv⟩, fun j hj w hw => hlow j hj w (.inr hw)⟩
        rcases hv with ⟨rfl, rfl⟩ | hv
        · exact absurd hpv hp
        · exact hv

/-- The slot that a position names is the lowest FILLED one that holds it (R111, R112, log entry 30). -/
theorem Spool.slotOf_iff {p : Spool} (h : keysRising p.slots = true) (q : Position) (k : Nat) :
    p.slotOf q = some k ↔
      keyGet p.slots k = some (.filled q) ∧ ∀ j, j < k → keyGet p.slots j ≠ some (.filled q) := by
  unfold Spool.slotOf
  rw [find_key_iff h fun v => v == .filled q]
  simp only [beq_iff_eq, exists_eq_right, beq_eq_false_iff_ne]
  exact and_congr_right fun _ => forall_congr' fun _ => imp_congr_right fun _ =>
    ⟨fun hw hk => hw _ hk rfl, fun hk w hw hq => hk (hq ▸ hw)⟩

/-- A position that no FILLED slot holds names no slot (R111, R112). -/
theorem Spool.slotOf_none_iff {p : Spool} (h : keysRising p.slots = true) (q : Position) :
    p.slotOf q = none ↔ ∀ k, keyGet p.slots k ≠ some (.filled q) := by
  unfold Spool.slotOf
  simp only [Option.map_eq_none_iff, List.find?_eq_none, ← mem_iff_keyGet h, ne_eq, beq_iff_eq, Prod.forall]
  exact ⟨fun hw k hk => hw k _ hk rfl, fun hk k v hv hq => hk k (hq ▸ hv)⟩

end Sys2Proof.Machine
end

