-- ==== Sys2Proof/WellFormed.lean ====
section
/-! DEFINITION. Which commands a node can be given: the sizes and ranges of their operands. A command that fails a check is
still run by exec; the checks say what its row's rule speaks of. -/

namespace Sys2Proof

/-- The operands of a command are within what its rule names. -/
def Instr.wellFormed : Instr → Bool
  | .start => true
  | .configurationImageReadEnd image => image.all fun b => decide (b.length ≤ 4096)
  | .loadingReadTimeout => true
  | .startScanReadEnd => true
  | .generationMarkProgramEnd => true
  | .generationMarkProgramLimit => true
  | .markSectorEraseEnd _ => true
  | .markSectorEraseLimit _ => true
  | .lightPresent _ => true
  | .lightLost _ => true
  | .portSilenceTimerExpiry _ => true
  | .frameReceived _ _ => true
  | .frameSendEnd _ => true
  | .beatTimerExpiry => true
  | .reachEntryAgeLimit _ node => decide (1 ≤ node ∧ node ≤ 240)
  | .ltCarry => true
  | .gradeTimerExpiry => true
  | .time _ => true
  | .timeValueLapse => true
  | .timeInputPulse => true
  | .inputLockLapse => true
  | .pinChange _ _ => true
  | .filterWaitEnd _ => true
  | .pulseEdge _ => true
  | .pulseWindowEnd _ => true
  | .attemptTimerExpiry _ => true
  | .ringOutAttemptTimerExpiry _ => true
  | .roadsideSilenceTimerExpiry _ => true
  | .terminusSilenceTimerExpiry _ => true
  | .roadsideKeepTimerExpiry _ => true
  | .queuedKeepTimerExpiry _ => true
  | .roadsideRingTimerExpiry _ => true
  | .callingRingTimerExpiry _ => true
  | .releaseTimerExpiry _ => true
  | .playTimerExpiry _ => true
  | .voiceSamplesComplete _ samples => samples.length == 40
  | .toneCadenceStep _ => true
  | .ringCadenceStep _ => true
  | .ringOut node phone =>
    decide (1 ≤ node.toNat ∧ node.toNat ≤ 240) && (Machine.phoneOf phone.toNat).isSome
  | .hangup _ => true
  | .consoleVoice _ samples => samples.length == 40
  | .pendingListDrain => true
  | .tollSubmit _ _ _ body => body.length == 40
  | .eraseSuspensionComplete => true
  | .recordProgramEnd => true
  | .recordProgramLimit => true
  | .answerPlaceDrain => true
  | .markProgramEnd => true
  | .markProgramLimit => true
  | .readEnd => true
  | .readLimit => true
  | .closeTimerExpiry => true
  | .eraseDone failed => decide failed.Nodup
  | .eraseLimit failed => decide failed.Nodup
  | .retryTimerExpiry => true
  | .goBack => true
  | .loadTimerExpiry _ => true
  | .frameEnd => true
  | .reading channel _ _ => decide (channel.toNat < 8)
  | .staleTimerExpiry _ => true
  | .renewalTimerExpiry _ => true
  | .gatheringWindowExpiry => true
  | .reportTimerExpiry => true
  | .statusAsk origin => decide (origin.toNat ≤ 240)
  | .sendSign kind target zone payload => Machine.sendSignOk kind target zone payload
  | .outboundTransferStart => true
  | .outboundTransferEnd => true
  | .statusTimerExpiry => true
  | .badMessage bytes => (Machine.parseInbound bytes).isNone
  | .resetHeld => true

end Sys2Proof
end

