-- ==== Sys2Proof/Tests/Slice0.lean ====
section
/-! SUPPORT. Tests: the well-formedness checks refuse an ill-formed command each, the spec's worked examples, and for every
statement with hypotheses a witness that meets them, clause by clause. -/

namespace Sys2Proof.Tests

open Sys2Proof Sys2Proof.Machine

/-! ### Well-formedness -/

/-- The largest image is 4,096 bytes (R199). -/
theorem test_image_too_long :
    Instr.wellFormed (.configurationImageReadEnd (some (List.replicate 4097 0))) = false := by decide +kernel
/-- An entry's node is 1..240 (R30). -/
theorem test_age_of_no_node : Instr.wellFormed (.reachEntryAgeLimit .east 0) = false ∧
    Instr.wellFormed (.reachEntryAgeLimit .east 241) = false := by decide
/-- A voice frame has forty samples (R93). -/
theorem test_samples_short : Instr.wellFormed (.voiceSamplesComplete .phoneA (List.replicate 39 0)) = false := by
  decide
theorem test_console_samples_long : Instr.wellFormed (.consoleVoice ⟨1, 1⟩ (List.replicate 41 0)) = false := by
  decide
/-- A RING-OUT names a node and a phone port of 12.4. -/
theorem test_ring_out_of_range : Instr.wellFormed (.ringOut 0 1) = false ∧ Instr.wellFormed (.ringOut 241 1) = false ∧
    Instr.wellFormed (.ringOut 5 3) = false := by decide
/-- A toll record body has 40 bytes (R105). -/
theorem test_body_short : Instr.wellFormed (.tollSubmit 1 2 3 (List.replicate 39 0)) = false := by
  decide
theorem test_erase_lists_a_sector_twice : Instr.wellFormed (.eraseDone [4, 4]) = false := by decide
theorem test_erase_limit_lists_a_sector_twice : Instr.wellFormed (.eraseLimit [4, 4]) = false := by decide
/-- Reading channels are 0..7 (R178). -/
theorem test_reading_channel : Instr.wellFormed (.reading 8 0 true) = false := by decide
/-- An origin asked for is 0..240 (R194). -/
theorem test_status_origin : Instr.wellFormed (.statusAsk 241) = false := by decide
/-- Kind, target, zone and length of a SEND-SIGN (R193). -/
theorem test_send_sign_fields : Instr.wellFormed (.sendSign 8 0 1 []) = false ∧
    Instr.wellFormed (.sendSign 7 241 1 []) = false ∧ Instr.wellFormed (.sendSign 7 0 0 []) = false ∧
    Instr.wellFormed (.sendSign 10 0 1 (List.replicate 257 0)) = false := by decide +kernel
/-- A bad message fails a check (R191): a whole STATUS-ASK is none. -/
theorem test_good_bytes_are_no_bad_message :
    Instr.wellFormed (.badMessage (CabMsg.wire ⟨0x03, [0]⟩)) = false := by decide +kernel
theorem test_well_formed_at_the_ends : Instr.wellFormed (.reachEntryAgeLimit .west 240) = true ∧
    Instr.wellFormed (.ringOut 240 2) = true ∧ Instr.wellFormed (.reading 7 0 true) = true ∧
    Instr.wellFormed (.statusAsk 240) = true ∧ Instr.wellFormed (.sendSign 10 240 255 (List.replicate 256 0)) = true ∧
    Instr.wellFormed (.badMessage []) = true := by decide +kernel

/-- The table gives its rows no bits: no word spells a command. -/
theorem test_no_word_is_a_command : decodeTableWord 8 0 = none := by decide

/-! ### The spec's own values -/

/-- Section 3.2: K at both frequencies with trim 0 (R44). -/
theorem test_rates : rateOf 25000000 0 = 171798692 ∧ rateOf 19440000 0 = 220934532 := by decide

/-- Section 3.2's third row: a trim of +200 parts per million (R44). -/
theorem test_rate_trimmed : rateOf 25000000 200 = 171764339 := by decide

/-- The registers of R202 and R203 on the digits 1 to 9: the published check values of CRC-32/BZIP2 and of
CRC-16/CCITT-FALSE, which have these widths, polynomials, starts and final steps. -/
theorem test_crc32 : crc32 [0x31, 0x32, 0x33, 0x34, 0x35, 0x36, 0x37, 0x38, 0x39] = 0xFC891918 := by decide +kernel
theorem test_crc16 : crc16 [0x31, 0x32, 0x33, 0x34, 0x35, 0x36, 0x37, 0x38, 0x39] = 0x29B1 := by decide +kernel

/-! ### States for tests -/

/-- A port in LIT with nothing to send. -/
def litPort : LinePort := { LinePort.initial with state := .lit, light := true, silence := some ⟨0, 300000⟩ }

/-- A configuration with every service. -/
def config (r : Role) : Config :=
  { Config.initial with number := 10, role := r, services := ⟨true, true, true, true⟩, timeInput := true,
                        signWidth := 32, signHeight := 8 }

/-- A node in RUNNING with both ports LIT and an empty Reach View. -/
def running (r : Role) : State :=
  { State.reset with node := .running, loadTimer := none, cfg := config r, east := litPort, west := litPort,
                     time := { LineTime.initial with k := some 171798692 } }

/-- Node 20, a TERMINUS two spans east. -/
def terminus20 : ReachEntry := { node := 20, hops := 2, role := .terminus, interval := 100, backlog := 0, heardAt := 0 }

/-- A roadside node in RUNNING that hears terminus 20 on EAST. -/
def inView : State :=
  { running .roadside with reach := { ReachView.initial with east := [terminus20], lastReported := .via 20 .east } }

/-- The same node in SCANNING. -/
def scanning : State := { running .roadside with node := .scanning }

/-- A running timer. -/
def timer : Timer := some ⟨0, 1⟩

/-- A small frame. -/
def frame (k : FrameKind) (origin target : Nat) : Frame :=
  { kind := k, hops := 0, hopLimit := 2, origin := origin, target := target, payload := [] }

/-- A state with one port's local BULK queue holding n frames. -/
def queued (n : Nat) : LinePort :=
  { litPort with bulk := { Lane.initial with own := List.replicate n (frame .trec 10 241) } }

/-! ### The spec's worked examples -/

/-- Section 1.10, sends 4 to 7: after three transit frames the fourth, then the credit. -/
theorem test_credit : let t := frame .trec 1 241; let l := frame .trec 10 241
    (Lane.take ⟨[t, t, t], [l, l], 3⟩ = some (t, false, ⟨[t, t], [l, l], 4⟩)) ∧
    (Lane.take ⟨[t, t], [l, l], 4⟩ = some (l, true, ⟨[t, t], [l], 0⟩)) := by decide

/-- Section 1.2, the last good frame of a PROBING port: LIT with probe count 0. -/
theorem test_probing_becomes_lit :
    let s := { running .roadside with west := { litPort with state := .probing, probe := 1, silence := none } }
    ((s.goodForPort .west).west.state, (s.goodForPort .west).west.probe) = (.lit, 0) := by decide

/-- A BEAT of section 3.4. -/
def heard (grade : Nat) (ts : LTime) : Beat :=
  { node := 1, role := .terminus, interval := 100, grade := grade, ts := ts, settled := true, backlog := 0 }

/-- Node 57 of section 3.4 with a Line Time and a grade. -/
def node57 (lt : LTime) (grade : Nat) : State :=
  { running .roadside with time := { LineTime.initial with lt := lt, settled := true, grade := grade } }

/-- Section 3.4, steps 1 to 4. -/
theorem test_merge_step1 : ((node57 5000000000 4).merge (heard 5 4999999700) 3).time.lt = 5000000000 := by decide
theorem test_merge_step2 : let t := ((node57 5000000500 4).merge (heard 5 5000003100) 5).time
    t.lt = 5000002500 ∧ t.disputes = 1 ∧ t.grade = 4 := by decide
theorem test_merge_step3 : let t := ((node57 5000003000 4).merge (heard 7 5000001000) 10).time
    t.lt = 5000003000 ∧ t.grade = 6 ∧ t.holdback = 1700 := by decide
theorem test_merge_step4 : ((node57 5000004000 6).merge (heard 7 5000003000) 10).time.holdback = 0 := by decide

/-- Section 3.5: a restarted cabinet is set whole. -/
theorem test_settling : let s := { node57 412000 0 with time := { (node57 412000 0).time with settled := false } }
    let t := (s.merge (heard 6 5000100000) 1).time
    t.lt = 5000100030 ∧ t.grade = 5 ∧ t.settled = true := by decide

/-- A page 2 in LOADING on the 32 × 8 sign of section 8.5, with pixels. -/
def loading85 (m : List Host.Cell) : State :=
  let s := running .roadside
  let r := s.pages.records.set 2 { PageRecord.initial with state := .loading }
  { s with pages := { s.pages with pixels := m, records := r } }

/-- The colours of pixels 8 to 31 of row 0 of page 2. -/
def row85 (m : Option (List Host.Cell)) : List Nat :=
  (List.range 24).map fun x => (readPixelCell (m.getD []) (pixelAddr 2 0 (8 + x))).toNat

/-- One write of section 8.5 on what the writes before it left. -/
def then85 (w : SignWrite) (m : List Host.Cell) : List Host.Cell := ((loading85 m).applyWrite 2 w).getD []

/-- The colours after fragments 1, 2 and 3 of section 8.5. -/
def after85 : List Host.Cell :=
  then85 (.copy 0 2 0xFF 2 0 1 2) (then85 (.plane 0 1 2 .or 2 0x3C [0xC3]) (then85 (.colour 0 1 0xFF 5 [0xF0]) []))

/-- Section 8.5, fragments 1, 2 and 3. -/
theorem test_row_85 : row85 (some after85) =
    [5, 5, 7, 7, 0, 0, 0, 0, 5, 5, 7, 7, 0, 0, 0, 0, 5, 5, 7, 7, 0, 0, 0, 0] := by decide
/-- Section 8.5, fragment 4, three data bytes: two fall past the row's end. -/
theorem test_row_end : row85 ((loading85 after85).applyWrite 2 (.plane 0 3 15 .replace 0 0x0F [0xFF, 0xFF, 0xFF])) =
    [5, 5, 7, 7, 0, 0, 0, 0, 5, 5, 7, 7, 0, 0, 0, 0, 5, 5, 7, 7, 15, 15, 15, 15] := by decide +kernel

/-- Section 9.8: the applied brightness at noon, in the evening and at the load above the budget (R173). -/
theorem test_budget : [(16, 2160), (8, 2160), (4, 30000)].map (fun (q : Nat × Nat) =>
    (appliedLevel q.1 24000 q.2, overBudget q.1 24000 q.2)) = [(11, true), (8, false), (1, true)] := by decide

/-- Section 10.2's worked case: the value at the first, third and fourth window end. -/
theorem test_wind : [[22], [28, 25, 22], [31, 28, 25, 22]].map (fun h => (pulseValue h 3 1792).1) = [154, 175, 196] := by
  decide

/-! ### Witnesses: states that meet the hypotheses of the statements, clause by clause -/

/-- StepRunsTheFrontCommand. -/
theorem witness_front : { running .roadside with pending := [.frameEnd, .goBack] }.pending = .frameEnd :: [.goBack] := rfl

/-- IdleStepIsOneReferencePeriod: the sums 2^32 - 1 and 2^32. -/
theorem witness_idle :
    let s (a : BitVec 32) := { running .roadside with time := { (running .roadside).time with acc := a } }
    let t := s 4123168603; let u := s 4123168604
    State.reset.pending = [] ∧ State.reset.node = .loading ∧ t.pending = [] ∧ t.node = .running ∧
      t.time.k = some 171798692 ∧ t.time.acc.toNat + (171798692 : BitVec 32).toNat = 2 ^ 32 - 1 ∧
      u.time.acc.toNat + (171798692 : BitVec 32).toNat = 2 ^ 32 := by decide

/-- LightEventsThatKeepOrRaiseAPort. -/
theorem witness_light : { State.reset with node := .held }.node = .held ∧ State.reset.node ≠ .held ∧
    (State.reset.port .east).state = .dark ∧ State.reset.node ≠ .running ∧ (running .roadside).node = .running ∧
    ({ running .roadside with west := LinePort.initial }.port .west).state = .dark ∧
    ((running .roadside).port .east).state ≠ .dark := by decide

/-- EntryIntoDark. -/
theorem witness_dark : (running .roadside).node ≠ .held ∧ ((running .roadside).port .west).state = .lit ∧
    ((running .roadside).port .west).silence.isSome = true ∧ scanning.node ≠ .running ∧
    (scanning.port .west).state ≠ .dark := by decide

/-- CreditRuleWithinAClass: five sends with the count rising from 0 to 4. -/
theorem witness_credit : let f := frame .trec 1 241
    let lanes (i : Fin 5) : Lane := ⟨List.replicate (5 - i) f, [f], i⟩
    let after (i : Fin 5) : Lane := if i = 4 then ⟨[f], [], 0⟩ else ⟨List.replicate (4 - i) f, [f], i + 1⟩
    (∀ i, (lanes i).own ≠ []) ∧ (∀ i, (lanes i).take = some (f, decide (i = 4), after i)) ∧
    (∀ i j : Fin 5, (j : Nat) = i + 1 →
      lanes j = { after i with transit := (after i).transit ++ [], own := (after i).own ++ [] }) ∧
    (lanes 0).credit ≤ 4 ∧
    Lane.take ⟨[f], [f], 4⟩ ≠ none ∧ Lane.take ⟨[f], [f], 0⟩ ≠ none := by decide

/-- SendEndHandsOverTheArbitersChoice: nothing waits, a BULK frame waits, an URGENT one waits. -/
theorem witness_send_end : let f := frame .trec 10 241; let w := frame .walr 10 0
    let a := { litPort with sending := some f }
    let b := { queued 1 with sending := some f }
    let c := { b with urgent := { Lane.initial with own := [w] } }
    let st (q : LinePort) := ({ running .roadside with east := q }.port .east)
    (st a).sending = some f ∧ (st a).state ≠ .dark ∧ (st a).urgent.take = none ∧ (st a).bulk.take = none ∧
    (st b).urgent.transit = [] ∧ (st b).urgent.own = [] ∧ (st b).bulk.take = some (f, true, Lane.initial) ∧
    (st c).urgent.take = some (w, true, Lane.initial) := by decide

/-- OffersAreAnsweredByPortAndQueue: the queues one below their capacity, at it, and a port not open. -/
theorem witness_offer : let u (n : Nat) := { litPort with urgent := { Lane.initial with own := List.replicate n (frame .walr 10 0) } }
    (u 7).state = .lit ∧ (u 7).urgent.own.length = 7 ∧ (u 8).urgent.own.length = 8 ∧ (queued 15).bulk.own.length = 15 ∧
    (queued 16).bulk.own.length = 16 ∧ ¬ (LinePort.initial.state = .lit) ∧ (frame .walr 10 0).kind.isUrgent = true ∧
    (frame .trec 10 241).kind.isUrgent = false := by decide

/-- The check bytes of R202 after some bytes. -/
def checked (l : List Byte) : List Byte := l ++ bytesBE 4 (crc32 l).toNat

/-- DamagedFramesAreCountedAndDiscarded: lengths 10, 268 and 11, a false check, a false length field, and every field one
outside its range. -/
theorem witness_damaged : State.reset.east.state = .dark ∧ litPort.state ≠ .dark ∧
    (List.replicate 10 (0 : Byte)).length < 11 ∧ 267 < (List.replicate 268 (0 : Byte)).length ∧
    (let b : List Byte := List.replicate 11 0; b.drop 7 ≠ bytesBE 4 (crc32 (b.take 7)).toNat) ∧
    (let b := checked [1, 0, 1, 1, 0, 0, 1]; b.length = 11 ∧ b.drop 7 = bytesBE 4 (crc32 (b.take 7)).toNat ∧
      field b 5 2 ≠ 0) ∧
    (let b := checked [0, 0, 1, 1, 0, 0, 0]; field b 5 2 = b.length - 11 ∧ field b 0 1 = 0) ∧
    13 < field (checked [14, 0, 1, 1, 0, 0, 0]) 0 1 ∧ 254 < field (checked [1, 255, 1, 1, 0, 0, 0]) 1 1 ∧
    field (checked [1, 0, 0, 1, 0, 0, 0]) 2 1 = 0 ∧ field (checked [1, 0, 1, 0, 0, 0, 0]) 3 1 = 0 ∧
    240 < field (checked [1, 0, 1, 241, 0, 0, 0]) 3 1 ∧ 241 < field (checked [1, 0, 1, 1, 242, 0, 0]) 4 1 := by
  decide +kernel

/-- GoodFramesClashOrTravelOn: the own number; another node's frame one under its hop limit and at it. -/
theorem witness_good :
    let at1 := { frame .trec 3 77 with hopLimit := 1 }
    checkFrame (frame .trec 3 77).wire = .good (frame .trec 3 77) ∧ checkFrame at1.wire = .good at1 ∧
    checkFrame (frame .beat 10 0).wire = .good (frame .beat 10 0) ∧ (frame .beat 10 0).origin = (config .roadside).number ∧
    (frame .trec 3 77).target ≠ 0 ∧ (frame .trec 3 77).origin ≠ (config .roadside).number ∧
    (frame .trec 3 77).target ≠ (config .roadside).number ∧ (frame .trec 3 77).target ≠ 241 ∧
    (frame .trec 3 77).hops + 1 < (frame .trec 3 77).hopLimit ∧ at1.hopLimit ≤ at1.hops + 1 := by decide +kernel

/-- TransitLanesTakeOrCount: the lanes one below their capacity and at it. -/
theorem witness_transit : let f := frame .trec 1 241; let w := frame .walr 1 0
    LinePort.initial.state ≠ .lit ∧ litPort.state = .lit ∧ f.kind.isUrgent = false ∧ w.kind.isUrgent = true ∧
    { litPort with urgent := { Lane.initial with transit := List.replicate 3 w } }.urgent.transit.length = 3 ∧
    { litPort with urgent := { Lane.initial with transit := List.replicate 4 w } }.urgent.transit.length = 4 ∧
    { litPort with bulk := { Lane.initial with transit := List.replicate 7 f } }.bulk.transit.length = 7 ∧
    { litPort with bulk := { Lane.initial with transit := List.replicate 8 f } }.bulk.transit.length = 8 := by decide

/-- FramesReadBackAsLaidOut: every field at its greatest value. -/
theorem witness_layout : let f : Frame := ⟨.nsta, 254, 255, 240, 241, List.replicate 256 255⟩
    f.hops ≤ 254 ∧ 1 ≤ f.hopLimit ∧ f.hopLimit ≤ 255 ∧ 1 ≤ f.origin ∧ f.origin ≤ 240 ∧ f.target ≤ 241 ∧
    f.payload.length ≤ 256 := by decide +kernel

/-- A node whose WEST port sends and holds own frames. -/
def busy : State :=
  { running .roadside with west := { queued 2 with sending := some (frame .trec 10 241) },
                           pending := [.frameSendEnd .west] }

/-- PortsStaySound. -/
theorem witness_ports : busy.PortsSound ∧ ∃ t, step busy = .next t := by
  refine ⟨?_, _, rfl⟩
  simp [State.PortsSound, LinePort.Sound, Lane.Fits, busy, running, litPort, queued, LinePort.initial, Lane.initial,
    transitCapacity, localCapacity]

/-! The Reach View. -/

/-- BeatsAreOfferedAtEachExpiry: the timer stopped and running; a port DARK, with a waiting BEAT, and without one. -/
theorem witness_beat_timer : State.reset.reach.beatTimer = none ∧
    { inView with reach := { inView.reach with beatTimer := timer } }.reach.beatTimer ≠ none ∧
    (State.reset.port .west).state = .dark ∧
    (∃ f ∈ { litPort with urgent := { Lane.initial with own := [frame .beat 10 0] } }.urgent.own, f.kind = .beat) ∧
    ¬ ((inView.port .west).state = .dark ∨ ∃ f ∈ (inView.port .west).urgent.own, f.kind = .beat) := by decide

/-- AgedEntriesLeaveTheirPart: no such entry; one outside RUNNING; a ROADSIDE one with the choice unchanged; a TERMINUS. -/
theorem witness_age :
    let r : ReachEntry := { terminus20 with node := 30, hops := 3, role := .roadside }
    let s := { inView with reach := { inView.reach with east := [terminus20, r] } }
    (∀ e ∈ inView.reach.part .west, e.node ≠ 20) ∧ (∃ e ∈ s.reach.part .east, e.node = 30) ∧
    (∀ e ∈ s.reach.part .east, e.node = 30 → e.role = .roadside) ∧ s.node = .running ∧
    ({ s with reach := s.reach.setPart .east [terminus20] }.terminusChoice).route = s.reach.lastReported ∧
    (∃ e ∈ inView.reach.part .east, e.node = 20) ∧
    { inView with node := .scanning }.node ≠ .running := by decide

/-- A BEAT of a node with hops 0. -/
def beatOf (n : Nat) (r : Byte) : Frame :=
  { frame .beat n 0 with payload := [BitVec.ofNat 8 n, r, 0, 0, 100, 3, 0, 0, 0, 0, 0, 9, 1, 0, 0] }

/-- A part of n ROADSIDE entries, two spans away. -/
def partOf (n : Nat) (r : Role) : List ReachEntry :=
  (List.range n).map fun i => { terminus20 with node := 40 + i, role := r }

/-- A part in which the order of R30 can be checked by its neighbours. -/
theorem partSound_of_chain (l : List ReachEntry) (h : l.length ≤ 16) (c : (l.Pairwise fun a b => a.nearer b = true))
    (d : (l.map fun e => e.node).Nodup) : PartSound l := ⟨h, c, d⟩

/-- AcceptedBeatsRefreshOrOfferAnEntry: a refresh; a newcomer with room (15 entries); a full part of ROADSIDE entries with
its victim, met by a nearer newcomer; a full part of TERMINUS entries. -/
theorem witness_beat : (acceptBeat (beatOf 5 1)).isSome = true ∧ (acceptBeat (beatOf 40 2)).isSome = true ∧
    PartSound (partOf 15 .roadside) ∧ PartSound (partOf 16 .roadside) ∧ PartSound (partOf 16 .terminus) ∧
    (∃ x ∈ partOf 15 .roadside, x.node = 40) ∧ (∀ x ∈ partOf 16 .roadside, x.node ≠ 5) ∧
    (partOf 15 .roadside).length < 16 ∧ 16 ≤ (partOf 16 .roadside).length ∧
    (∀ x ∈ partOf 16 .terminus, x.role = .terminus) ∧
    (let v : ReachEntry := { terminus20 with node := 55, role := .roadside }
     v ∈ partOf 16 .roadside ∧ (∀ x ∈ partOf 16 .roadside, x.role = .roadside → x = v ∨ x.nearer v = true) ∧
     ({ terminus20 with node := 5, hops := 1, role := .roadside } : ReachEntry).nearer v = true ∧
     ({ terminus20 with node := 56, role := .roadside } : ReachEntry).nearer v = false) := by
  refine ⟨by decide, by decide, partSound_of_chain _ (by decide) (by decide) (by decide),
    partSound_of_chain _ (by decide) (by decide) (by decide), partSound_of_chain _ (by decide) (by decide) (by decide), ?_⟩
  decide

/-- RejectedBeatsAreOnlyCounted: each field one outside its range. -/
theorem witness_bad_beat : let f (p : List Byte) : Frame := { frame .beat 5 0 with payload := p }
    { beatOf 5 1 with target := 1 }.target ≠ 0 ∧ (f (List.replicate 14 0)).payload.length ≠ 15 ∧
    field (beatOf 6 1).payload 0 1 ≠ (frame .beat 5 0).origin ∧
    (field (beatOf 5 3).payload 1 1 ≠ 1 ∧ field (beatOf 5 3).payload 1 1 ≠ 2) ∧
    field (f [5, 1, 0, 0, 49, 3, 0, 0, 0, 0, 0, 9, 1, 0, 0]).payload 3 2 < 50 ∧
    1000 < field (f [5, 1, 0, 3, 233, 3, 0, 0, 0, 0, 0, 9, 1, 0, 0]).payload 3 2 ∧
    7 < field (f [5, 1, 0, 0, 100, 8, 0, 0, 0, 0, 0, 9, 1, 0, 0]).payload 5 1 := by decide

/-- TerminusChoiceIsTheFirstCandidate. -/
theorem witness_choice : (running .terminus).isTerminus = true ∧ inView.isTerminus = false ∧
    inView.terminusChoice = .terminus 20 .east 2 ∧ (running .roadside).terminusChoice = .none := by decide

/-! Line Time. -/

/-- CarriesCountOrAreWithheld: each pair of H and the pending carry, H at 0 and 1. -/
theorem witness_carry : (running .roadside).node = .running ∧ scanning.node = .scanning ∧
    (running .roadside).time.k = some 171798692 ∧ (171798692 : BitVec 32) ≠ 0 ∧
    (running .roadside).time.holdback = 0 ∧ (running .roadside).time.carry = false ∧
    (let t := { (running .roadside).time with carry := true, holdback := 1 }; 0 < t.holdback ∧ t.carry = true) ∧
    State.reset.node ≠ .scanning ∧ State.reset.node ≠ .running := by decide

/-- MergeByTimeStateAndGrade: the differences at the edges of the window, from each kind of source. -/
theorem witness_merge :
    let d (ts lt : LTime) : Int := (ts + BitVec.ofNat 48 (1 * 30) - lt).toInt
    (running .roadside).time.settled = false ∧ (node57 0 4).time.settled = true ∧ 0 < d 0 29 ∧ d 0 30 = 0 ∧
    d 0 70 = -40 ∧ d 0 71 = -41 ∧ d 10 0 = 40 ∧ d 11 0 = 41 ∧ d 1971 0 = 2001 ∧ (-d 0 10000031) = 10000001 ∧
    (node57 0 4).time.grade < (heard 6 0).grade - 1 ∧ (heard 5 0).grade - 1 = (node57 0 4).time.grade ∧
    (heard 4 0).grade - 1 < (node57 0 4).time.grade ∧ (heard 4 0).settled = true ∧
    { heard 4 0 with settled := false }.settled = false := by decide

/-- TimersOfLineTime. -/
theorem witness_time : let t := (running .terminus).time
    { t with gradeTimer := timer }.gradeTimer ≠ none ∧ t.gradeTimer = none ∧ (running .terminus).node = .running ∧
    (config .terminus).role = .terminus ∧ (config .terminus).timeInput = true ∧
    { config .terminus with timeInput := false }.timeInput = false ∧ (config .roadside).role = .roadside ∧
    scanning.node = .scanning ∧ { t with lapse := timer }.lapse ≠ none ∧ t.lapse = none ∧
    { t with lock := timer }.lock ≠ none ∧ t.lock = none := by decide

/-- PulsesSetTheTime: a pending value at each edge of the window, with the node SETTLED and not. -/
theorem witness_pulse : let s := running .terminus
    let d (v lt : LTime) : Int := (v - lt).toInt
    ¬ (scanning.node = .running) ∧ s.node = .running ∧ s.cfg.role = .terminus ∧ s.cfg.timeInput = true ∧
    { s.time with lock := timer }.lock ≠ none ∧ s.time.lock = none ∧ s.time.value = none ∧
    { s.time with value := some 7 }.value = some 7 ∧ (node57 0 4).time.settled = true ∧ s.time.settled = false ∧
    d 41 0 = 41 ∧ d 40 0 = 40 ∧ d 0 40 = -40 ∧ d 0 41 = -41 ∧ (-d 0 10000001) = 10000001 := by decide

/-! Input Watch. -/

/-- FilteredLevelsFollowTheirPins: a pin that leaves the filtered level and one that returns; the end of a wait told and not
told, of a departing and of a returning line. -/
theorem witness_levels :
    let v : LevelState := { pin := true, filtered := false, wait := timer }
    let s := { running .roadside with inputs := { State.reset.inputs with hookA := v } }
    (State.reset.inputs.line .hookA).pin = false ∧ ¬ (State.reset.node = .scanning ∨ State.reset.node = .running) ∧
    s.node = .running ∧ (s.inputs.line .hookA).wait ≠ none ∧
    (s.inputs.line .hookA).pin ≠ (s.inputs.line .hookA).filtered ∧ s.watched .hookA = true ∧
    s.watched .powerWarn = true ∧ scanning.node = .scanning ∧ s.watched (.contact 5) = true ∧
    { s with cfg := { s.cfg with watch := 0 } }.watched .hookA = false ∧
    (s.inputs.line .hookA).pin ≠ s.cfg.resting.getLsbD (lineBit .hookA) ∧
    (s.inputs.line .hookA).pin = ({ s.cfg with resting := 1 } : Config).resting.getLsbD (lineBit .hookA) := by decide

/-- PulsesAreCountedInWindows: an edge 2 ms after the last and one period earlier; a history of one count; a value at
65,535 and above. -/
theorem witness_pulses : let s := running .roadside
    (pulseGet s.inputs.pulses .wind).lastEdge = none ∧ 2000 ≤ (50000 - 0) * 1000000 / referenceHz s.cfg.reference ∧
    ¬ 2000 ≤ (49999 - 0) * 1000000 / referenceHz s.cfg.reference ∧ (pulseGet s.inputs.pulses .rain).window = none ∧
    ({ count := 9, lastEdge := none, window := timer, history := [] } : PulseState).window ≠ none ∧
    State.reset.node ≠ .running ∧ s.cfg.services.weather = true ∧ Config.initial.services.weather = false ∧
    ([65535].take 1).sum * 256 / (1 * 256) = 65535 ∧ 65535 < ([65536].take 1).sum * 256 / (1 * 256) := by decide

/-! Calls. -/

/-- A call entry of phone A in a state, with the far node 20 on EAST and every timer running. -/
def call (st : CallState) : CallEntry :=
  { CallEntry.fresh ⟨10, 1⟩ (.phone .phoneA) (some 20) (some .east) st with
      attemptTimer := timer, silenceTimer := timer, keepTimer := timer, ringTimer := timer,
      playout := { Playout.initial with timer := timer, lastPlayed := some 65535 } }

/-- The same entry at a terminus, with a console as its near end. -/
def consoleCall (st : CallState) : CallEntry := { call st with near := .console }

/-- A node in RUNNING with one call entry. -/
def withCall (s : State) (c : CallEntry) : State :=
  { s with calls := { s.calls with table := #v[some c, none, none, none, none, none, none, none] } }

/-- AttemptsGoOnAtEachExpiry: the fifth attempt with and without another terminus, the tenth, and others. -/
theorem witness_attempt :
    let other : ReachEntry := { terminus20 with node := 21 }
    let s := { inView with reach := { inView.reach with west := [other] } }
    let c (n : Nat) : CallEntry := { call .asking with attempts := n }
    (withCall s (c 4)).call 0 = some (c 4) ∧ (c 4).attemptTimer ≠ none ∧ (c 4).attempts ≠ 5 ∧ (c 9).attempts < 10 ∧
    10 ≤ (c 11).attempts ∧
    (withCall s (c 5)).alternateChoice (some 20) = .terminus 21 .west 2 ∧
    (withCall inView (c 5)).alternateChoice (some 20) = .none ∧ (c 10).attempts = 10 ∧ (c 5).far = some 20 ∧
    (call .resuming).state = .resuming ∧ (call .talking).state ≠ .asking ∧ (call .talking).state ≠ .resuming := by decide

/-- TimersOfARoadsideEntry. -/
theorem witness_roadside_timers : let c := call .talking
    (withCall inView c).call 0 = some c ∧ c.near = .phone .phoneA ∧ c.silenceTimer ≠ none ∧ c.state = .talking ∧
    c.far.bind (withCall inView c).terminusPresence = some .east ∧
    c.far.bind (withCall (running .roadside) c).terminusPresence = none ∧ (call .waiting).state = .waiting ∧
    (call .waiting).keepTimer ≠ none ∧ (call .ringing).state = .ringing ∧ (call .ringing).ringTimer ≠ none := by decide

/-- TimersOfATerminusEntry. -/
theorem witness_terminus_timers : let c := consoleCall .connected
    (withCall (running .terminus) c).call 0 = some c ∧ c.far = some 20 ∧ c.silenceTimer ≠ none ∧
    (consoleCall .queued).keepTimer ≠ none ∧ (consoleCall .queued).state = .queued ∧
    (consoleCall .calling).ringTimer ≠ none ∧ (consoleCall .calling).attemptTimer ≠ none ∧
    (consoleCall .calling).state = .calling ∧ (consoleCall .calling).port = some .east := by decide

/-- A release with n CRELs to go. -/
def release (n : Nat) : Release :=
  { ref := ⟨10, 1⟩, far := 20, port := some .east, cause := .clear, left := n, timer := timer }

/-- ReleasesSendThreeCrels: lists of 7 and of 8, a release in the last place. -/
theorem witness_releases : (release 2).port = some .east ∧ (release 2).timer ≠ none ∧ (release 2).left = 2 ∧
    (release 1).left = 1 ∧ { release 1 with timer := none }.timer = none ∧
    (let l (n : Nat) := List.replicate n (release 2); (l 7).length < 8 ∧ ¬ (l 8).length < 8 ∧
      l 8 = l 7 ++ release 2 :: [] ∧ (l 7).length = ((7 : Fin 8) : Nat)) := by decide

/-- PlayoutMovesOnByOnePosition: the expected frame at the turn of the sequence; a gap with three frames; two frames and
one repeat behind; two repeats behind. -/
theorem witness_playout : let c := call .talking
    let f (n : BitVec 16) : VoiceFrame := ⟨n, []⟩
    (withCall inView c).call 0 = some c ∧ c.playout.timer ≠ none ∧ c.playout.lastPlayed = some 65535 ∧
    (f 0).seq = (65535 : BitVec 16) + 1 ∧ (f 1).seq ≠ (65535 : BitVec 16) + 1 ∧ 2 ≤ [f 2, f 3].length ∧
    (∀ x ∈ [f 1, f 2].head?, x.seq ≠ (65535 : BitVec 16) + 1) ∧ [f 1, f 2].length < 3 ∧ c.playout.repeats < 2 ∧
    2 ≤ ({ c.playout with repeats := 2 } : Playout).repeats ∧
    ((withCall inView c).calls.phone .phoneA).tone = none ∧ (consoleCall .connected).near = .console ∧
    inView.equip.outbound.length < 32 ∧ inView.calls.pendingMsgs = [] := by decide

/-- VoiceIsSentInSequence: a TALKING entry of phone A, a WAITING one, a CONNECTED one of a terminus. -/
theorem witness_voice : let c := call .talking; let d := consoleCall .connected
    (withCall inView c).node = .running ∧ (withCall inView c).call 0 = some c ∧ c.far = some 20 ∧ c.port = some .east ∧
    (List.replicate 40 (0 : Byte)).length = 40 ∧ (withCall inView c).boundCall .phoneA = some 0 ∧
    (withCall inView c).boundCall .phoneB = none ∧ (call .waiting).state ≠ .talking ∧
    (withCall (running .terminus) d).cfg.role = .terminus ∧
    (∀ f : Fin 8, ∀ x ∈ (withCall (running .terminus) d).call f, x.ref = d.ref → f = 0) ∧
    (∀ f : Fin 8, ∀ x ∈ (withCall (running .terminus) d).call f, x.ref = ⟨10, 2⟩ → x.state ≠ .connected) := by decide

/-- CadencesStepThroughTheirPeriods: the last period of each cadence. -/
theorem witness_cadence : let q (t : Tone) (n : Nat) : PhonePort :=
      { PhonePort.initial with tone := some t, tonePeriod := n, toneTimer := timer, ringTimer := timer }
    (q .asking 1).toneTimer ≠ none ∧ (q .asking 1).tone = some .asking ∧ (q .waiting 3).tone = some .waiting ∧
    (q .fault 1).tonePeriod = 1 ∧ (q .waiting 3).tonePeriod = 3 ∧ PhonePort.initial.tone = none ∧
    (q .fault 0).ringTimer ≠ none ∧ (q .fault 0).ring = false ∧ { q .fault 0 with ring := true }.ring = true ∧
    PhonePort.initial.ringTimer = none ∧ PhonePort.initial.tone ≠ some .clear := by decide

/-- A terminus that hears nothing and has one port LIT. -/
def endTerminus : State := { running .terminus with west := LinePort.initial }

/-- TheCentreRingsAndHangsUp: a free place and channel with and without a node port; the channels taken; each state of an
entry hung up; the pending list with the queue one below full and full. -/
theorem witness_ring_out : let s := endTerminus
    s.node = .running ∧ s.cfg.role = .terminus ∧ s.cfg.services.phone = true ∧ s.channelsHeld < s.cfg.consoleChannels ∧
    s.freeCallPlace = some 0 ∧ s.nodePort 20 = some .east ∧ (running .terminus).nodePort 20 = none ∧
    (let t := { withCall s (consoleCall .connected) with cfg := { s.cfg with consoleChannels := 1 } }
     t.cfg.consoleChannels ≤ t.channelsHeld ∧ t.callByRef ⟨10, 1⟩ = some 0 ∧ t.callByRef ⟨10, 2⟩ = none) ∧
    (consoleCall .calling).state = .calling ∧ (consoleCall .queued).state = .queued ∧
    (List.replicate 31 (⟨1, []⟩ : CabMsg)).length < 32 ∧ 32 ≤ (List.replicate 32 (⟨1, []⟩ : CabMsg)).length := by decide

/-- TheCentreRingsAndHangsUp: messages for the centre with 31 and 32 in the outbound queue, and 0, 15 and 16 in the pending list;
the lengths of the two and the messages dropped afterwards (R92). -/
theorem test_call_messages :
    let m : CabMsg := ⟨0x8D, [0, 0, 20, 1]⟩
    let after (out waiting : Nat) : Nat × Nat × Counter :=
      let t := ({ inView with equip := { inView.equip with outbound := List.replicate out m },
                              calls := { inView.calls with pendingMsgs := List.replicate waiting m } } : State).callMessage m
      (t.equip.outbound.length, t.calls.pendingMsgs.length, t.calls.signallingDrop)
    after 31 0 = (32, 0, 0) ∧ after 32 0 = (32, 1, 0) ∧ after 31 1 = (31, 2, 0) ∧ after 32 15 = (32, 16, 0) ∧
    after 32 16 = (32, 16, 1) ∧ after 0 16 = (0, 16, 1) := by decide

/-- AnswersMoveARoadsideEntry. -/
theorem witness_answer : let s := withCall inView (call .asking)
    s.isTerminus = false ∧ s.callMatch ⟨10, 1⟩ 20 = some 0 ∧ s.call 0 = some (call .asking) ∧
    (call .asking).near = .phone .phoneA ∧ (call .asking).state = .asking ∧ (call .resuming).state = .resuming ∧
    (call .waiting).state = .waiting ∧
    ¬ ((call .talking).state = .asking ∨ (call .talking).state = .resuming) ∧ (call .talking).state ≠ .waiting := by decide

/-! The Toll Spool and Toll Delivery. -/

/-- A spool whose sector 62 is FILLING, with a batch of sector 5. -/
def spool : Spool :=
  { Spool.initial with sectors := [(5, ⟨.reclaim, false, false, false⟩), (62, ⟨.filling, false, false, false⟩)],
                       fillPoint := some 62, generation := 7, nextSeq := 1, batch := some ⟨[5], true, none⟩ }

/-- A node in RUNNING with a spool. -/
def withSpool (p : Spool) : State := { running .roadside with spool := p }

/-- A submission with a stamp. -/
def submission (seq : Nat) : HeldSubmission :=
  { tag := 1, seq := seq, gantry := 2, lane := 3, body := List.replicate 40 0, stamp := some ⟨0, 0, false⟩ }

/-- An erase of sector 5 in a phase. -/
def erase (ph : ErasePhase) : EraseRun := { sectors := [5], phase := ph, gathered := 0, since := 0 }

/-- POWER-WARN departed. -/
def failing (s : State) : State := { s with inputs := { s.inputs with powerWarn := ⟨true, true, none⟩ } }

/-- SubmissionsAreJudgedInOrder: one state for each answer, and the four ways a submission is taken. -/
theorem witness_submit : let s := withSpool spool
    let op (o : ArrayOp) (e : Option EraseRun) : Spool := { spool with op := o, erase := e }
    s.node = .running ∧ (List.replicate 40 (0 : Byte)).length = 40 ∧ s.spool.answer = none ∧ s.cfg.services.toll = true ∧
    { s.cfg with services := ⟨false, false, false, false⟩ }.services.toll = false ∧ s.spool.markFault = false ∧
    ¬ (s.inputs.powerWarn.filtered ≠ s.cfg.resting[8]) ∧ s.cfg.watch[8] = true ∧
    (failing s).inputs.powerWarn.filtered ≠ s.cfg.resting[8] ∧ s.spool.held = none ∧ s.spool.genJob = none ∧
    Spool.initial.filling = none ∧ s.spool.filling = some 62 ∧ s.spool.op = .idle ∧ s.spool.nextSlot = some 1984 ∧
    (op .idle (some (erase .active))).erase = some (erase .active) ∧ (erase .suspended).phase = .suspended ∧
    (op (.markProgram (.bad 3)) none).op ≠ .idle ∧ scanning.node = .scanning := by decide

/-- RecordProgramsEndOrAreTriedAgain: the last sequence of a generation and the one before it; a retry and a first program
with a next slot, with none, and with POWER-WARN departed. -/
theorem witness_record_program :
    let s (n : Nat) (b : Bool) : State :=
      withSpool { spool with op := .recordProgram 1984 b, held := some (submission n) }
    let voided (t : State) : State :=
      { t with spool := { ({ t.spool with slots := keySet t.spool.slots 1984 .void, op := .idle }).setSector 62
          { t.spool.sector 62 with weak := true, weakMark := true } with programFaults := bump t.spool.programFaults } }
    (s 4294967294 false).spool.op = .recordProgram 1984 false ∧
    (s 4294967294 false).spool.held = some (submission 4294967294) ∧ (submission 1).stamp = some ⟨0, 0, false⟩ ∧
    (submission 4294967294).seq < 4294967295 ∧ (submission 4294967295).seq = 4294967295 ∧
    (s 1 true).spool.op = .recordProgram 1984 true ∧ (voided (s 1 false)).spool.nextSlot = some 1985 ∧
    (voided (s 1 false)).powerFailing = false ∧ (voided (failing (s 1 false))).powerFailing = true := by decide

/-- The slots of sector 62, all in one state. -/
def full62 (x : SlotState) : List (Nat × SlotState) := (List.range 32).map fun k => (1984 + k, x)

/-- SectorsAreTakenInRingOrder: sector 62 FILLING with an EMPTY slot, and without one, live or not, weak or not; the next
EMPTY sector at the turn of the ring. -/
theorem witness_ring : let s := withSpool spool
    keysRising s.spool.sectors = true ∧ s.spool.filling = some 62 ∧ (s.spool.sector 62).state = .filling ∧
    keyGet s.spool.slots (32 * 62 + 31) = none ∧ (s.spool.sector ((62 + 1 + 0) % 63)).state = .empty ∧
    (∀ k, k < 32 → keyGet (full62 .void) (32 * 62 + k) ≠ none) ∧
    (∃ e ∈ full62 (.filled ⟨7, 1⟩), e.1 / 32 = 62) ∧ (∀ e ∈ full62 .void, e.2.filledPos = none) ∧
    (s.spool.sector 62).weak = false := by decide

/-- TheArrayArbitersOrder: each item of the order alone. -/
theorem witness_arbiter : let s := withSpool spool
    let slots := [(1984, SlotState.filled ⟨7, 1⟩)]
    s.node = .running ∧ s.spool.op = .idle ∧ s.spool.erase = none ∧ (erase .active).phase = .active ∧
    keyGet s.spool.slots (32 * 62 + 0) = none ∧ s.spool.filling = some 62 ∧ ¬ s.powerFailing = true ∧
    (failing s).powerFailing = true ∧
    ({ spool with genJob := some ⟨8, .eraseSector⟩ } : Spool).genJob = some ⟨8, .eraseSector⟩ ∧
    ([⟨7, 9⟩, ⟨7, 1⟩] : List Position) = [⟨7, 9⟩] ++ [⟨7, 1⟩] ∧ keyGet slots 1984 = some (.filled ⟨7, 1⟩) ∧
    (∀ j, j < 1984 → keyGet slots j ≠ some (.filled ⟨7, 1⟩)) ∧ (∀ e ∈ slots, e.2 ≠ .filled ⟨7, 9⟩) ∧
    s.spool.reads = [] ++ [] ∧ s.spool.batch = some ⟨[5], true, none⟩ := by decide +kernel

/-- TheArrayArbitersOrder: stores that rise; no pending mark; sector 3 with both marks pending, the lowest; two DELIVERED slots with
pending marks, the lower position in the higher slot. -/
theorem witness_arbiter_marks :
    let marked (p : Spool) (n : Nat) : Prop := (p.sector n).weakMark = true ∨ (p.sector n).badMark = true
    let p : Spool := { spool with sectors := [(3, ⟨.bad, true, true, true⟩), (62, ⟨.filling, true, true, false⟩)] }
    let slots := [(5, SlotState.delivered ⟨7, 2⟩ true), (9, .delivered ⟨7, 1⟩ true)]
    (withSpool spool).StoresRising ∧ (withSpool p).StoresRising ∧ (withSpool { spool with slots := slots }).StoresRising ∧
    (∀ n, ¬ marked spool n) ∧ (∀ n, n < 3 → ¬ marked p n) ∧ marked p 3 ∧
    keyGet slots 9 = some (.delivered ⟨7, 1⟩ true) ∧ (∀ e ∈ slots, e.2 = .delivered ⟨7, 1⟩ true ∨ posLt ⟨7, 1⟩ ⟨7, 2⟩ = true) := by
  refine ⟨by unfold State.StoresRising; decide, by unfold State.StoresRising; decide, by unfold State.StoresRising; decide,
    ?_, by decide, by decide, by decide, by decide⟩
  intro n
  simp only [Spool.sector, spool, keyGet]
  repeat' split
  all_goals decide

/-- TheArrayArbitersOrder: a submission held goes to the first EMPTY slot; a read of a record that is not FILLED is passed over for
the next; a WEAK mark goes before a BAD one; of slot marks the lowest position goes first. -/
theorem test_arbiter_grants :
    let op (p : Spool) : ArrayOp := (withSpool p).pump.spool.op
    let taken : Spool := { spool with slots := [(1984, .filled ⟨7, 1⟩)] }
    op { taken with held := some (submission 2) } = .recordProgram 1985 false ∧
    op { taken with reads := [⟨7, 9⟩, ⟨7, 1⟩] } = .read ⟨7, 1⟩ 1984 ∧
    op { spool with sectors := [(3, ⟨.bad, true, true, true⟩), (62, ⟨.filling, true, true, false⟩)] } = .markProgram (.weak 3) ∧
    op { spool with slots := [(5, .delivered ⟨7, 2⟩ true), (9, .delivered ⟨7, 1⟩ true)] } = .markProgram (.delivered 9) := by
  decide

/-- SuspensionsCloseTimersAndAnswers. -/
theorem witness_suspension : (erase .suspending).phase = .suspending ∧ (erase .active).phase ≠ .suspending ∧
    (⟨[5], false, timer⟩ : Batch).timer ≠ none ∧ (⟨[5], true, none⟩ : Batch).timer = none ∧
    ({ spool with answer := some ⟨0x81, []⟩ } : Spool).answer = some ⟨0x81, []⟩ ∧ spool.answer = none ∧
    (List.replicate 31 (⟨1, []⟩ : CabMsg)).length < 32 ∧ 32 ≤ (List.replicate 32 (⟨1, []⟩ : CabMsg)).length := by decide

/-- A window entry of a position. -/
def entry (q : Position) (sent due : Bool) : WindowEntry :=
  { pos := q, record := none, sent := sent, due := due, sendLT := 0, sentAt := 0 }

/-- A record of a position. -/
def record (q : Position) : TollRecord :=
  { pos := q, stamp := 0, grade := 0, settled := false, gantry := 0, lane := 0, body := List.replicate 40 0 }

/-- MarksAndReadsEnd: a DELIVERED mark of slot 5, a WEAK and a BAD mark, a read found in the window and not. -/
theorem witness_marks :
    let s : State := { withSpool { spool with slots := [(5, .delivered ⟨7, 1⟩ true)] } with
      array := { TollArray.erased with slots := [(5, ⟨some (record ⟨7, 1⟩), true, false⟩)] }
      sending := { Sending.initial with window := [entry ⟨7, 1⟩ true false] } }
    let p (o : ArrayOp) : Spool := { spool with op := o }
    (p (.markProgram (.delivered 5))).op = .markProgram (.delivered 5) ∧
    keyGet s.spool.slots 5 = some (.delivered ⟨7, 1⟩ true) ∧
    keyGet s.array.slots 5 = some ⟨some (record ⟨7, 1⟩), true, false⟩ ∧
    (p (.markProgram (.weak 62))).op = .markProgram (.weak 62) ∧ (p (.markProgram (.bad 0))).op = .markProgram (.bad 0) ∧
    (p (.read ⟨7, 1⟩ 5)).op = .read ⟨7, 1⟩ 5 ∧
    (keyGet s.array.slots 5).bind (·.record) = some (record ⟨7, 1⟩) ∧ (∃ e ∈ s.sending.window, e.pos = ⟨7, 1⟩) ∧
    ¬ (∃ e ∈ s.sending.window, e.pos = ⟨7, 2⟩) := by decide

/-- MarksAndReadsEnd: FULL sectors with nothing live, not weak and weak, one that holds a FILLED slot and one that is not FULL. -/
theorem witness_reclaim :
    let p (weak : Bool) (st : SlotState) : Spool :=
      { spool with sectors := [(3, ⟨.full, weak, false, false⟩)], slots := [(96, st)] }
    keysRising (p false .void).sectors = true ∧ ((p false .void).sector 3).state = .full ∧
    ((p false .void).sector 3).weak = false ∧ ((p true .void).sector 3).weak = true ∧ ((p false .void).sector 4).state ≠ .full ∧
    ¬ (∃ e ∈ (p true .void).slots, (e.1 : Nat) / 32 = 3 ∧ e.2.filledPos.isSome = true) ∧
    (∃ e ∈ (p false (.filled ⟨7, 1⟩)).slots, e.1 / 32 = 3 ∧ e.2 = .filled ⟨7, 1⟩) ∧
    (∃ e ∈ (p false (.delivered ⟨7, 1⟩ true)).slots, e.1 / 32 = 3 ∧ e.2 = .delivered ⟨7, 1⟩ true) := by decide

/-- ErasesEnd: an ACTIVE and a SUSPENDED erase of sector 5, which checks erased and does not. -/
theorem witness_erase : let s := withSpool { spool with erase := some (erase .active) }
    s.spool.erase = some (erase .active) ∧ (erase .active).phase ≠ .suspended ∧ (erase .suspended).phase = .suspended ∧
    keysRising s.array.headers = true ∧ keysRising s.array.slots = true ∧ keysRising s.array.marks = true ∧
    keysRising s.spool.slots = true ∧ keysRising s.spool.sectors = true ∧ 5 ∈ (erase .active).sectors ∧
    (∀ i ∈ ([4] : List (Fin 63)), (i : Nat) ≠ 5) ∧ (∃ i ∈ ([5] : List (Fin 63)), (i : Nat) = 5) ∧
    62 ∉ (erase .active).sectors := by decide +kernel

/-- DeliverySendsAgain. -/
theorem witness_delivery : { Sending.initial with retry := timer }.retry ≠ none ∧ Sending.initial.retry = none ∧
    (entry ⟨7, 1⟩ true false).sent = true ∧ (entry ⟨7, 1⟩ true false).due = false ∧
    (entry ⟨7, 1⟩ false true).sent = false := by decide

/-- TacksActOnTheSteersWindow: the greatest ack point, one of generation 0, one not of the steer's terminus, and windows
with and without an entry it names. -/
theorem witness_tack : let f : Frame := { frame .tack 20 10 with payload := bytesBE 2 65535 ++ bytesBE 4 4294967295 }
    let d : Sending := { Sending.initial with steer := .via 20 .east, window := [entry ⟨65535, 4294967295⟩ true false] }
    (config .roadside).services.toll = true ∧ Config.initial.services.toll = false ∧ (65535 : Nat) < 65536 ∧
    f.payload.length = 6 ∧ d.steer = .via f.origin .east ∧ (∀ p, Sending.initial.steer ≠ .via f.origin p) ∧
    (∃ e ∈ d.window, (e.sent && decide (e.pos.gen = 65535) && decide (e.pos.seq ≤ 4294967295)) = true) ∧
    (frame .tack 20 10).payload.length ≠ 6 ∧
    (withSpool { spool with slots := [(9, .filled ⟨7, 1⟩)] }).spool.slotOf ⟨7, 1⟩ = some 9 ∧
    spool.slotOf ⟨7, 1⟩ = none := by
  refine ⟨by decide, by decide, by decide, by decide, by decide, (fun p h => nomatch h), by decide, by decide, by decide,
    by decide⟩

/-- RecordsAreJudgedAgainstTheirOrigin: each case against an entry that expects (7, 10). -/
theorem witness_judgement : let e : ReceiptEntry := ⟨⟨7, 9⟩, ⟨7, 10⟩⟩
    keyGet [(240, e)] 240 = some e ∧ keyGet [(240, e)] 239 = none ∧ (record ⟨7, 10⟩).pos = e.expected ∧
    ((⟨8, 1⟩ : Position) = ⟨8, 1⟩ ∧ (8 : Nat) ≠ e.expected.gen) ∧ (7 = e.expected.gen ∧ 9 < e.expected.seq) ∧
    ¬ (7 < e.expected.gen ∨ (7 = e.expected.gen ∧ 11 < e.expected.seq)) ∧ (⟨7, 11⟩ : Position) ≠ ⟨7, 10⟩ ∧
    (List.replicate 31 (⟨1, []⟩ : CabMsg)).length < 32 := by decide

/-! Signs. -/

/-- A node with a sign of 32 × 8 whose page 2 is READY and displayed, its pixel (31, 7) of colour 15. -/
def shown : State :=
  let s := running .roadside
  let r := s.pages.records.set 2 { PageRecord.initial with state := .ready, lit := 1, drive := 4 }
  { s with pages := { s.pages with pixels := [(16384 * 2 + 256 * 7 + 31, 15)], records := r },
           display := { s.display with page := some 2, frameTimer := some ⟨0, 200⟩ } }

/-- What the sign blocks keep holds of it. -/
theorem shown_sound : shown.SignSound := by
  refine ⟨⟨by decide, by decide⟩, ⟨by decide, by decide⟩, ?_⟩
  intro p h
  have : p = 2 := by revert h; revert p; decide
  subst this
  decide

/-- WritesChangeThePixelsTheyName: the last pixel of the row, its data bit and its rotated one; a source page that is READY,
one that is not. -/
theorem witness_writes : shown.SignSized ∧ shown.pages.PixelsSound ∧
    (shown.applyWrite 0 (.plane 7 3 15 .xor 7 0x01 [0xFF])).isSome = true ∧ (7 < 8) ∧ (15 < 16) ∧
    (shown.applyWrite 0 (.colour 7 3 0x01 15 [0x01])).isSome = true ∧ ([0xFF] : List Byte)[31 / 8 - 3]? = some 0xFF ∧
    (3 ≤ 31 / 8 ∧ 31 / 8 < shown.cfg.signWidth / 8 ∧ (0x01 : Byte).getLsbD (7 - 31 % 8) = true) ∧
    (2 : Fin 4) ≠ 0 ∧ (shown.pages.records[(2 : Fin 4)]).state = .ready ∧ (shown.pages.records[(3 : Fin 4)]).state ≠ .ready := by
  refine ⟨⟨by decide, by decide⟩, ⟨by decide, by decide⟩, ?_⟩
  decide

/-- A page record in LOADING, of an origin. -/
def loadingOf (a : Nat) : PageRecord :=
  { PageRecord.initial with state := .loading, loadId := some 9, origin := some a, port := some .west, timer := timer }

/-- LoadTimersAbortTheLoad: an origin with a node port, one without, and the node itself. -/
theorem witness_load_timer : (loadingOf 20).state = .loading ∧ (loadingOf 20).timer ≠ none ∧
    (loadingOf 20).loadId = some 9 ∧ (loadingOf 20).origin = some 20 ∧ inView.nodePort 20 = some .east ∧
    inView.nodePort 99 = none ∧ (loadingOf 99).port = some .west ∧ { loadingOf 99 with port := none }.port = none ∧
    (loadingOf 10).origin = some inView.cfg.number ∧ PageRecord.initial.state ≠ .loading := by decide

/-- A claim of the CENTRE on page 2. -/
def claim : Claim :=
  { claimant := .centre, page := 2, priority := 15, expiry := none, showAt := some 5, placedBy := some 20 }

/-- FrameEndsSelectDimAndReport: a claim due at LT 5 and not at 4; the level of each mode; each terminus choice. -/
theorem witness_frame_end : shown.display.frameTimer ≠ none ∧ State.reset.display.frameTimer = none ∧
    ((5 : LTime) - 5).toInt ≤ 0 ∧ ¬ ((5 : LTime) - 4).toInt ≤ 0 ∧ (shown.pages.records[claim.page]).state = .ready ∧
    shown.cfg.brightnessMode = .fixed ∧
    (let c : ReadingChannel := { ReadingChannel.initial with valid := true, value := 50 }
     ¬ ({ Config.initial with brightnessMode := .mapped }.brightnessMode = .fixed ∨ c.valid = false ∨ c.stale = true)) ∧
    Config.initial.breakpoints = [50, 200, 1000, 5000] ∧ Config.initial.bandLevels = [4, 8, 12, 16, 16] ∧
    shown.terminusChoice = .none ∧ inView.terminusChoice = .terminus 20 .east 2 ∧
    (running .terminus).terminusChoice = .self := by decide

/-- TheDisplayedPageIsNeverWritten: a fragment for the displayed page and a frame end. -/
theorem witness_displayed : shown.SignSound ∧ shown.display.page = some 2 ∧ (∃ t, exec .frameEnd shown = .next t) ∧
    ∃ t, exec (.sendSign 10 10 1 [2, 1, 0, 0, 5, 0]) shown = .next t := ⟨shown_sound, by decide, ⟨_, rfl⟩, _, rfl⟩

/-! Weather. -/

/-- ReadingsFillTheirChannel: channels 7 and 8; a value at the least, one below, at the greatest and one above. -/
theorem witness_reading : let range : Int × Int := (-5, 9)
    (running .roadside).node = .running ∧ (7 : Byte).toNat = ((7 : Fin 8) : Nat) ∧ 8 ≤ (8 : Byte).toNat ∧
    range.1 ≤ range.2 ∧ (-5 : BitVec 16).toInt = range.1 ∧ (-6 : BitVec 16).toInt < range.1 ∧
    (9 : BitVec 16).toInt = range.2 ∧ range.2 < (10 : BitVec 16).toInt ∧ scanning.node = .scanning ∧
    State.reset.node ≠ .running ∧ State.reset.node ≠ .scanning ∧ { ReadingChannel.initial with timer := timer }.timer ≠ none ∧
    ReadingChannel.initial.timer = none := by decide

/-- An item of the gathering. -/
def item (r : Fin 8) : GatherItem := { rule := r, kind := 1, severity := 1, lifetime := 600, withdraw := false }

/-- RulesMoveAsTheTableGives: persistence 1 and 2, each state, thresholds met and missed by 1, gatherings of 0, 6 and 7. -/
theorem witness_rules : RuleWork.initial.state = .clear ∧ RuleConfig.unused.persistence = 1 ∧
    1 + 1 = { RuleConfig.unused with persistence := 2 }.persistence ∧ (RuleState.clearing 1) ≠ .raised ∧
    (let r := { RuleConfig.unused with raiseAt := 9, clearAt := 7 }
     r.sense = .above ∧ r.raiseAt ≤ 9 ∧ ¬ r.raiseAt ≤ 8 ∧ 6 < r.clearAt ∧ ¬ 7 < r.clearAt) ∧
    (∃ x ∈ [item 0], x.rule = (item 0).rule) ∧ [item 0] ≠ [] ∧ (∀ x ∈ [item 0], x.rule ≠ (item 1).rule) ∧
    (List.map item [0, 1, 2, 3, 4, 5]).length + 1 < 8 ∧
    (List.map item [0, 1, 2, 3, 4, 5, 6]).length + 1 = 8 := by decide

/-- RenewalsWindowsAndReports: a usable source and one without a value, a claim and none, each pair of zones. -/
theorem witness_weather : let s := running .roadside
    let t := { s with weather := { s.weather with values := ⟨some 4, none⟩ } }
    { RuleWork.initial with renewal := timer }.renewal ≠ none ∧ RuleWork.initial.renewal = none ∧
    t.sourceUsable RuleConfig.unused = true ∧ s.sourceUsable RuleConfig.unused = false ∧ RuleConfig.unused.claim = none ∧
    { RuleConfig.unused with claim := some (3, 15) }.claim = some (3, 15) ∧ s.node = .running ∧
    { s.weather with windowTimer := timer }.windowTimer ≠ none ∧ ((s.port .east).state = .lit ∧ s.cfg.eastZone ≠ 0) ∧
    ¬ ((endTerminus.port .west).state = .lit ∧ s.cfg.westZone ≠ 0) ∧
    ¬ ((s.port .east).state = .lit ∧ { s.cfg with eastZone := 0 }.eastZone ≠ 0) ∧
    { s.weather with reportTimer := timer }.reportTimer ≠ none ∧ s.terminusChoice = .none ∧
    inView.terminusChoice = .terminus 20 .east 2 ∧ (running .terminus).terminusChoice = .self := by decide

/-! The equipment port and the start. -/

/-- ThePortAnswersAndTransfers: origins 1 and 240 known and not; a message to send and none; bytes that fail a check. -/
theorem witness_port : let e : ReceiptEntry := ⟨⟨7, 9⟩, ⟨7, 10⟩⟩
    scanning.node = .scanning ∧ (running .terminus).node = .running ∧ (config .terminus).role = .terminus ∧
    (240 : Byte) ≠ 0 ∧ (240 : Byte).toNat ≤ 240 ∧ keyGet [(240, e)] (240 : Byte).toNat = some e ∧
    keyGet [(240, e)] (1 : Byte).toNat = none ∧ (running .roadside).equip.transfer = none ∧
    (running .roadside).equip.outbound = [] ∧ parseInbound [] = none ∧
    parseInbound (CabMsg.wire ⟨3, [0]⟩) ≠ none ∧ State.reset.node = .loading := by decide +kernel

/-- SignFramesGoByTheirTarget: broadcast, the own number, a node with a node port and one without, and each field one
outside its range. -/
theorem witness_sign_frame : let s := running .terminus
    s.node = .running ∧ s.cfg.role = .terminus ∧ (10 : Byte).toNat = s.cfg.number ∧ (240 : Byte).toNat ≤ 240 ∧
    (240 : Byte).toNat ≠ s.cfg.number ∧ endTerminus.nodePort (240 : Byte).toNat = some .east ∧
    s.nodePort (240 : Byte).toNat = none ∧ (List.replicate 256 (0 : Byte)).length ≤ 256 ∧
    ¬ ((8 : Byte) = 7 ∨ (8 : Byte) = 10) ∧ ¬ ((241 : Byte).toNat ≤ 240) ∧ scanning.node = .scanning ∧
    (running .roadside).cfg.role = .roadside := by decide +kernel

/-- NodeReportsGoInFiveParts. -/
theorem witness_report : { (running .roadside).equip with statusTimer := timer }.statusTimer ≠ none ∧
    (running .roadside).equip.statusTimer = none ∧ (running .roadside).terminusChoice = .none ∧
    (running .terminus).terminusChoice = .self ∧ inView.terminusChoice = .terminus 20 .east 2 := by decide

/-- StartsReturnEveryItem: each operation that a start can cut. -/
theorem witness_start : (withSpool spool).spool.op = .idle ∧ (withSpool spool).spool.erase = none ∧
    ({ spool with op := .recordProgram 0 false } : Spool).op = .recordProgram 0 false ∧
    ({ spool with op := .read ⟨7, 1⟩ 5 } : Spool).op = .read ⟨7, 1⟩ 5 ∧
    ({ spool with op := .markProgram (.delivered 5) } : Spool).op = .markProgram (.delivered 5) ∧
    ({ spool with op := .markSectorErase } : Spool).op = .markSectorErase := by decide

/-- An image of the bytes after its length. -/
def imageOf (b : List Byte) : List Byte :=
  let l := bytesBE 2 b.length ++ b
  l ++ bytesBE 2 (crc16 l).toNat

/-- ImagesAreAcceptedOrRejected: the shortest image, of node 240; numbers 0 and 241, a role 3, a false check. -/
theorem witness_image : let img := imageOf [240, 2, 15]
    State.reset.node = .loading ∧ (running .roadside).node ≠ .loading ∧ natBE (img.take 2) = 3 ∧
    natBE (img.take 2) + 4 ≤ img.length ∧
    (img.drop 5).take 2 = bytesBE 2 (crc16 (img.take 5)).toNat ∧ natBE ((img.drop 2).take 1) = 240 ∧
    natBE ((img.drop 3).take 1) = 2 ∧ (parseImage img).isSome = true ∧ parseImage (imageOf [0, 2, 15]) = none ∧
    parseImage (imageOf [241, 2, 15]) = none ∧ parseImage (imageOf [1, 3, 15]) = none ∧
    parseImage (imageOf [1, 2]) = none ∧ parseImage [0, 3, 240, 2, 15, 0, 0] = none := by decide +kernel

/-- A default of 12.5 and a clamped field: BEAT interval 100 ms when absent, 1,000 ms for 1,001 (R27, R200). -/
theorem test_image_interval : (parseImage (imageOf [57, 1, 0])).map (·.beatInterval) = some 100 ∧
    (parseImage (imageOf [57, 1, 0, 3, 233])).map (·.beatInterval) = some 1000 := by decide +kernel

/-- An array with one FILLED slot, of position (9, 4), a mark of generation 11, and USE set in sector 0. -/
def scanned : State :=
  { scanning with
    array := { headers := [(0, ⟨true, false, false⟩)], slots := [(0, ⟨some (record ⟨9, 4⟩), true, false⟩)], marks := [(0, 11)] }
    spool := { Spool.initial with scanReading := true } }

/-- TheScanAndItsGenerationMark: the array above before its scan; a generation mark being programmed, first and second;
the mark sector being erased. -/
theorem witness_scan : scanned.StoresRising ∧ scanned.spool.scanReading = true ∧ scanned.spool.op = .idle ∧
    keyGet scanned.array.marks 0 = some 11 ∧
    keyGet scanned.array.slots 0 = some ⟨some (record ⟨9, 4⟩), true, false⟩ ∧
    keyGet scanned.array.slots 1 = none ∧ scanned.array.erasedPlace 0 = some 1 ∧ scanned.array.erasedPlace 31 = some 31 ∧
    scanned.array.erasedPlace 32 = none ∧ scanned.powerFailing = false ∧ Spool.initial.scanReading = false ∧
    ({ spool with op := .genMark 31, genJob := some ⟨8, .program 31 false⟩ } : Spool).op = .genMark 31 ∧
    (⟨8, .program 31 true⟩ : GenJob).stage = .program 31 true ∧
    ({ spool with op := .markSectorErase, genJob := some ⟨8, .eraseSector⟩ } : Spool).genJob = some ⟨8, .eraseSector⟩ := by
  refine ⟨⟨by decide, by decide, by decide, by decide, by decide⟩, ?_⟩
  decide

/-- The scan of that array: generation 12, sector 0 FILLING, the record FILLED (R120, R121, R122). -/
theorem test_scan : scanned.scan.spool.generation = 12 ∧ scanned.scan.spool.fillPoint = some 0 ∧
    keyGet scanned.scan.spool.slots 0 = some (.filled ⟨9, 4⟩) ∧ scanned.scan.spool.op = .genMark 1 := by decide

/-- TablesStaySound: tables with an entry each. -/
theorem witness_tables : (∃ t, step inView = .next t) ∧ inView.reach.Sound ∧
    ({ Receipt.initial with table := [(20, ⟨⟨7, 4294967295⟩, ⟨8, 1⟩⟩)] } : Receipt).Sound ∧
    ({ Display.initial with claims := [claim] } : Display).ListSound ∧
    ({ Equip.initial with outbound := List.replicate 32 ⟨1, []⟩ } : Equip).Fits := by
  refine ⟨⟨_, rfl⟩, ⟨partSound_of_chain _ (by decide) (by decide) (by decide),
    partSound_of_chain _ (by decide) (by decide) (by decide)⟩, ⟨by decide, ?_⟩, ⟨by decide, by decide, by decide⟩, ?_⟩
  · intro e h
    have : e = (20, ⟨⟨7, 4294967295⟩, ⟨8, 1⟩⟩) := by simpa using h
    subst this
    decide
  · show _ ≤ _
    decide

/-- TheSignStaysSound and StoresStayCanonical. -/
theorem witness_sign_and_stores : shown.SignSound ∧ (∃ t, step { shown with pending := [.frameEnd] } = .next t) ∧
    scanned.StoresRising ∧ ∃ t, step { scanned with pending := [.startScanReadEnd] } = .next t :=
  ⟨shown_sound, ⟨_, rfl⟩, witness_scan.1, _, rfl⟩

/-! ### Further witnesses, for the clauses about helpers that the statements name -/

/-- EntryIntoDark in RUNNING: a part that holds a terminus and an empty one, a port with light and one without. -/
theorem witness_dark_running : let s := { inView with east := { litPort with light := false } }
    s.node = .running ∧ (s.port .east).state ≠ .dark ∧ s.reach.part .east ≠ [] ∧ s.reach.part .west = [] ∧
    (s.port .east).state = .lit ∧ (s.port .east).silence.isSome = true ∧ (s.port .east).light = false ∧
    (s.port .west).light = true ∧ { s with node := .scanning }.node ≠ .running := by decide

/-- GoodFramesClashOrTravelOn, delivered frames: for all, for the own number, for 241 at a terminus; each state of R13. -/
theorem witness_delivered :
    checkFrame (frame .trec 20 0).wire = .good (frame .trec 20 0) ∧
    checkFrame (frame .walr 20 10).wire = .good (frame .walr 20 10) ∧
    checkFrame (frame .nsta 20 241).wire = .good (frame .nsta 20 241) ∧ (frame .trec 20 0).target = 0 ∧
    (frame .walr 20 10).target = (config .roadside).number ∧ (config .terminus).role = .terminus ∧
    (running .roadside).node = .running ∧ scanning.node = .scanning ∧ State.reset.node = .loading ∧
    { State.reset with node := .repeaterOnly }.node = .repeaterOnly ∧ { State.reset with node := .held }.node = .held ∧
    (parseCreq [10, 1, 1, 1, 1]).isSome = true ∧ parseCreq [] = none ∧ (parseCacc [10, 1, 1, 0]).isSome = true ∧
    parseCacc [] = none ∧ (parseCrel [10, 1, 1]).isSome = true ∧ parseCrel [] = none ∧
    (parseVoic ([10, 1, 0, 0] ++ List.replicate 40 0)).isSome = true ∧ parseVoic [] = none := by decide +kernel

/-- GoodFramesClashOrTravelOn: reports at the ends of their codes and one beyond, by the entries of 12.3. -/
theorem witness_reports :
    let load (page outcome cause : Byte) : List Byte := [1, page, 0, outcome, cause] ++ List.replicate 15 0
    let claim (command outcome page : Byte) : List Byte := [2, command, outcome, page] ++ List.replicate 9 0
    let shows (page who : Byte) : List Byte := [3, page, who] ++ List.replicate 17 0
    let weather (state : Byte) : List Byte := List.replicate 75 0 ++ [state] ++ List.replicate 8 0
    srptFits (load 3 4 6) = true ∧ srptFits (load 0 1 0) = true ∧ srptFits (load 4 1 0) = false ∧
    srptFits (load 0 0 0) = false ∧ srptFits (load 0 5 0) = false ∧ srptFits (load 0 1 7) = false ∧
    srptFits (claim 4 6 3) = true ∧ srptFits (claim 5 1 0) = false ∧ srptFits (claim 1 0 0) = false ∧
    srptFits (claim 1 7 0) = false ∧ srptFits (shows 255 3) = true ∧ srptFits (shows 4 0) = false ∧
    srptFits (shows 0 4) = false ∧ wrptFits (weather 4) = true ∧ wrptFits (weather 5) = false := by
  decide

/-- GoodFramesClashOrTravelOn: NSTA parts that fit, among them those of a ROADSIDE node and of a TERMINUS as built, and parts one
beyond: length, part, role, item number, value length, code, list and the item of a terminus. -/
theorem witness_nsta :
    let part (k role : Byte) (items : List Byte) : List Byte := [0, 0, k, 20, role] ++ List.replicate 7 0 ++ items
    let first := part 4 1 [1, 8, 0, 0, 0, 0, 0, 0, 0, 0]
    let calls (state : Byte) : List Byte := [3, 13, 1, 1, 20, 1, 2, state, 0, 2, 1, 0, 0, 0, 0]
    (withCall inView (call .talking)).nstaParts.all nstaFits = true ∧ (running .terminus).nstaParts.all nstaFits = true ∧
    nstaFits (part 1 1 []) = true ∧ nstaFits ((part 1 1 []).take 11) = false ∧ nstaFits (part 6 1 []) = false ∧
    nstaFits (part 0 1 []) = false ∧ nstaFits (part 1 3 []) = false ∧ nstaFits (part 1 1 [1, 2, 2, 0]) = true ∧
    nstaFits (part 1 1 [1, 2, 3, 0]) = false ∧ nstaFits (part 1 1 [2, 2, 2, 0]) = false ∧
    nstaFits (part 1 1 [1, 3, 2, 0, 0]) = false ∧ nstaFits (part 1 1 [1, 2, 2]) = false ∧ nstaFits (part 1 1 [1]) = false ∧
    nstaFits first = true ∧ nstaFits (first ++ [2, 0]) = true ∧ nstaFits (first ++ [2, 1, 2]) = false ∧
    nstaFits (first ++ [2, 0] ++ calls 9) = true ∧ nstaFits (first ++ [2, 0] ++ calls 10) = false ∧
    nstaFits (first ++ [2, 0, 3, 2, 0, 1]) = false ∧ nstaFits (first ++ [2, 0, 3, 2, 0, 0, 4, 0, 5, 0]) = false := by
  decide +kernel

/-- GoodFramesClashOrTravelOn: call frames at their lengths and at the ends of their codes. -/
theorem witness_call_frames :
    ((3 : Nat), CallRequest.ring) ∈ [(1, CallRequest.ask), (2, .resume), (3, .ring)] ∧
    (∀ x ∈ [((1 : Nat), CallRequest.ask), (2, .resume), (3, .ring)], x.1 ≠ 4) ∧
    parseCreq [10, 1, 3, 2, 7] = some ⟨⟨10, 1⟩, .ring, some .phoneB, 7⟩ ∧
    parseCreq [10, 1, 1, 3, 7] = some ⟨⟨10, 1⟩, .ask, none, 7⟩ ∧ parseCreq [10, 1, 4, 2, 7] = none ∧
    parseCacc [10, 1, 2, 8] = some ⟨⟨10, 1⟩, .queued, 8⟩ ∧ parseCacc [10, 1, 5, 0] = none ∧
    parseCrel [10, 1, 4] = some (⟨10, 1⟩, .noAnswer) ∧ parseCrel [10, 1, 0] = none ∧
    (parseVoic ([10, 1, 1, 2] ++ List.replicate 40 0)).map (fun v => (v.1, v.2.seq)) = some (⟨10, 1⟩, 258) := by
  decide

/-- AcceptedBeatsRefreshOrOfferAnEntry: the values that R29 asks for, and the fields of 12.3. -/
theorem witness_beat_fields : let f := beatOf 5 1
    f.target = 0 ∧ f.payload.length = 15 ∧ field f.payload 0 1 = f.origin ∧ field f.payload 1 1 = 1 ∧
    field (beatOf 40 2).payload 1 1 = 2 ∧ field f.payload 3 2 = 100 ∧ field f.payload 5 1 = 3 ∧
    acceptBeat f = some ⟨5, .roadside, 100, 3, 9, true, 0⟩ ∧ (running .roadside).node = .running ∧
    scanning.node ≠ .running := by decide

/-- AgedEntriesLeaveTheirPart: an interval of 100 ms ages after 10,000,000 periods of 25 MHz, not at them. -/
theorem witness_aged : let at' (n : Nat) := { inView with refTime := n }
    (∃ e ∈ (at' 10000001).reach.part .east, e.node = 20) ∧ terminus20.node = 20 ∧
    ¬ 4 * terminus20.interval * 1000 * 25000000 < ((at' 10000000).refTime - terminus20.heardAt) * 1000000 ∧
    4 * terminus20.interval * 1000 * 25000000 < ((at' 10000001).refTime - terminus20.heardAt) * 1000000 := by decide

/-- A node in SCANNING with terminus 20 in its view, some reference periods after it was heard. -/
def heldFor (n : Nat) : State := { scanning with refTime := n, reach := inView.reach }

/-- R33: at the limit the entry stays, one period later it leaves. -/
theorem test_age_limit : exec (.reachEntryAgeLimit .east 20) (heldFor 10000000) = .next (heldFor 10000000) ∧
    exec (.reachEntryAgeLimit .east 20) (heldFor 10000001) =
      .next { heldFor 10000001 with reach := { inView.reach with east := [] } } := ⟨rfl, rfl⟩

/-- FilteredLevelsFollowTheirPins: hook and contact actions. -/
theorem witness_hooks : let s := inView; let c := call .talking
    s.node = .running ∧ s.cfg.role = .roadside ∧ s.cfg.services.phone = true ∧ (running .terminus).cfg.role ≠ .roadside ∧
    s.boundCall .phoneA = none ∧ s.freeCallPlace = some 0 ∧ (withCall s c).boundCall .phoneA = some 0 ∧
    (withCall s c).call 0 = some c ∧ c.near = .phone .phoneA ∧ c.state ≠ .ringing ∧ (call .ringing).state = .ringing ∧
    (call .cleared).state = .cleared ∧ c.state ≠ .cleared ∧ c.far = some 20 ∧ { c with far := none }.far = none ∧
    s.cfg.services.weather = true := by decide

/-- A contact rule with mask 1 of which nothing is departed; the mask 0 names no line (R66). -/
theorem witness_contact_rule :
    let r : RuleConfig := { RuleConfig.unused with kind := 3, source := .contacts 1 }
    r.source = .contacts 1 ∧ r.kind ≠ 0 ∧ (1 : BitVec 6).getLsbD 0 = true ∧ (0 : BitVec 6).getLsbD 0 = false ∧
    RuleConfig.unused.kind = 0 ∧ RuleWork.initial.group = false := by decide

/-- PulsesAreCountedInWindows: a used rule of the channel. -/
theorem witness_pulse_rule : let r : RuleConfig := { RuleConfig.unused with kind := 3, source := .wind }
    r.kind ≠ 0 ∧ r.source = .wind ∧ r.source ≠ .rain ∧ r.sense = .above := by decide

/-- TimersOfARoadsideEntry: a loss and a choice against each kind of entry. -/
theorem witness_loss : let seek : CallEntry := { call .asking with far := none, port := none }
    inView.terminusPresence 20 = some .east ∧ seek.far = none ∧ seek.state = .asking ∧ (call .asking).far = some 20 ∧
    (call .asking).far ≠ none ∧ (call .waiting).far = some 20 ∧ (call .asking).far ≠ some 21 ∧
    (withCall inView seek).call 0 = some seek ∧ seek.near = .phone .phoneA := by decide

/-- TimersOfARoadsideEntry: a choice change for an entry at the tenth attempt, one before it, and one in RESUMING. R77: the
attempt above the tenth is of the slow phase. -/
theorem test_choice_after_tenth :
    let seek (n : Nat) (st : CallState) : CallEntry := { call st with far := none, port := none, attempts := n }
    let next (c : CallEntry) := ((State.choiceForCall 20 .east (withCall inView c) 0).call 0).map fun d =>
      (d.attempts, d.slow, d.attemptTimer)
    next (seek 10 .asking) = some (11, true, some ⟨0, 5000000⟩) ∧ next (seek 9 .asking) = some (10, false, some ⟨0, 1000000⟩) ∧
    next (seek 10 .resuming) = some (11, false, some ⟨0, 1000000⟩) := by decide

/-- TimersOfATerminusEntry: a caller at the head of the wait order with a channel free, and with none. -/
theorem witness_promote :
    let s (n : Nat) : State :=
      let t := withCall (running .terminus) (consoleCall .queued)
      { t with calls := { t.calls with waitOrder := [0] }, cfg := { t.cfg with consoleChannels := n } }
    (s 1).calls.waitOrder = 0 :: [] ∧ (0 : Fin 8) ∉ ([] : List (Fin 8)) ∧ (s 1).channelsHeld < (s 1).cfg.consoleChannels ∧
    (s 0).cfg.consoleChannels ≤ (s 0).channelsHeld ∧ (running .terminus).calls.waitOrder = [] ∧
    (s 1).call 0 = some (consoleCall .queued) := by decide

/-- PlayoutMovesOnByOnePosition: an arrival after the last played position, one at it, one already held, an eighth frame and
one more, and the third that starts the playout. -/
theorem witness_arrival : let f (n : BitVec 16) : VoiceFrame := ⟨n, []⟩
    let after (a b : BitVec 16) : Prop := 0 < (a - b).toInt
    after 0 65535 ∧ ¬ after 65535 65535 ∧ ¬ after 32768 0 ∧ (∃ x ∈ [f 1, f 2], x.seq = (f 2).seq) ∧
    8 ≤ (List.replicate 8 (f 1)).length ∧ (List.replicate 7 (f 1)).length < 8 ∧ [f 1, f 3] = [f 1] ++ [f 3] ∧
    (∀ x ∈ [f 1], ¬ after x.seq 2) ∧ (∀ x ∈ [f 3].head?, after x.seq 2) ∧ Playout.initial.started = false ∧
    3 ≤ ([f 1] ++ f 2 :: [f 3]).length ∧ ([f 1] ++ f 2 :: []).length < 3 := by decide

/-- TheCentreRingsAndHangsUp: where a RING-OUT is bad, misdirected, not ready and not received. -/
theorem witness_ring_out_elsewhere : ¬ ((3 : Byte) = 1 ∨ (3 : Byte) = 2) ∧ ((1 : Byte) = 1 ∨ (1 : Byte) = 2) ∧
    (running .roadside).cfg.role = .roadside ∧ (running .roadside).node = .running ∧ scanning.node = .scanning ∧
    State.reset.node ≠ .running ∧ State.reset.node ≠ .scanning := by decide

/-- AnswersMoveARoadsideEntry: an entry that a frame of node 20 matches, one known to another node, and none. -/
theorem witness_matches :
    let s := withCall inView (call .ringing); let t := withCall (running .terminus) (consoleCall .calling)
    s.callMatch ⟨10, 1⟩ 20 = some 0 ∧ s.callMatch ⟨10, 1⟩ 21 = none ∧ s.callByRef ⟨10, 1⟩ = some 0 ∧
    s.callByRef ⟨10, 2⟩ = none ∧ s.isTerminus = false ∧ t.isTerminus = true ∧ t.callMatch ⟨10, 1⟩ 20 = some 0 ∧
    t.call 0 = some (consoleCall .calling) ∧ (consoleCall .calling).state = .calling ∧
    (0 : Fin 8) ∉ t.calls.waitOrder ∧ (consoleCall .queued).state ≠ .calling ∧
    (call .ringing).state = .ringing ∧ (call .cleared).state = .cleared ∧ (call .talking).state = .talking := by decide

/-- AnswersMoveARoadsideEntry: requests that a terminus or a roadside node takes. -/
theorem witness_requests :
    let s := running .terminus; let t := { s with cfg := { s.cfg with consoleChannels := 0 } }
    let full := { s with calls := { s.calls with table := Vector.replicate 8 (some (call .talking)) } }
    (20 : Byte).toNat = 20 ∧ (21 : Byte).toNat ≠ 20 ∧ s.isTerminus = true ∧ s.cfg.services.phone = true ∧
    { s.cfg with services := ⟨false, false, false, false⟩ }.services.phone = false ∧ s.callByRef ⟨20, 1⟩ = none ∧
    s.freeCallPlace = some 0 ∧ (0 : Fin 8) ∉ s.calls.waitOrder ∧ s.channelsHeld < s.cfg.consoleChannels ∧
    t.cfg.consoleChannels ≤ t.channelsHeld ∧ full.freeCallPlace = none ∧
    { full with cfg := { full.cfg with consoleChannels := 0 } }.cfg.consoleChannels ≤ full.channelsHeld ∧
    (consoleCall .connected).state = .connected ∧ (consoleCall .queued).state = .queued := by decide

/-- AnswersMoveARoadsideEntry: a ring at an idle phone port whose hook is watched and returned, and at a bound one. -/
theorem witness_ring_in : let s := inView
    s.boundCall .phoneA = none ∧ s.watched .hookA = true ∧
    (s.inputs.line .hookA).filtered = s.cfg.resting.getLsbD (lineBit .hookA) ∧
    (withCall s (call .talking)).boundCall .phoneA = some 0 ∧ (withCall s (call .talking)).callByRef ⟨20, 9⟩ = none ∧
    (withCall s (call .talking)).freeCallPlace = some 1 := by decide

/-- SectorsAreTakenInRingOrder: a batch with members and none; a spool of which no sector is EMPTY. -/
theorem witness_full_ring :
    let p : Spool := { spool with sectors := (List.range 63).map fun n =>
      (n, ⟨if n = 62 then .filling else .full, false, false, false⟩) }
    spool.batch = some ⟨[5], true, none⟩ ∧ Spool.initial.batch = none ∧ p.filling = some 62 ∧
    (∀ i, i < 63 → (p.sector ((62 + 1 + i) % 63)).state ≠ .empty) ∧
    (∀ m, m < 63 → m ≠ 62 → (p.sector m).state ≠ .filling) := by decide

/-- TheArrayArbitersOrder, POWER-WARN: an erase in progress and none, sectors held out and none, a generation mark waiting. -/
theorem witness_power :
    let s := withSpool { spool with erase := some (erase .active), heldOut := [7], genJob := some ⟨8, .program 3 false⟩ }
    s.spool.erase = some (erase .active) ∧ spool.erase = none ∧ keysRising s.spool.sectors = true ∧
    s.spool.heldOut ≠ [] ∧ spool.heldOut = [] ∧ s.spool.genJob = some ⟨8, .program 3 false⟩ ∧ s.powerFailing = false ∧
    (failing s).powerFailing = true ∧ 5 ∈ (erase .active).sectors := by decide

/-- R117: in SUSPENDING the active time does not count, so the limit changes nothing. -/
theorem test_limit_in_suspending : let s := withSpool { spool with erase := some (erase .suspending) }
    exec (.eraseLimit [5]) s = .next s := rfl

/-- ErasesEnd: a full spool with its fill point. -/
theorem witness_full_spool : let p := { Spool.initial with fillPoint := some 62 }
    p.filling = none ∧ p.fillPoint = some 62 ∧ spool.filling ≠ none ∧ (p.sector ((62 + 1 + 0) % 63)).state = .empty ∧
    (erase .suspending).phase ≠ .suspended ∧ (erase .suspending).phase ≠ .active ∧ (erase .active).phase = .active ∧
    (∃ i ∈ ([5] : List (Fin 63)), (i : Nat) = 5) := by decide

/-- A node with TOLL that delivers to terminus 20, its window holding an entry and its spool two FILLED records. -/
def steered : State :=
  let s := withSpool { spool with slots := [(1984, .filled ⟨7, 1⟩), (1985, .filled ⟨7, 2⟩)] }
  { s with sending := { Sending.initial with
      steer := .via 20 .east, window := [{ entry ⟨7, 1⟩ false true with record := some (record ⟨7, 1⟩) }] } }

/-- DeliverySendsAgain: re-steer, window intake and a TREC that can be built. -/
theorem witness_steered :
    steered.cfg.services.toll = true ∧ Route.none ≠ steered.sending.steer ∧ steered.sending.steer = .via 20 .east ∧
    Sending.initial.steer = .none ∧ steered.sending.window.length < 16 ∧
    (∃ e ∈ steered.spool.slots, e.2 = .filled ⟨7, 2⟩) ∧
    steered.sending.window.getLast? = some { entry ⟨7, 1⟩ false true with record := some (record ⟨7, 1⟩) } ∧
    steered.sending.retry = none ∧ (∃ e ∈ steered.sending.window, e.due = true) ∧
    (∀ e ∈ steered.sending.window, e.record.isSome = true) ∧ steered.sending.window = [] ++ steered.sending.window ∧
    (∀ e ∈ steered.sending.window, e.due = true) ∧ steered.spool.oldestFilled = some ⟨7, 1⟩ ∧
    (steered.port .east).state = .lit ∧ { steered.sending with steer := .self }.steer = .self := by decide

/-- R127: the entry that the intake adds is the next FILLED record. -/
theorem test_intake : steered.windowIntake.sending.window.map (·.pos) = [⟨7, 1⟩, ⟨7, 2⟩] ∧
    steered.windowIntake.spool.reads = [⟨7, 2⟩] := by decide

/-- TacksActOnTheSteersWindow: the own receipt's TACK with an entry it names, and with none. -/
theorem witness_own_tack : let d : Sending := { Sending.initial with window := [entry ⟨7, 1⟩ true false] }
    let hit (a : Position) (e : WindowEntry) : Bool := e.sent && decide (e.pos.gen = a.gen) && decide (e.pos.seq ≤ a.seq)
    (∃ e ∈ d.window, hit ⟨7, 1⟩ e = true) ∧ (∀ e ∈ d.window, hit ⟨7, 0⟩ e = false) := by decide

/-- A TREC of one record with base (7, 1). -/
def trec1 (count grade : Byte) : Frame :=
  { frame .trec 20 241 with payload := count :: (bytesBE 2 7 ++ bytesBE 4 1) ++
      (bytesBE 2 7 ++ bytesBE 4 1 ++ bytesBE 6 0 ++ [grade, 0, 0, 2, 3] ++ List.replicate 40 0) }

/-- RecordsAreJudgedAgainstTheirOrigin: a good TREC at the greatest grade, a count of 3, a grade of 8. -/
theorem witness_trec :
    let good (f : Frame) : Prop := (field f.payload 0 1 = 1 ∨ field f.payload 0 1 = 2 ∨ field f.payload 0 1 = 4) ∧
      f.payload.length = 7 + 57 * field f.payload 0 1 ∧ posAt f.payload 1 = ⟨7, 1⟩ ∧
      (recordAt f.payload 7).pos = ⟨7, 1⟩ ∧ (recordAt f.payload 7).grade ≤ 7
    good (trec1 1 7) ∧ ¬ good (trec1 3 7) ∧ ¬ good (trec1 1 8) ∧
    (keyGet ((running .terminus).receiveRecords ⟨7, 1⟩ 20 [record ⟨7, 1⟩]).receipt.table 20) =
      some ⟨⟨7, 1⟩, ⟨7, 2⟩⟩ ∧
    keyGet ((running .terminus).receiveRecords ⟨7, 1⟩ 20 []).receipt.table 20 = none := by decide

/-- WritesChangeThePixelsTheyName: a COPY of one row to the right whose columns overlap (R154). -/
theorem witness_overlap : let w : SignWrite := .copy 7 1 0xFF 2 7 0 2
    (shown.applyWrite 2 w).isSome = true ∧ (2 : Fin 4) = 2 ∧ (0 : Nat) < 1 ∧ 7 < 8 ∧ 1 ≤ 16 / 8 ∧ 16 / 8 - 1 < 2 ∧
    0 + (16 / 8 - 1) < shown.cfg.signWidth / 8 ∧ (0xFF : Byte).getLsbD 7 = true := by decide

/-- LoadTimersAbortTheLoad: SDATs that begin a load, go on with it and end it; a node without a sign. -/
theorem witness_sdat : let x (index : Nat) (flags : Byte) : List Byte := [0, 9] ++ bytesBE 2 index ++ [flags, 0]
    let r (n : Nat) : PageRecord := { loadingOf 20 with next := n }
    (parseSdat [2, 1, 0, 0, 5, 0]).isSome = true ∧ parseSdat [] = none ∧
    (parseSdat (x 0 1)).map (fun d => (d.page, d.loadId, d.first, d.last)) = some (0, 9, true, false) ∧
    (parseSdat (x 65535 2)).map (fun d => (d.index, d.first, d.last)) = some (65535, false, true) ∧
    (running .roadside).cfg.services.sign = true ∧ (running .roadside).cfg.signWidth ≠ 0 ∧
    { config .roadside with signWidth := 0 }.signWidth = 0 ∧ shown.display.page = some 2 ∧ shown.display.page ≠ some 0 ∧
    (shown.pages.records[(0 : Fin 4)]).state ≠ .loading ∧ (r 65535).state = .loading ∧ (r 65535).loadId = some 9 ∧
    (r 65535).origin = some 20 ∧ (r 65535).next = 65535 ∧ (r 65534).next < 65535 ∧ ((r 1).origin ≠ some 21) ∧
    (shown.applyWrite 0 (.copy 0 0 0xFF 3 0 0 1)) = none ∧ (shown.applyWrite 0 (.copy 0 0 0xFF 2 0 0 1)).isSome = true := by
  decide

/-- LoadTimersAbortTheLoad: SDATs of each mode at the ends of their values, and one beyond. -/
theorem witness_sdat_fields :
    let pixels (mode fn colour count : Byte) (n : Nat) : List Byte :=
      [1, 9, 0, 7, 6, mode, 2, 3, 0xFA, fn, 9, 0x0F, colour, count] ++ List.replicate n 0x55
    let copy (from' count : Byte) : List Byte := [1, 9, 0, 0, 1, 3, 2, 3, 0xF0, from', 4, 5, count]
    parseSdat (pixels 1 3 15 1 1) = some ⟨1, 9, 7, false, true, true, .plane 2 3 10 .xor 1 0x0F [0x55]⟩ ∧
    parseSdat (pixels 2 0 15 1 1) = some ⟨1, 9, 7, false, true, true, .colour 2 3 0x0F 15 [0x55]⟩ ∧
    parseSdat (copy 3 200) = some ⟨1, 9, 0, true, false, false, .copy 2 3 0xF0 3 4 5 200⟩ ∧
    (parseSdat (pixels 1 0 0 200 200)).isSome = true ∧ parseSdat (pixels 1 0 0 201 201) = none ∧
    parseSdat (pixels 1 0 0 0 0) = none ∧ parseSdat (pixels 1 4 0 1 1) = none ∧ parseSdat (pixels 2 0 16 1 1) = none ∧
    parseSdat (pixels 4 0 0 1 1) = none ∧ parseSdat (pixels 1 0 0 2 1) = none ∧ parseSdat (copy 4 1) = none ∧
    parseSdat (copy 3 201) = none ∧ parseSdat (copy 3 0) = none ∧ parseSdat [4, 1, 0, 0, 1, 0] = none ∧
    parseSdat [2, 1, 0, 1, 1, 0] = none ∧ parseSdat [2, 1, 0, 0, 0, 0] = none := by decide +kernel

/-- A list of n alert claims of priority 3. -/
def alerts (n : Nat) : List Claim :=
  (List.range n).map fun i => { claim with claimant := .alert 20 (i + 1), priority := 3, showAt := none, placedBy := none }

/-- SignFramesGoByTheirTarget: claim requests against lists of 1, 7 and 8 claims, the same claimant asking alike and anew. -/
theorem witness_claims :
    [claim] = [] ++ claim :: [] ∧ claim.claimant = .centre ∧ (∀ x ∈ ([] : List Claim), x.claimant ≠ .centre) ∧
    (claim.page = claim.page ∧ claim.priority = claim.priority ∧ claim.showAt = claim.showAt) ∧
    ¬ (claim.page = { claim with page := 1 }.page) ∧ ([] : List Claim) ++ [] = [] ++ [] ∧
    (∀ x ∈ alerts 7, x.claimant ≠ .centre) ∧ (alerts 7).length < 8 ∧ 8 ≤ (alerts 8).length ∧
    alerts 7 = [] ++ alerts 7 ∧ (∀ x ∈ (alerts 7).head?, x.priority ≤ 3) ∧
    (∃ last, alerts 8 = alerts 7 ++ [last] ∧ last.priority < claim.priority ∧ last.claimant ≠ .centre ∧
      { claim with priority := 3 }.priority ≤ last.priority) ∧
    claim.claimant = .centre ∧ claim.placedBy = some 20 := by
  refine ⟨by decide, by decide, by decide, by decide, by decide, by decide, by decide, by decide, by decide, by decide,
    by decide, ⟨{ claim with claimant := .alert 20 8, priority := 3, showAt := none, placedBy := none }, by decide⟩,
    by decide, by decide⟩

/-- SignFramesGoByTheirTarget: SCMDs of a terminus in view and of a stray one; a CLAIM at its greatest priority. -/
theorem witness_scmd :
    (inView.node = .running ∧ inView.cfg.services.sign = true ∧ inView.cfg.signWidth ≠ 0) ∧
    inView.terminusPresence 20 ≠ none ∧ ¬ (21 = inView.cfg.number ∨ inView.terminusPresence 21 ≠ none) ∧
    10 = inView.cfg.number ∧ ([1, 3, 15] ++ bytesBE 4 4294967295 ++ 0 :: bytesBE 6 0).length = 14 ∧
    (parseScmd ([1, 3, 15] ++ bytesBE 4 4294967295 ++ 0 :: bytesBE 6 0)).isSome = true ∧
    (∃ c ∈ [claim], c.claimant = .centre) ∧ (∀ c ∈ inView.display.claims, c.claimant ≠ .centre) ∧
    (8 ≤ (alerts 8).length ∧ (∀ c ∈ alerts 8, c.claimant ≠ .centre) ∧ ∀ c ∈ (alerts 8).getLast?, 3 ≤ c.priority) := by
  decide

/-- SignFramesGoByTheirTarget: a WALR of one item, one of none, and an item that a sign rule names. -/
theorem witness_walr : let a : AlertItem := { kind := 15, severity := 3, lifetime := 600, withdraw := false }
    let r : SignRule := { SignRule.unused with kind := 15, minSeverity := 3 }
    parseWalr (walrPayload [a]) = some [a] ∧ parseWalr [0] = none ∧ a.withdraw = false ∧ a.lifetime ≠ 0 ∧
    { a with withdraw := true }.withdraw = true ∧ (r.kind ≠ 0 ∧ r.kind = a.kind ∧ r.minSeverity ≤ a.severity) ∧
    ¬ (r.minSeverity ≤ { a with severity := 2 }.severity) := by decide

/-- ThePortAnswersAndTransfers: an origin above 240 at a terminus. -/
theorem witness_high_origin : (running .terminus).node = .running ∧ (running .terminus).cfg.role = .terminus ∧
    240 < (241 : Byte).toNat := by decide

/-- R192: a STATUS-ASK in SCANNING is answered and counted as refused. -/
theorem test_status_in_scanning : ∃ t m, exec (.statusAsk 0) scanning = .next t ∧ t.equip.notReady = 1 ∧
    t.equip.outbound = [⟨0x83, m⟩] := ⟨_, _, rfl, rfl, rfl⟩

set_option maxRecDepth 20000 in
/-- ImagesAreAcceptedOrRejected: images that end before and after a field; the entry to RUNNING and its first NSTA. -/
theorem witness_fields : let img := imageOf [240, 2, 15, 0, 50]
    (parseImage img).isSome = true ∧ 5 + 2 ≤ natBE (img.take 2) + 2 ∧ ¬ 7 + 1 ≤ natBE (img.take 2) + 2 ∧
    (parseImage (imageOf ([240, 2, 15] ++ List.replicate 316 0))).isSome = true ∧
    (∃ t, exec .statusTimerExpiry { running .roadside with equip := { (running .roadside).equip with
      statusTimer := some ⟨0, 0⟩ } } = .next t) := by
  refine ⟨by decide +kernel, by decide +kernel, by decide +kernel, by decide +kernel, _, rfl⟩

/-- R39: without the configuration no node port is known, whatever port is LIT. -/
theorem test_no_node_port : { endTerminus with node := .repeaterOnly }.nodePort 20 = none ∧
    endTerminus.nodePort 20 = some .east := by decide

/-- TheScanAndItsGenerationMark: the choice of the FILLING sector among one candidate, and in an erased array. -/
theorem witness_candidates :
    let hd (n : Nat) := scanned.array.header n
    (∀ e ∈ scanned.array.slots, e.1 < 2016) ∧
    (hd 0).bad = false ∧ hd 0 ≠ ⟨false, false, false⟩ ∧ keyGet scanned.array.slots (32 * 0 + 1) = none ∧
    hd 1 = ⟨false, false, false⟩ ∧ (∀ e ∈ scanned.array.slots, e.1 / 32 ≠ 1) ∧ scanned.spool.batch = none ∧
    TollArray.erased.slots = [] ∧ TollArray.erased.header 0 = ⟨false, false, false⟩ := by decide

/-- TerminusChoiceIsTheFirstCandidate: the further questions, of a node with two termini and one with two entries of a node. -/
theorem witness_questions :
    let other : ReachEntry := { terminus20 with node := 21 }
    let s := { inView with reach := { inView.reach with west := [{ terminus20 with hops := 1 }, other] } }
    s.reach.Sound ∧ s.node ≠ .repeaterOnly ∧ s.alternateChoice (some 20) = .terminus 21 .west 2 ∧
    s.alternateChoice (some 21) = .terminus 20 .west 1 ∧ inView.alternateChoice (some 20) = .none ∧
    s.terminusPresence 20 = some .west ∧ inView.terminusPresence 21 = none ∧ s.nodePort 20 = some .west ∧
    s.nodePort 21 = some .west ∧ inView.nodePort 20 = some .east ∧ inView.nodePort 21 = none ∧
    endTerminus.nodePort 20 = some .east ∧ inView.choiceFar = (some 20, some .east) := by
  refine ⟨⟨partSound_of_chain _ (by decide) (by decide) (by decide),
    partSound_of_chain _ (by decide) (by decide) (by decide)⟩, ?_⟩
  decide

/-- DeliverySendsAgain: a sent entry 2 s after its offer, and one reference period before that. -/
theorem witness_send_age : let e := entry ⟨7, 1⟩ true false
    e.sent = true ∧ e.due = false ∧ 2000000 * 25000000 ≤ (50000000 - e.sentAt) * 1000000 ∧
    ¬ 2000000 * 25000000 ≤ (49999999 - e.sentAt) * 1000000 := by decide

/-- A node whose first window entry was offered at period 0 and is not acknowledged. -/
def unacknowledged (n : Nat) : State :=
  { steered with refTime := n, sending := { steered.sending with steer := .none, window := [entry ⟨7, 1⟩ true false] } }

/-- R133: before 2 s nothing goes back, at 2 s the window is due again. -/
theorem test_go_back : exec .goBack (unacknowledged 49999999) = .next (unacknowledged 49999999) ∧
    ((unacknowledged 50000000).goBackNow.sending.goBacks,
      (unacknowledged 50000000).goBackNow.sending.window.map (·.due)) = (1, [true]) := ⟨rfl, by decide⟩

/-- RenewalsWindowsAndReports: a usable channel and contact source, and a channel that is STALE. -/
theorem witness_usable : let c : ReadingChannel := { ReadingChannel.initial with valid := true }
    (c.valid = true ∧ c.stale = false) ∧ ¬ ({ c with stale := true }.valid = true ∧ { c with stale := true }.stale = false) ∧
    { RuleConfig.unused with source := .contacts 1 }.source = .contacts 1 := by decide

/-- FrameEndsSelectDimAndReport: frame rates 300 and 400, whose periods are 1/300 s and 1/400 s. -/
theorem test_frame_period :
    { shown with cfg := { shown.cfg with frameRate := 300 } }.endFrame.display.frameTimer = some ⟨0, 300⟩ := by decide

/-- ThePortAnswersAndTransfers: a message of each of the shortest and longest kinds, and bytes that spell none. -/
theorem witness_messages : parseInbound (CabMsg.wire ⟨3, [240]⟩) = some (.statusAsk 240) ∧
    parseInbound (CabMsg.wire ⟨6, [20, 2]⟩) = some (.ringOut 20 2) ∧ parseInbound (CabMsg.wire ⟨6, [20, 3]⟩) = none ∧
    parseInbound (CabMsg.wire ⟨3, []⟩) = none ∧ parseInbound (CabMsg.wire ⟨9, [0]⟩) = none ∧
    parseInbound [0, 0, 0, 0] = none ∧ (running .roadside).ready = false ∧ (withSpool spool).ready = true := by
  decide +kernel

/-- R107: an answer still held goes to the queue before a newer one, which waits only when the queue is full. -/
theorem test_answer_order : let s := withSpool { spool with answer := some ⟨0x82, [1, 4]⟩ }
    ((s.answerSpool ⟨0x81, [2]⟩).equip.outbound, (s.answerSpool ⟨0x81, [2]⟩).spool.answer) =
      ([⟨0x82, [1, 4]⟩, ⟨0x81, [2]⟩], none) := by decide

/-- R117: the active erase time goes on from where it stood, to the period: 7 and then 5 periods, without any rounding. -/
theorem test_active_erase_goes_on : let e := { erase .active with gathered := 7, since := 100 }
    let s := { withSpool { spool with erase := some e } with refTime := 105 }
    s.activeErasePeriods e = 12 ∧ s.activeErasePeriods { e with phase := .suspended, gathered := 12 } = 12 ∧
    s.activeEraseMs { e with gathered := 24999, since := 105 } = 0 ∧
    s.activeEraseMs { e with gathered := 25000, since := 105 } = 1 := by decide


/-- AgedEntriesLeaveTheirPart and AcceptedBeatsRefreshOrOfferAnEntry in RUNNING: a TERMINUS entry that goes, one refreshed as
ROADSIDE, an entry that the table keeps and one that it does not, and a choice that differs from the one last reported. -/
theorem witness_reported : let full := { inView with reach := { inView.reach with west := partOf 16 .terminus } }
    (inView.reach.part .east).filter (fun e => e.node == 20 && e.role == .terminus) = [terminus20] ∧
    ((beatOf 20 1).origin = 20 ∧ field (beatOf 20 1).payload 1 1 = 1 ∧
      ∃ x ∈ inView.reach.part .east, x.node = 20 ∧ x.role = .terminus) ∧
    ({ terminus20 with node := 5, hops := 1, role := .roadside } : ReachEntry) ∈
      (inView.takeBeat .west (beatOf 5 1)).reach.part .west ∧
    ({ terminus20 with node := 5, hops := 1, role := .roadside } : ReachEntry) ∉
      (full.takeBeat .west (beatOf 5 1)).reach.part .west ∧
    ({ inView with reach := { inView.reach with east := [] } }.terminusChoice).route ≠ inView.reach.lastReported := by decide

/-- R38, R126: the only terminus refreshed as ROADSIDE leaves the choice NONE, which is reported; the steer follows. -/
theorem test_demotion_reports : let s := { inView with cfg := { inView.cfg with services := ⟨false, true, false, false⟩ },
                                                       sending := { inView.sending with steer := .via 20 .east } }
    let t := s.takeBeat .east (beatOf 20 1)
    t.reach.lastReported = .none ∧ t.sending.steer = .none ∧ t.sending.resteers = 1 := by decide

/-- FrameEndsSelectDimAndReport, R169: the lit pixel of page 2 with a map that has colour 15, a pixel of colour 0, and BLANK. -/
theorem test_sign_drive :
    let s := { shown with cfg := { shown.cfg with colours := List.replicate 15 (ColourEntry.mk 0 0) ++ [ColourEntry.mk 4 0b1010] },
                          display := { shown.display with applied := 16 } }
    s.cfg.colours[(readPixelCell s.pages.pixels (16384 * 2 + 256 * 7 + 31)).toNat]? = some ⟨4, 0b1010⟩ ∧
    s.signDrive 7 31 = (0b1010#4, 16) ∧ s.signDrive 7 32 = (0#4, 16) ∧
    { s with display := { s.display with page := none } }.signDrive 7 31 = (0#4, 0) := by decide

/-- VoiceIsSentInSequence: each form of a CONSOLE-VOICE that is refused. -/
theorem witness_console_refused : (running .roadside).node = .running ∧ (running .roadside).cfg.role = .roadside ∧
    scanning.node = .scanning ∧ State.reset.node ≠ .running ∧ State.reset.node ≠ .scanning ∧
    (List.replicate 40 (0 : Byte)).length = 40 ∧ (List.replicate 39 (0 : Byte)).length ≠ 40 := by decide

/-- RecordProgramsEndOrAreTriedAgain: the answer place with 31 and 32 queued, and one held with 30, 31 and 32. -/
theorem test_answer_place :
    let s (held : Option CabMsg) (n : Nat) : State :=
      { withSpool { spool with answer := held } with
          equip := { Equip.initial with outbound := List.replicate n ⟨0x85, []⟩ } }
    let after (t : State) := (t.spool.answer.map (·.kind), t.equip.outbound.length)
    let a : CabMsg := ⟨0x82, [1, 4]⟩
    let m : CabMsg := ⟨0x81, [2]⟩
    after ((s none 31).answerSpool m) = (none, 32) ∧ after ((s none 32).answerSpool m) = (some 0x81, 32) ∧
    after ((s (some a) 30).answerSpool m) = (none, 32) ∧ after ((s (some a) 31).answerSpool m) = (some 0x81, 32) ∧
    after ((s (some a) 32).answerSpool m) = (some 0x81, 32) := by decide

/-- RecordProgramsEndOrAreTriedAgain, R122: the first erased mark place is 31, and with all 32 programmed the sector is erased. -/
theorem test_roll_stage :
    let s (n : Nat) : State := { withSpool spool with
      array := { State.reset.array with marks := (List.range n).map fun k => (k, 7) } }
    ((s 31).wantGenMark 8).spool.genJob = some ⟨8, .program 31 false⟩ ∧
    ((s 32).wantGenMark 8).spool.genJob = some ⟨8, .eraseSector⟩ := by decide

/-- TheArrayArbitersOrder, R104: USE is set with slot 0 and not with slot 1, whose sector's header stays; cells are in part. -/
theorem test_begin_record : let a := State.reset.array
    (a.beginRecord 64).header 2 = ⟨true, false, false⟩ ∧ (a.beginRecord 65).header 2 = ⟨false, false, false⟩ ∧
    keyGet (a.beginRecord 65).slots 65 = some ⟨none, false, false⟩ := by decide

/-- TheScanAndItsGenerationMark, R122: the second place and an erased mark sector wait while POWER-WARN is departed. -/
theorem test_mark_waits :
    let s (op : ArrayOp) (stage : GenStage) : State :=
      failing { withSpool { spool with op := op, genJob := some ⟨8, stage⟩ } with node := .scanning }
    let t := (s (.genMark 0) (.program 0 false)).genMarkLimit
    let u := (s .markSectorErase .eraseSector).markEraseEnd true
    (s (.genMark 0) (.program 0 false)).array.erasedPlace 1 = some 1 ∧ t.spool.op = .idle ∧
    t.spool.genJob = some ⟨8, .program 1 true⟩ ∧ u.spool.op = .idle ∧ u.spool.genJob = some ⟨8, .program 0 false⟩ := by decide
end Sys2Proof.Tests
end

section
/-! SUPPORT. The stretch line (chapter 1): the choice within a class, the answer to a job's offer, and what a transit lane
does with a forwarded copy. -/

namespace Sys2Proof.Machine

/-! ### The choice within a class (R21, R22) -/

theorem Lane.take_own_at_four (t f : Frame) (transit own : List Frame) :
    Lane.take ⟨t :: transit, f :: own, 4⟩ = some (f, true, ⟨t :: transit, own, 0⟩) := rfl

theorem Lane.take_transit_below_four (t f : Frame) (transit own : List Frame) {credit : Nat} (h : credit < 4) :
    Lane.take ⟨t :: transit, f :: own, credit⟩ = some (t, false, ⟨transit, f :: own, credit + 1⟩) :=
  if_neg (Nat.not_le.mpr h)

theorem Lane.take_own_alone (f : Frame) (own : List Frame) (credit : Nat) :
    Lane.take ⟨[], f :: own, credit⟩ = some (f, true, ⟨[], own, 0⟩) := rfl

theorem Lane.take_transit_alone (t : Frame) (transit : List Frame) (credit : Nat) :
    Lane.take ⟨t :: transit, [], credit⟩ = some (t, false, ⟨transit, [], 0⟩) := rfl

/-- A transit frame goes before a waiting own frame only below the count of 4, and the count then rises. -/
theorem Lane.credit_of_take_transit {l l' : Lane} {f : Frame} (hown : l.own ≠ []) (h : l.take = some (f, false, l')) :
    l.credit < 4 ∧ l'.credit = l.credit + 1 := by
  obtain ⟨transit, own, credit⟩ := l
  cases own with
  | nil => exact absurd rfl hown
  | cons g own =>
    cases transit with
    | nil => simp [Lane.take_own_alone] at h
    | cons t transit =>
      by_cases hc : credit < 4
      · rw [Lane.take_transit_below_four _ _ _ _ hc] at h
        cases h
        exact ⟨hc, rfl⟩
      · simp [Lane.take, Nat.not_lt.mp hc] at h

/-- While own frames wait and transit frames alone are sent, the count rises by one with each send, whatever enters the
stores between. -/
theorem Lane.credit_rises_without_own {lanes after : Fin 5 → Lane} {sent : Fin 5 → Frame} {mine : Fin 5 → Bool}
    (hown : ∀ i, (lanes i).own ≠ []) (htake : ∀ i, (lanes i).take = some (sent i, mine i, after i))
    (hnext : ∀ i j : Fin 5, (j : Nat) = i + 1 → ∃ a b,
      lanes j = { after i with transit := (after i).transit ++ a, own := (after i).own ++ b })
    (hnone : ∀ i, mine i = false) (n : Nat) (hn : n < 5) : (lanes ⟨n, hn⟩).credit = (lanes 0).credit + n := by
  induction n with
  | zero => rfl
  | succ n ih =>
    have hn' : n < 5 := by omega
    obtain ⟨a, b, hlane⟩ := hnext ⟨n, hn'⟩ ⟨n + 1, hn⟩ rfl
    have hrise : (after ⟨n, hn'⟩).credit = (lanes ⟨n, hn'⟩).credit + 1 :=
      (Lane.credit_of_take_transit (hown _) (hnone ⟨n, hn'⟩ ▸ htake ⟨n, hn'⟩)).2
    calc (lanes ⟨n + 1, hn⟩).credit = (after ⟨n, hn'⟩).credit := by rw [hlane]
      _ = (lanes 0).credit + (n + 1) := by rw [hrise, ih hn', Nat.add_assoc]

/-! ### A job's offer (R17) -/

/-- A port that takes a job's frame, room provided: LIT, or PROBING for a BEAT (R17). -/
def LinePort.OpenTo (q : LinePort) (f : Frame) : Prop := q.state = .lit ∨ (q.state = .probing ∧ f.kind = .beat)

theorem LinePort.offerAnswer_of_room {q : LinePort} {f : Frame} (ho : q.OpenTo f)
    (hr : (q.lane f.kind.isUrgent).own.length < localCapacity f.kind.isUrgent) : q.offerAnswer f = .taken :=
  (if_pos ho).trans (if_pos hr)

theorem LinePort.offerAnswer_of_full {q : LinePort} {f : Frame} (ho : q.OpenTo f)
    (hr : localCapacity f.kind.isUrgent ≤ (q.lane f.kind.isUrgent).own.length) : q.offerAnswer f = .refused :=
  (if_pos ho).trans (if_neg (Nat.not_lt.mpr hr))

theorem LinePort.offerAnswer_of_not_open {q : LinePort} {f : Frame} (ho : ¬ q.OpenTo f) :
    q.offerAnswer f = .discarded := if_neg ho

theorem State.offer_of_taken {s : State} {p : PortId} {f : Frame} (h : (s.port p).offerAnswer f = .taken) :
    s.offer p f = (s.setPort p ((s.port p).appendOwn f)).arbitrate p := by simp [State.offer, h]

theorem State.offer_of_refused {s : State} {p : PortId} {f : Frame} (h : (s.port p).offerAnswer f = .refused) :
    s.offer p f = s.setPort p (s.port p).countRefusal := by simp [State.offer, h]

theorem State.offer_of_discarded {s : State} {p : PortId} {f : Frame} (h : (s.port p).offerAnswer f = .discarded) :
    s.offer p f = s.setPort p ((s.port p).countDark 1) := by simp [State.offer, h]

theorem LinePort.appendOwn_urgent (q : LinePort) {f : Frame} (h : f.kind.isUrgent = true) :
    q.appendOwn f = { q with urgent := { q.urgent with own := q.urgent.own ++ [f] } } := by
  simp [LinePort.appendOwn, LinePort.lane, LinePort.setLane, h]

theorem LinePort.appendOwn_bulk (q : LinePort) {f : Frame} (h : f.kind.isUrgent = false) :
    q.appendOwn f = { q with bulk := { q.bulk with own := q.bulk.own ++ [f] } } := by
  simp [LinePort.appendOwn, LinePort.lane, LinePort.setLane, h]

/-! ### A forwarded copy (R15) -/

theorem State.transitOffer_of_not_lit {s : State} {p : PortId} (f : Frame) (h : (s.port p).state ≠ .lit) :
    s.transitOffer p f = s.setPort p ((s.port p).countDark 1) := if_pos h

theorem State.transitOffer_of_full {s : State} {p : PortId} {f : Frame} (hl : (s.port p).state = .lit)
    (hf : transitCapacity f.kind.isUrgent ≤ ((s.port p).lane f.kind.isUrgent).transit.length) :
    s.transitOffer p f = s.setPort p { s.port p with counters :=
      { (s.port p).counters with transitOverflow := bump (s.port p).counters.transitOverflow } } :=
  (if_neg (not_not.mpr hl)).trans (if_pos hf)

theorem State.transitOffer_of_room {s : State} {p : PortId} {f : Frame} (hl : (s.port p).state = .lit)
    (hr : ((s.port p).lane f.kind.isUrgent).transit.length < transitCapacity f.kind.isUrgent) :
    s.transitOffer p f = (s.setPort p ((s.port p).appendTransit f)).arbitrate p :=
  (if_neg (not_not.mpr hl)).trans (if_neg (Nat.not_le.mpr hr))

theorem LinePort.appendTransit_urgent (q : LinePort) {f : Frame} (h : f.kind.isUrgent = true) :
    q.appendTransit f = { q with urgent := { q.urgent with transit := q.urgent.transit ++ [f] } } := by
  simp [LinePort.appendTransit, LinePort.lane, LinePort.setLane, h]

theorem LinePort.appendTransit_bulk (q : LinePort) {f : Frame} (h : f.kind.isUrgent = false) :
    q.appendTransit f = { q with bulk := { q.bulk with transit := q.bulk.transit ++ [f] } } := by
  simp [LinePort.appendTransit, LinePort.lane, LinePort.setLane, h]

/-! ### The statements -/

/-- Settles O6. Were none of the five frames the node's own, the count would stand at 4 or more at the fifth send, where
the local head goes first. -/
theorem creditRuleWithinAClass : Obligations.CreditRuleWithinAClass := by
  refine ⟨fun t f transit own credit => ⟨?_, Lane.take_transit_below_four t f transit own,
    Lane.take_own_alone f own credit, Lane.take_transit_alone t transit credit⟩, ?_⟩
  · rintro rfl
    exact Lane.take_own_at_four t f transit own
  · intro lanes after sent mine hown htake hnext _
    by_contra hall
    have hnone : ∀ i, mine i = false := fun i => Bool.eq_false_iff.mpr fun h => hall ⟨i, h⟩
    have hcount : (lanes 4).credit = (lanes 0).credit + 4 :=
      Lane.credit_rises_without_own hown htake hnext hnone 4 (by decide)
    have hbelow : (lanes 4).credit < 4 := (Lane.credit_of_take_transit (hown 4) (hnone 4 ▸ htake 4)).1
    omega

/-- Settles O8, by the three answers of R17: the queue has room, is full, or the port is not open to the frame. -/
theorem offersAreAnsweredByPortAndQueue : Obligations.OffersAreAnsweredByPortAndQueue := by
  intro s p f
  refine ⟨fun ho hu hr => ?_, fun ho hu hr => ?_, fun ho hf => ?_, fun ho => ?_⟩
  · have ha : (s.port p).offerAnswer f = .taken :=
      LinePort.offerAnswer_of_room ho (by simpa [LinePort.lane, localCapacity, hu] using hr)
    exact ⟨ha, by rw [State.offer_of_taken ha, LinePort.appendOwn_urgent _ hu]⟩
  · have ha : (s.port p).offerAnswer f = .taken :=
      LinePort.offerAnswer_of_room ho (by simpa [LinePort.lane, localCapacity, hu] using hr)
    exact ⟨ha, by rw [State.offer_of_taken ha, LinePort.appendOwn_bulk _ hu]⟩
  · have ha : (s.port p).offerAnswer f = .refused :=
      LinePort.offerAnswer_of_full ho (by cases hu : f.kind.isUrgent <;>
        simpa [LinePort.lane, localCapacity, hu] using hf)
    exact ⟨ha, State.offer_of_refused ha⟩
  · have ha : (s.port p).offerAnswer f = .discarded := LinePort.offerAnswer_of_not_open ho
    exact ⟨ha, State.offer_of_discarded ha⟩

/-- Settles O11, by the port's state and the fill of the lane of the frame's class. -/
theorem transitLanesTakeOrCount : Obligations.TransitLanesTakeOrCount := by
  intro s p f
  refine ⟨State.transitOffer_of_not_lit f, fun hl hf => ?_, fun hl hu hr => ?_, fun hl hu hr => ?_⟩
  · exact State.transitOffer_of_full hl (by cases hu : f.kind.isUrgent <;>
      simpa [LinePort.lane, transitCapacity, hu] using hf)
  · rw [State.transitOffer_of_room hl (by simpa [LinePort.lane, transitCapacity, hu] using hr),
      LinePort.appendTransit_urgent _ hu]
  · rw [State.transitOffer_of_room hl (by simpa [LinePort.lane, transitCapacity, hu] using hr),
      LinePort.appendTransit_bulk _ hu]

end Sys2Proof.Machine
end

section
/-! SUPPORT. Line Time (chapter 3): what a merge does from each kind of source, by the signed difference d. -/

namespace Sys2Proof.Machine

/-! ### The holdback (R49, R55) -/

/-- The slowing by a signed difference: the count of disputes rises when the source is more than 10 s behind. -/
theorem LineTime.holdBack_neg_toNat (t : LineTime) (d : Int) :
    t.holdBack (-d).toNat = { t with holdback := min (-d).toNat 10000000,
                                     disputes := if 10000000 < -d then bump t.disputes else t.disputes } := by
  have hlimit : 10000000 < (-d).toNat ↔ 10000000 < -d := by omega
  simp only [LineTime.holdBack, maxHoldback, hlimit]

/-! ### Setting in UNSETTLED (R48) -/

section
variable {t : LineTime} {e : LTime} {window ge : Nat} {senderSettled : Bool} {anew : Timer}

theorem LineTime.mergeUnsettled_of_ahead (hd : 0 < ltDiff e t.lt) :
    t.mergeUnsettled e window ge senderSettled anew =
      { t with settled := true, grade := ge, gradeTimer := anew, lt := e } :=
  if_pos hd

theorem LineTime.mergeUnsettled_of_unsettled (hd : ltDiff e t.lt ≤ 0) :
    t.mergeUnsettled e window ge false anew = t :=
  (if_neg (Int.not_lt.mpr hd)).trans (if_pos rfl)

theorem LineTime.mergeUnsettled_of_far_behind (hd : ltDiff e t.lt < -(window : Int)) :
    t.mergeUnsettled e window ge true anew = { t with settled := true, grade := ge, gradeTimer := anew, lt := e } := by
  have hahead : ¬ 0 < ltDiff e t.lt := by omega
  simp [LineTime.mergeUnsettled, hahead, hd]

theorem LineTime.mergeUnsettled_of_within (hlow : -(window : Int) ≤ ltDiff e t.lt) (hd : ltDiff e t.lt ≤ 0) :
    t.mergeUnsettled e window ge true anew = { t with settled := true, grade := ge, gradeTimer := anew } := by
  simp [LineTime.mergeUnsettled, Int.not_lt.mpr hd, Int.not_lt.mpr hlow]

end

/-! ### A better source (R49) -/

section
variable {t : LineTime} {e : LTime} {window slew ge : Nat} {anew : Timer}

theorem LineTime.mergeBetter_of_ahead (hd : (window : Int) < ltDiff e t.lt) :
    t.mergeBetter e window slew ge anew =
      { t with grade := ge, gradeTimer := anew, holdback := 0,
               lt := t.lt + BitVec.ofNat 48 (min (ltDiff e t.lt).toNat slew) } :=
  if_pos hd

theorem LineTime.mergeBetter_of_behind (hd : ltDiff e t.lt < -(window : Int)) :
    t.mergeBetter e window slew ge anew =
      { t with grade := ge, gradeTimer := anew, holdback := min (-ltDiff e t.lt).toNat 10000000,
               disputes := if 10000000 < -ltDiff e t.lt then bump t.disputes else t.disputes } := by
  have hahead : ¬ (window : Int) < ltDiff e t.lt := by omega
  simp [LineTime.mergeBetter, hahead, hd, LineTime.holdBack_neg_toNat]

theorem LineTime.mergeBetter_of_within (hlow : -(window : Int) ≤ ltDiff e t.lt) (hd : ltDiff e t.lt ≤ window) :
    t.mergeBetter e window slew ge anew = { t with grade := ge, gradeTimer := anew, holdback := 0 } :=
  (if_neg (Int.not_lt.mpr hd)).trans (if_neg (Int.not_lt.mpr hlow))

/-! ### An equal source (R50) -/

theorem LineTime.mergeEqual_of_ahead (hd : (window : Int) < ltDiff e t.lt) :
    t.mergeEqual e window slew anew =
      { t with gradeTimer := anew, lt := t.lt + BitVec.ofNat 48 (min (ltDiff e t.lt).toNat slew),
               disputes := if (slew : Int) < ltDiff e t.lt then bump t.disputes else t.disputes } :=
  if_pos hd

theorem LineTime.mergeEqual_of_not_ahead (hd : ltDiff e t.lt ≤ window) :
    t.mergeEqual e window slew anew = { t with gradeTimer := anew } :=
  if_neg (Int.not_lt.mpr hd)

end

/-! ### Which merge acts (R47) -/

section
variable {s : State} {b : Beat} {n : Nat}

theorem State.merge_of_unsettled (h : s.time.settled = false) :
    s.merge b n = { s with
      time := s.time.mergeUnsettled (estimateOf b.ts n s.cfg.dhop) s.cfg.window (estimateGrade b.grade) b.settled
        s.gradeTimerAnew } := by
  simp [State.merge, h]

theorem State.merge_of_better (h : s.time.settled = true) (hg : s.time.grade < estimateGrade b.grade) :
    s.merge b n = { s with
      time := s.time.mergeBetter (estimateOf b.ts n s.cfg.dhop) s.cfg.window s.cfg.slew (estimateGrade b.grade)
        s.gradeTimerAnew } := by
  simp [State.merge, h, hg]

theorem State.merge_of_equal (h : s.time.settled = true) (hg : estimateGrade b.grade = s.time.grade) :
    s.merge b n = { s with
      time := s.time.mergeEqual (estimateOf b.ts n s.cfg.dhop) s.cfg.window s.cfg.slew s.gradeTimerAnew } := by
  simp [State.merge, h, hg]

/-- A worse source changes nothing (R51). -/
theorem State.merge_of_worse (h : s.time.settled = true) (hg : estimateGrade b.grade < s.time.grade) :
    s.merge b n = s := by
  simp [State.merge, h, Nat.lt_asymm hg, Nat.ne_of_lt hg]

end

/-! ### The statement -/

/-- Settles O20, by the time state, then the estimate's grade against the node's, then the difference. -/
theorem mergeByTimeStateAndGrade : Obligations.MergeByTimeStateAndGrade := by
  intro s b n e d ge w slew anew settle better equal step next
  have next_of_merge {u v : LineTime} (hm : s.merge b n = { s with time := u }) (hu : u = v) : next v := hu ▸ hm
  refine ⟨fun hs => ?_, fun hs hg => ?_, fun hs hg => ?_, State.merge_of_worse⟩
  · have hm := State.merge_of_unsettled (b := b) (n := n) hs
    refine ⟨fun hd => next_of_merge hm (LineTime.mergeUnsettled_of_ahead hd), fun hlow hd hb => ?_,
      fun hd hb => ?_, fun hd hb => ?_⟩ <;> rw [hb] at hm
    · exact next_of_merge hm (LineTime.mergeUnsettled_of_within hlow hd)
    · exact next_of_merge hm (LineTime.mergeUnsettled_of_far_behind hd)
    · exact next_of_merge hm (LineTime.mergeUnsettled_of_unsettled hd)
  · have hm := State.merge_of_better (n := n) hs hg
    exact ⟨fun hd => next_of_merge hm (LineTime.mergeBetter_of_ahead hd),
      fun hd => next_of_merge hm (LineTime.mergeBetter_of_behind hd),
      fun hlow hd => next_of_merge hm (LineTime.mergeBetter_of_within hlow hd)⟩
  · have hm := State.merge_of_equal (n := n) hs hg
    exact ⟨fun hd => next_of_merge hm (LineTime.mergeEqual_of_ahead hd),
      fun hd => next_of_merge hm (LineTime.mergeEqual_of_not_ahead hd)⟩

end Sys2Proof.Machine
end

section
/-! SUPPORT. Sign Page Memory (chapter 8): what every pixel holds after a PLANE, a COLOUR and a COPY write. -/

namespace Sys2Proof.Machine

/-! ### Addresses of pixels (R144) -/

/-- Different pixels of the pages have different addresses. -/
theorem pixelAddr_inj {p q r y c x : Nat} (hr : r < 64) (hy : y < 64) (hc : c < 256) (hx : x < 256) :
    pixelAddr q y x = pixelAddr p r c ↔ q = p ∧ y = r ∧ x = c := by
  simp only [pixelAddr]; omega

/-! ### One column byte painted -/

/-- The first n pixels of one column byte changed. -/
def paintFirst (m : List Host.Cell) (page row col : Nat) (f : Nat → Byte → Byte) : Nat → List Host.Cell
  | 0 => m
  | n + 1 =>
    let k := paintFirst m page row col f n
    let a := pixelAddr page row (8 * col + n)
    writePixelCell k a (f n (readPixelCell k a))

theorem paintByte_eq_paintFirst (m : List Host.Cell) (page row col : Nat) (f : Nat → Byte → Byte) :
    paintByte m page row col f = paintFirst m page row col f 8 := rfl

theorem paintFirst_wf {m : List Host.Cell} (hm : Memory.wf m = true) (page row col : Nat) (f : Nat → Byte → Byte)
    (n : Nat) : Memory.wf (paintFirst m page row col f n) = true := by
  induction n with
  | zero => exact hm
  | succ n ih => exact writePixelCell_wf ih _ _

theorem paintByte_wf {m : List Host.Cell} (hm : Memory.wf m = true) (page row col : Nat) (f : Nat → Byte → Byte) :
    Memory.wf (paintByte m page row col f) = true := paintFirst_wf hm page row col f 8

section
variable {m : List Host.Cell} {page row col q y x : Nat} (hm : Memory.wf m = true) (hr : row < 64) (hc : col < 32)
  (hy : y < 64) (hx : x < 256)
include hm hr hc hy hx

theorem readPixelCell_paintFirst (f : Nat → Byte → Byte) {n : Nat} (hn : n ≤ 8) :
    readPixelCell (paintFirst m page row col f n) (pixelAddr q y x) =
      if q = page ∧ y = row ∧ x / 8 = col ∧ x % 8 < n then f (x % 8) (readPixelCell m (pixelAddr q y x))
      else readPixelCell m (pixelAddr q y x) := by
  induction n with
  | zero => simp [paintFirst]
  | succ n ih =>
    have ih := ih (by omega)
    have hinj := pixelAddr_inj (p := page) (q := q) hr hy (show 8 * col + n < 256 by omega) hx
    unfold paintFirst
    by_cases h : q = page ∧ y = row ∧ x = 8 * col + n
    · have hrem : x % 8 = n := by omega
      rw [← hinj.2 h, readPixelCell_write_same (paintFirst_wf hm ..), ih, if_neg (by omega), if_pos (by omega), hrem]
    · rw [readPixelCell_write_ne _ _ (mt hinj.1 h), ih]
      exact if_congr (by omega) rfl rfl

theorem readPixelCell_paintByte (f : Nat → Byte → Byte) :
    readPixelCell (paintByte m page row col f) (pixelAddr q y x) =
      if q = page ∧ y = row ∧ x / 8 = col then f (x % 8) (readPixelCell m (pixelAddr q y x))
      else readPixelCell m (pixelAddr q y x) := by
  rw [paintByte_eq_paintFirst, readPixelCell_paintFirst hm hr hc hy hx f (Nat.le_refl 8)]
  exact if_congr (by omega) rfl rfl

theorem readPixelCell_paintByte_ne (f : Nat → Byte → Byte) (h : ¬ (q = page ∧ y = row ∧ x / 8 = col)) :
    readPixelCell (paintByte m page row col f) (pixelAddr q y x) = readPixelCell m (pixelAddr q y x) :=
  (readPixelCell_paintByte hm hr hc hy hx f).trans (if_neg h)

end

/-! ### Data bytes painted along a row (R152, R153) -/

theorem readPixelCell_paintBytes {cols page row q y x : Nat} (g : Byte → Nat → Byte → Byte) (data : List Byte) (col : Nat)
    {m : List Host.Cell} (hm : Memory.wf m = true) (hr : row < 64) (hcols : cols ≤ 32) (hy : y < 64) (hx : x < 256) :
    readPixelCell (paintBytes cols page row g col data m) (pixelAddr q y x) =
      if q = page ∧ y = row ∧ col ≤ x / 8 ∧ x / 8 < cols then
        data[x / 8 - col]?.elim (readPixelCell m (pixelAddr q y x)) (g · (x % 8) (readPixelCell m (pixelAddr q y x)))
      else readPixelCell m (pixelAddr q y x) := by
  induction data generalizing col m with
  | nil => simp [paintBytes]
  | cons b rest ih =>
    unfold paintBytes
    by_cases hc : col < cols
    · rw [if_pos hc, ih _ (paintByte_wf hm ..), readPixelCell_paintByte hm hr (by omega) hy hx]
      obtain hbefore | hat | hafter : x / 8 < col ∨ x / 8 = col ∨ col < x / 8 := by omega
      · rw [if_neg (by omega), if_neg (by omega), if_neg (by omega)]
      · rw [if_neg (by omega), hat, Nat.sub_self]
        exact if_congr (by omega) rfl rfl
      · have hne : ¬ (q = page ∧ y = row ∧ x / 8 = col) := by omega
        rw [if_neg hne, show x / 8 - col = x / 8 - (col + 1) + 1 by omega, List.getElem?_cons_succ]
        exact if_congr (by omega) rfl rfl
    · rw [if_neg hc, ih _ hm, if_neg (by omega), if_neg (by omega)]

/-- The pixels that a write's data bytes can reach: those of its row, from its column byte to the row's end (R152). -/
def State.Covers (s : State) (page row col q y x : Nat) : Prop :=
  q = page ∧ y = row ∧ row < s.cfg.signHeight ∧ col ≤ x / 8 ∧ x / 8 < s.cfg.signWidth / 8

/-- The data bytes of a write painted, where its row is a row of the sign (R152, R153). -/
def State.paintRow (s : State) (page row col : Nat) (g : Byte → Nat → Byte → Byte) (data : List Byte) : List Host.Cell :=
  if row < s.cfg.signHeight then paintBytes s.signCols page row g col data s.pages.pixels else s.pages.pixels

theorem State.applyWrite_plane (s : State) (page : Fin 4) (row col : Nat) (planes : BitVec 4) (fn : PlaneFn) (rotate : Nat)
    (mask : Byte) (data : List Byte) :
    s.applyWrite page (.plane row col planes fn rotate mask data) =
      some (s.paintRow page row col (planePixel planes fn rotate mask) data) := rfl

theorem State.applyWrite_colour (s : State) (page : Fin 4) (row col : Nat) (mask : Byte) (colour : Nat) (data : List Byte) :
    s.applyWrite page (.colour row col mask colour data) =
      some (s.paintRow page row col (colourPixel colour mask) data) := rfl

theorem State.SignSized.signCols_le {s : State} (h : s.SignSized) : s.signCols ≤ 32 := by
  obtain ⟨hwidth, _⟩ := h
  unfold State.signCols; omega

section
variable {s : State} {page row col q y x : Nat} (hs : s.SignSized) (hp : s.pages.PixelsSound) (hy : y < 64) (hx : x < 256)
  (g : Byte → Nat → Byte → Byte) (data : List Byte)
include hs hp hy hx

theorem State.readPixelCell_paintRow_of_some {d : Byte} (h : s.Covers page row col q y x)
    (hd : data[x / 8 - col]? = some d) :
    readPixelCell (s.paintRow page row col g data) (pixelAddr q y x) =
      g d (x % 8) (readPixelCell s.pages.pixels (pixelAddr q y x)) := by
  obtain ⟨hq, hyr, hrow, hcol, hend⟩ := h
  rw [State.paintRow, if_pos hrow, readPixelCell_paintBytes g data col hp.1 (hyr ▸ hy) hs.signCols_le hy hx,
    if_pos ⟨hq, hyr, hcol, hend⟩, hd, Option.elim_some]

/-- A pixel stays where no data byte reaches it, and where the one that does keeps its colour. -/
theorem State.readPixelCell_paintRow_of_kept
    (h : s.Covers page row col q y x → ∀ d, data[x / 8 - col]? = some d →
      g d (x % 8) (readPixelCell s.pages.pixels (pixelAddr q y x)) = readPixelCell s.pages.pixels (pixelAddr q y x)) :
    readPixelCell (s.paintRow page row col g data) (pixelAddr q y x) = readPixelCell s.pages.pixels (pixelAddr q y x) := by
  by_cases hrow : row < s.cfg.signHeight
  · rw [State.paintRow, if_pos hrow,
      readPixelCell_paintBytes g data col hp.1 (Nat.lt_of_lt_of_le hrow hs.2) hs.signCols_le hy hx]
    split
    · rename_i hat
      obtain ⟨hq, hyr, hcol, hend⟩ := hat
      cases hd : data[x / 8 - col]? with
      | none => rfl
      | some d => exact h ⟨hq, hyr, hrow, hcol, hend⟩ d hd
    · rfl
  · rw [State.paintRow, if_neg hrow]

end

/-! ### One pixel under a PLANE and a COLOUR write (R152, R153) -/

/-- The new value of one plane of one pixel, from the data's value and the old one (R152). -/
def PlaneFn.bit : PlaneFn → Bool → Bool → Bool
  | .replace, v, _ => v
  | .and, v, o => v && o
  | .or, v, o => v || o
  | .xor, v, o => v != o

theorem planeResult_bit (fn : PlaneFn) (v : Bool) (old : Byte) {p : Nat} (hp : p < 4) :
    (planeResult fn v old).getLsbD p = fn.bit v (old.getLsbD p) := by
  have hall : (if v then 15 else 0 : Byte).getLsbD p = v := by
    revert v p; decide
  cases fn <;>
    simp only [planeResult, PlaneFn.bit, BitVec.getLsbD_and, BitVec.getLsbD_or, BitVec.getLsbD_xor, Bool.bne_eq_xor, hall]

/-- A rotation right moves each pixel value that many places to the right, those past the right end to the left (R152). -/
theorem pixelBit_rotateRight (b : Byte) {rotate i : Nat} (hr : rotate < 8) (hi : i < 8) :
    pixelBit (b.rotateRight rotate) i = b.getLsbD (7 - (i + 8 - rotate) % 8) := by
  rw [pixelBit, BitVec.getLsbD_rotateRight, Nat.mod_eq_of_lt hr]
  by_cases hleft : rotate ≤ i
  · rw [decide_eq_true (by omega), cond_true, show 7 - (i + 8 - rotate) % 8 = rotate + (7 - i) by omega]
  · rw [decide_eq_false (by omega), cond_false, decide_eq_true (by omega), Bool.true_and,
      show 7 - (i + 8 - rotate) % 8 = 7 - i - (8 - rotate) by omega]

theorem planePixel_bit (planes : BitVec 4) (fn : PlaneFn) {rotate i p : Nat} {mask : Byte} (data old : Byte)
    (hr : rotate < 8) (hi : i < 8) (hmask : pixelBit mask i = true) (hp : p < 4) :
    (planePixel planes fn rotate mask data i old).getLsbD p =
      if planes.getLsbD p then fn.bit (data.getLsbD (7 - (i + 8 - rotate) % 8)) (old.getLsbD p)
      else old.getLsbD p := by
  have hp8 : p < 8 := by omega
  simp only [planePixel, if_pos hmask, pixelBit_rotateRight data hr hi, BitVec.getLsbD_or, BitVec.getLsbD_and,
    BitVec.getLsbD_not, BitVec.getLsbD_setWidth, planeResult_bit _ _ _ hp, hp8, decide_true, Bool.true_and]
  cases planes.getLsbD p <;> simp

theorem planePixel_of_not_mask {mask : Byte} {i : Nat} (h : pixelBit mask i = false) (planes : BitVec 4) (fn : PlaneFn)
    (rotate : Nat) (data old : Byte) : planePixel planes fn rotate mask data i old = old := by
  simp [planePixel, h]

theorem colourPixel_of_selected {mask data : Byte} {i : Nat} (hmask : pixelBit mask i = true)
    (hdata : pixelBit data i = true) (colour : Nat) (old : Byte) : colourPixel colour mask data i old = BitVec.ofNat 8 colour := by
  simp [colourPixel, hmask, hdata]

theorem colourPixel_of_not_selected {mask data : Byte} {i : Nat} (h : ¬ (pixelBit mask i = true ∧ pixelBit data i = true))
    (colour : Nat) (old : Byte) : colourPixel colour mask data i old = old := by
  simp only [colourPixel, Bool.and_eq_true]
  exact if_neg fun hsel => h hsel.symm

section
variable {s : State} {page row col q y x : Nat} (hs : s.SignSized) (hp : s.pages.PixelsSound) (hy : y < 64) (hx : x < 256)
  {mask : Byte} {data : List Byte}
include hs hp hy hx

/-- Inside the bit mask, a plane of a pixel takes what the function gives (R152). -/
theorem State.readPixelCell_plane_of_named (planes : BitVec 4) (fn : PlaneFn) {rotate p : Nat} {d : Byte} (hr : rotate < 8)
    (h : s.Covers page row col q y x) (hd : data[x / 8 - col]? = some d) (hmask : pixelBit mask (x % 8) = true)
    (hp4 : p < 4) :
    (readPixelCell (s.paintRow page row col (planePixel planes fn rotate mask) data) (pixelAddr q y x)).getLsbD p =
      if planes.getLsbD p then
        fn.bit (d.getLsbD (7 - (x % 8 + 8 - rotate) % 8)) ((readPixelCell s.pages.pixels (pixelAddr q y x)).getLsbD p)
      else (readPixelCell s.pages.pixels (pixelAddr q y x)).getLsbD p := by
  rw [State.readPixelCell_paintRow_of_some hs hp hy hx _ data h hd,
    planePixel_bit planes fn d _ hr (Nat.mod_lt x (by decide)) hmask hp4]

theorem State.readPixelCell_plane_of_kept (planes : BitVec 4) (fn : PlaneFn) (rotate : Nat)
    (h : data[x / 8 - col]? = none ∨ ¬ (s.Covers page row col q y x ∧ pixelBit mask (x % 8) = true)) :
    readPixelCell (s.paintRow page row col (planePixel planes fn rotate mask) data) (pixelAddr q y x) =
      readPixelCell s.pages.pixels (pixelAddr q y x) := by
  refine State.readPixelCell_paintRow_of_kept hs hp hy hx _ data fun hcov d hd => ?_
  obtain hnone | hnot := h
  · simp [hnone] at hd
  · exact planePixel_of_not_mask (Bool.eq_false_iff.2 fun hmask => hnot ⟨hcov, hmask⟩) ..

theorem State.readPixelCell_colour_of_selected (colour : Nat) {d : Byte} (h : s.Covers page row col q y x)
    (hd : data[x / 8 - col]? = some d) (hmask : pixelBit mask (x % 8) = true) (hsel : pixelBit d (x % 8) = true) :
    readPixelCell (s.paintRow page row col (colourPixel colour mask) data) (pixelAddr q y x) = BitVec.ofNat 8 colour := by
  rw [State.readPixelCell_paintRow_of_some hs hp hy hx _ data h hd, colourPixel_of_selected hmask hsel]

theorem State.readPixelCell_colour_of_kept (colour : Nat)
    (h : s.Covers page row col q y x → ∀ d, data[x / 8 - col]? = some d →
      ¬ (pixelBit mask (x % 8) = true ∧ pixelBit d (x % 8) = true)) :
    readPixelCell (s.paintRow page row col (colourPixel colour mask) data) (pixelAddr q y x) =
      readPixelCell s.pages.pixels (pixelAddr q y x) :=
  State.readPixelCell_paintRow_of_kept hs hp hy hx _ data fun hcov d hd =>
    colourPixel_of_not_selected (h hcov d hd) ..

end

/-! ### The steps of a COPY (R154) -/

/-- The pixels that the steps of a COPY write. -/
def CopyNames (cols page row : Nat) (mask : Byte) (n col src q y x : Nat) : Prop :=
  q = page ∧ y = row ∧ col ≤ x / 8 ∧ x / 8 - col < n ∧ x / 8 < cols ∧ src + (x / 8 - col) < cols ∧
    pixelBit mask (x % 8) = true

/-- After the first step of a COPY, the others name the pixels that are left. -/
theorem CopyNames.succ_iff {cols page row n col src q y x : Nat} {mask : Byte} :
    CopyNames cols page row mask (n + 1) col src q y x ↔
      (col < cols ∧ src < cols) ∧
        ((q = page ∧ y = row ∧ x / 8 = col ∧ pixelBit mask (x % 8) = true) ∨
          CopyNames cols page row mask n (col + 1) (src + 1) q y x) := by
  unfold CopyNames
  constructor
  · rintro ⟨hq, hy, hcol, hn, hend, hsrc, hmask⟩
    simp only [hmask, and_true]
    omega
  · rintro ⟨hc, ⟨hq, hy, hcol, hmask⟩ | ⟨hq, hy, hcol, hn, hend, hsrc, hmask⟩⟩ <;>
      simp only [hmask, and_true] <;> omega

/-- One step of a COPY: a column byte takes the source's pixels under the bit mask. -/
def copyStep (page row srcPage srcRow : Nat) (mask : Byte) (col src : Nat) (m : List Host.Cell) : List Host.Cell :=
  paintByte m page row col fun i old =>
    if pixelBit mask i then readPixelCell m (pixelAddr srcPage srcRow (8 * src + i)) else old

theorem copyBytes_succ (cols page row srcPage srcRow : Nat) (mask : Byte) (n col src : Nat) (m : List Host.Cell) :
    copyBytes cols page row srcPage srcRow mask (n + 1) col src m =
      if col < cols ∧ src < cols then
        copyBytes cols page row srcPage srcRow mask n (col + 1) (src + 1) (copyStep page row srcPage srcRow mask col src m)
      else m := rfl

section
variable {cols page row srcPage srcRow q y x : Nat} {mask : Byte} {m : List Host.Cell}

theorem copyStep_wf (hm : Memory.wf m = true) (page row srcPage srcRow : Nat) (mask : Byte) (col src : Nat) :
    Memory.wf (copyStep page row srcPage srcRow mask col src m) = true := paintByte_wf hm ..

variable (hm : Memory.wf m = true) (hr : row < 64) (hcols : cols ≤ 32) (hy : y < 64) (hx : x < 256)
include hm hr hy hx

theorem readPixelCell_copyStep_of_named {col : Nat} (hc : col < 32) (src : Nat)
    (h : q = page ∧ y = row ∧ x / 8 = col ∧ pixelBit mask (x % 8) = true) :
    readPixelCell (copyStep page row srcPage srcRow mask col src m) (pixelAddr q y x) =
      readPixelCell m (pixelAddr srcPage srcRow (8 * src + x % 8)) := by
  obtain ⟨hq, hyr, hcol, hmask⟩ := h
  rw [copyStep, readPixelCell_paintByte hm hr hc hy hx, if_pos ⟨hq, hyr, hcol⟩, if_pos hmask]

theorem readPixelCell_copyStep_of_not_named {col : Nat} (hc : col < 32) (src : Nat)
    (h : ¬ (q = page ∧ y = row ∧ x / 8 = col ∧ pixelBit mask (x % 8) = true)) :
    readPixelCell (copyStep page row srcPage srcRow mask col src m) (pixelAddr q y x) =
      readPixelCell m (pixelAddr q y x) := by
  rw [copyStep, readPixelCell_paintByte hm hr hc hy hx]
  split
  · rename_i hat
    obtain ⟨hq, hyr, hcol⟩ := hat
    exact if_neg fun hmask => h ⟨hq, hyr, hcol, hmask⟩
  · rfl

include hcols

/-- A pixel that the steps do not name stays. -/
theorem readPixelCell_copyBytes_of_not_names {n col src : Nat} (h : ¬ CopyNames cols page row mask n col src q y x) :
    readPixelCell (copyBytes cols page row srcPage srcRow mask n col src m) (pixelAddr q y x) =
      readPixelCell m (pixelAddr q y x) := by
  induction n generalizing col src m with
  | zero => rfl
  | succ n ih =>
    rw [copyBytes_succ]
    split
    · rename_i hc
      rw [CopyNames.succ_iff, not_and, not_or] at h
      obtain ⟨hfirst, hrest⟩ := h hc
      rw [ih (copyStep_wf hm ..) hrest, readPixelCell_copyStep_of_not_named hm hr hy hx (by omega) _ hfirst]
    · rfl

/-- Once the steps are past a column byte, they leave it. -/
theorem readPixelCell_copyBytes_behind (n : Nat) {col : Nat} (src : Nat) (h : x / 8 < col) :
    readPixelCell (copyBytes cols page row srcPage srcRow mask n col src m) (pixelAddr q y x) =
      readPixelCell m (pixelAddr q y x) :=
  readPixelCell_copyBytes_of_not_names hm hr hcols hy hx fun ⟨_, _, hcol, _⟩ => absurd hcol (Nat.not_le.2 h)

/-- Where no step writes what a later one reads, a pixel takes its source's colour before the write. -/
theorem readPixelCell_copyBytes_before (hsr : srcRow < 64) {n col src : Nat}
    (hapart : ¬ (srcPage = page ∧ srcRow = row ∧ src < col)) (h : CopyNames cols page row mask n col src q y x) :
    readPixelCell (copyBytes cols page row srcPage srcRow mask n col src m) (pixelAddr q y x) =
      readPixelCell m (pixelAddr srcPage srcRow (8 * (src + (x / 8 - col)) + x % 8)) := by
  induction n generalizing col src m with
  | zero =>
    obtain ⟨_, _, _, hn, _⟩ := h
    exact absurd hn (Nat.not_lt_zero _)
  | succ n ih =>
    have hwf := copyStep_wf hm page row srcPage srcRow mask col src
    obtain ⟨hc, hfirst | hrest⟩ := CopyNames.succ_iff.1 h
    · obtain ⟨_, _, hcol, _⟩ := id hfirst
      rw [copyBytes_succ, if_pos hc, readPixelCell_copyBytes_behind hwf hr hcols hy hx _ _ (by omega),
        readPixelCell_copyStep_of_named hm hr hy hx (by omega) _ hfirst, hcol, Nat.sub_self, Nat.add_zero]
    · obtain ⟨_, _, hcol, _, _, hsrc, _⟩ := id hrest
      rw [copyBytes_succ, if_pos hc, ih hwf (by omega) hrest,
        readPixelCell_copyStep_of_not_named hm hr hsr (by omega) (by omega) _ (by omega),
        show src + 1 + (x / 8 - (col + 1)) = src + (x / 8 - col) by omega]

/-- Where the source lies to the left, a pixel takes what its source holds after the write: the source's column byte is
behind the step that reads it, and no later step returns to it. -/
theorem readPixelCell_copyBytes_after (hsr : srcRow < 64) {n col src : Nat} (hright : src < col)
    (h : CopyNames cols page row mask n col src q y x) :
    readPixelCell (copyBytes cols page row srcPage srcRow mask n col src m) (pixelAddr q y x) =
      readPixelCell (copyBytes cols page row srcPage srcRow mask n col src m)
        (pixelAddr srcPage srcRow (8 * (src + (x / 8 - col)) + x % 8)) := by
  induction n generalizing col src m with
  | zero =>
    obtain ⟨_, _, _, hn, _⟩ := h
    exact absurd hn (Nat.not_lt_zero _)
  | succ n ih =>
    have hwf := copyStep_wf hm page row srcPage srcRow mask col src
    obtain ⟨hc, hfirst | hrest⟩ := CopyNames.succ_iff.1 h
    · obtain ⟨_, _, hcol, _⟩ := id hfirst
      rw [copyBytes_succ, if_pos hc, hcol, Nat.sub_self,
        readPixelCell_copyBytes_behind hwf hr hcols hy hx _ _ (by omega),
        readPixelCell_copyBytes_behind hwf hr hcols hsr (by omega) _ _ (by omega),
        readPixelCell_copyStep_of_named hm hr hy hx (by omega) _ hfirst,
        readPixelCell_copyStep_of_not_named hm hr hsr (by omega) (by omega) _ (by omega), Nat.add_zero]
    · obtain ⟨_, _, hcol, _⟩ := id hrest
      rw [copyBytes_succ, if_pos hc, ih hwf (by omega) hrest,
        show src + 1 + (x / 8 - (col + 1)) = src + (x / 8 - col) by omega]

end

/-- The steps of a COPY taken, where both rows are rows of the sign (R154). -/
def State.copyRow (s : State) (page row col : Nat) (mask : Byte) (src srcRow srcCol count : Nat) : List Host.Cell :=
  if row < s.cfg.signHeight ∧ srcRow < s.cfg.signHeight then
    copyBytes s.signCols page row src srcRow mask count col srcCol s.pages.pixels
  else s.pages.pixels

theorem State.applyWrite_copy {s : State} {page src : Fin 4} (h : src = page ∨ (s.pages.records[src]).state = .ready)
    (row col : Nat) (mask : Byte) (srcRow srcCol count : Nat) :
    s.applyWrite page (.copy row col mask src srcRow srcCol count) =
      some (s.copyRow page row col mask src srcRow srcCol count) := if_pos h.symm

/-- A COPY from another page that is not READY is a bad write (R154). -/
theorem State.applyWrite_copy_bad {s : State} {page src : Fin 4} (hpage : src ≠ page)
    (hstate : (s.pages.records[src]).state ≠ .ready) (row col : Nat) (mask : Byte) (srcRow srcCol count : Nat) :
    s.applyWrite page (.copy row col mask src srcRow srcCol count) = none :=
  if_neg (not_or.2 ⟨hstate, hpage⟩)

section
variable {s : State} {page row col src srcRow srcCol count q y x : Nat} {mask : Byte} (hs : s.SignSized)
  (hp : s.pages.PixelsSound) (hy : y < 64) (hx : x < 256)
include hs hp hy hx

theorem State.readPixelCell_copyRow_of_named (hrow : row < s.cfg.signHeight) (hsrow : srcRow < s.cfg.signHeight)
    (h : CopyNames s.signCols page row mask count col srcCol q y x) :
    let m := s.copyRow page row col mask src srcRow srcCol count
    let from' := pixelAddr src srcRow (8 * (srcCol + (x / 8 - col)) + x % 8)
    readPixelCell m (pixelAddr q y x) =
      if src = page ∧ srcRow = row ∧ srcCol < col then readPixelCell m from' else readPixelCell s.pages.pixels from' := by
  obtain ⟨_, hheight⟩ := id hs
  have hr : row < 64 := by omega
  dsimp only
  rw [State.copyRow, if_pos ⟨hrow, hsrow⟩]
  split
  · rename_i hright
    obtain ⟨_, _, hcol⟩ := hright
    exact readPixelCell_copyBytes_after hp.1 hr hs.signCols_le hy hx (by omega) hcol h
  · rename_i hapart
    exact readPixelCell_copyBytes_before hp.1 hr hs.signCols_le hy hx (by omega) hapart h

theorem State.readPixelCell_copyRow_of_not_named
    (h : row < s.cfg.signHeight → srcRow < s.cfg.signHeight →
      ¬ CopyNames s.signCols page row mask count col srcCol q y x) :
    readPixelCell (s.copyRow page row col mask src srcRow srcCol count) (pixelAddr q y x) =
      readPixelCell s.pages.pixels (pixelAddr q y x) := by
  unfold State.copyRow
  split
  · rename_i hrows
    exact readPixelCell_copyBytes_of_not_names hp.1 (Nat.lt_of_lt_of_le hrows.1 hs.2) hs.signCols_le hy hx
      (h hrows.1 hrows.2)
  · rfl

end

/-! ### The statement -/

/-- Settles O44, by the form of the write: the two forms with data by the pixels their data bytes cover, a COPY by induction
on its steps. -/
theorem writesChangeThePixelsTheyName : Obligations.WritesChangeThePixelsTheyName := by
  intro s page row col hs hp read old
  refine ⟨fun planes fn rotate mask data hrot => ⟨_, s.applyWrite_plane .., fun q y x hq hy hx => ?_⟩,
    fun mask colour data hcolour => ⟨_, s.applyWrite_colour .., fun q y x hq hy hx => ?_⟩,
    fun mask src srcRow srcCol count => ⟨fun hpage hstate => State.applyWrite_copy_bad hpage hstate .., fun hsrc =>
      ⟨_, State.applyWrite_copy hsrc .., fun q y x hq hy hx => ?_⟩⟩⟩
  · refine ⟨fun d hd named p hp4 => ?_, fun hkept => ?_⟩
    · obtain ⟨hpage, hrow, hheight, hcol, hend, hmask⟩ := named
      refine (State.readPixelCell_plane_of_named hs hp hy hx planes fn hrot
        ⟨hpage, hrow, hheight, hcol, hend⟩ hd hmask hp4).trans ?_
      cases fn <;> rfl
    · refine State.readPixelCell_plane_of_kept hs hp hy hx planes fn rotate (hkept.imp_right fun hnot named => hnot ?_)
      obtain ⟨⟨hpage, hrow, hheight, hcol, hend⟩, hmask⟩ := named
      exact ⟨hpage, hrow, hheight, hcol, hend, hmask⟩
  · refine ⟨fun named => ?_, fun hnot => ?_⟩
    · obtain ⟨hpage, hrow, hheight, hcol, hend, hmask, d, hd, hsel⟩ := named
      have hread := State.readPixelCell_colour_of_selected hs hp hy hx colour
        ⟨hpage, hrow, hheight, hcol, hend⟩ hd hmask hsel
      calc (read _ q y x).toNat = (BitVec.ofNat 8 colour).toNat := congrArg BitVec.toNat hread
        _ = colour := by rw [BitVec.toNat_ofNat]; omega
    · refine State.readPixelCell_colour_of_kept hs hp hy hx colour fun hcov d hd hsel => hnot ?_
      obtain ⟨hpage, hrow, hheight, hcol, hend⟩ := hcov
      exact ⟨hpage, hrow, hheight, hcol, hend, hsel.1, d, hd, hsel.2⟩
  · refine ⟨fun named => ?_, fun hnot => ?_⟩
    · obtain ⟨hpage, hrow, hheight, hsrow, hcol, hcount, hend, hsend, hmask⟩ := named
      have hread := State.readPixelCell_copyRow_of_named (src := src) hs hp hy hx hheight hsrow
        ⟨hpage, hrow, hcol, hcount, hend, hsend, hmask⟩
      exact hread.trans (if_congr (by rw [Fin.ext_iff]) rfl rfl)
    · refine State.readPixelCell_copyRow_of_not_named hs hp hy hx fun hheight hsrow hnames => hnot ?_
      obtain ⟨hpage, hrow, hcol, hcount, hend, hsend, hmask⟩ := hnames
      exact ⟨hpage, hrow, hheight, hsrow, hcol, hcount, hend, hsend, hmask⟩

end Sys2Proof.Machine
end

section
/-! SUPPORT. Weather Monitor (chapter 10): what joining an item does to the gathering, and what one evaluation does to a
rule. -/

namespace Sys2Proof.Machine

/-! ### The gathering (R186) -/

/-- The gathering replaced, its window as it was. -/
def State.setGathering (s : State) (l : List GatherItem) : State :=
  { s with weather := { s.weather with gathering := l } }

section
variable {s : State} {g : GatherItem}

/-- The first item starts the gathering and its window of 500 ms. -/
theorem State.gather_of_empty (h : s.weather.gathering = []) :
    s.gather g =
      { s with weather := { s.weather with gathering := [g], windowTimer := some ⟨s.refTime, 500000⟩ } } := if_pos h

theorem State.gather_of_held (h : ∃ x ∈ s.weather.gathering, x.rule = g.rule) :
    s.gather g = s.setGathering (s.weather.gathering.map fun x => if x.rule = g.rule then g else x) := by
  obtain ⟨x, hx, hrule⟩ := h
  have hany : s.weather.gathering.any (fun x => x.rule == g.rule) = true :=
    List.any_eq_true.2 ⟨x, hx, beq_iff_eq.2 hrule⟩
  exact (if_neg (List.ne_nil_of_mem hx)).trans (if_pos hany)

/-- An item of a rule that has none in a gathering under way joins at the tail, and the eighth ends the gathering. -/
theorem State.gather_of_not_held (hne : s.weather.gathering ≠ []) (h : ∀ x ∈ s.weather.gathering, x.rule ≠ g.rule) :
    s.gather g =
      if 8 ≤ s.weather.gathering.length + 1 then (s.setGathering (s.weather.gathering ++ [g])).sendWalr
      else s.setGathering (s.weather.gathering ++ [g]) := by
  have hany : ¬ s.weather.gathering.any (fun x => x.rule == g.rule) = true := fun ha => by
    obtain ⟨x, hx, hrule⟩ := List.any_eq_true.1 ha
    exact h x hx (beq_iff_eq.1 hrule)
  have hlength : (s.weather.gathering ++ [g]).length = s.weather.gathering.length + 1 := List.length_append
  rw [← hlength]
  exact (if_neg hne).trans (if_neg hany)

end

/-! ### The conditions (R181) -/

theorem raiseHolds_above_iff {r : RuleConfig} (h : r.sense = .above) (v : Int) :
    raiseHolds r v = true ↔ r.raiseAt ≤ v := by simp [raiseHolds, h]

theorem raiseHolds_below_iff {r : RuleConfig} (h : r.sense = .below) (v : Int) :
    raiseHolds r v = true ↔ v ≤ r.raiseAt := by simp [raiseHolds, h]

theorem clearHolds_above_iff {r : RuleConfig} (h : r.sense = .above) (v : Int) :
    clearHolds r v = true ↔ v < r.clearAt := by simp [clearHolds, h]

theorem clearHolds_below_iff {r : RuleConfig} (h : r.sense = .below) (v : Int) :
    clearHolds r v = true ↔ r.clearAt < v := by simp [clearHolds, h]

/-! ### The effects of a move (R184) -/

/-- The state of a rule replaced. -/
def State.moveRule (s : State) (n : Fin 8) (st : RuleState) : State :=
  s.setRule n { s.weather.rules[n] with state := st }

/-- The renewal timer of a rule replaced. -/
def State.setRenewal (s : State) (n : Fin 8) (x : Timer) : State :=
  s.setRule n { s.weather.rules[n] with renewal := x }

section
variable {s : State} {n : Fin 8}

theorem State.rule_of_cfg {t : State} (h : t.cfg = s.cfg) : t.rule n = s.rule n := by simp only [State.rule, h]

theorem State.rule_gather (g : GatherItem) : (s.gather g).rule n = s.rule n :=
  State.rule_of_cfg (s.gather_item g (part := .cfg) (by decide))

theorem State.rule_claimForRule : (s.claimForRule n).rule n = s.rule n :=
  State.rule_of_cfg (s.claimForRule_item n (part := .cfg) (by decide))

/-- The lifetime by which a raised rule is renewed is that of the rule before the item is gathered and the claim made. -/
theorem State.ruleRaised_eq :
    let t := (s.gather (alertOf (s.rule n) n)).claimForRule n
    s.ruleRaised n = t.setRenewal n (some ⟨t.refTime, (s.rule n).lifetime * 500000⟩) := by
  simp only [State.ruleRaised, State.setRenewal, State.renewalTimer, State.startTimer, State.rule_claimForRule,
    State.rule_gather]

theorem State.ruleRaised_of_claim {page : Fin 4} {priority : Nat} (h : (s.rule n).claim = some (page, priority)) :
    let t := (s.gather (alertOf (s.rule n) n)).ruleClaim n page priority (s.rule n).lifetime
    s.ruleRaised n = t.setRenewal n (some ⟨t.refTime, (s.rule n).lifetime * 500000⟩) := by
  simp only [State.ruleRaised_eq, State.claimForRule, State.rule_gather, h]

theorem State.ruleRaised_of_no_claim (h : (s.rule n).claim = none) :
    let t := s.gather (alertOf (s.rule n) n)
    s.ruleRaised n = t.setRenewal n (some ⟨t.refTime, (s.rule n).lifetime * 500000⟩) := by
  simp only [State.ruleRaised_eq, State.claimForRule, State.rule_gather, h]

theorem State.ruleCleared_eq :
    let t := s.gather (withdrawOf (s.rule n) n)
    s.ruleCleared n = (if (s.rule n).claim.isSome then t.ruleWithdraw n else t).setRenewal n none := by
  simp only [State.ruleCleared, State.withdrawForRule, State.setRenewal, State.rule_gather]

end

/-! ### One evaluation (R183) -/

section
variable {s : State} {n : Fin 8} {before st : RuleState} {raiseC clearC : Bool}

theorem State.evaluate_to_raised (hw : (s.weather.rules[n]).state = before) (hbefore : before.isRaised = false)
    (hnext : before.next (s.rule n).persistence raiseC clearC = .raised) :
    s.evaluate n raiseC clearC = (s.moveRule n .raised).ruleRaised n := by
  simp only [State.evaluate, hw, hnext, hbefore]
  rfl

theorem State.evaluate_to_cleared (hw : (s.weather.rules[n]).state = before) (hbefore : before.isRaised = true)
    (hnext : before.next (s.rule n).persistence raiseC clearC = .clear) :
    s.evaluate n raiseC clearC = (s.moveRule n .clear).ruleCleared n := by
  simp only [State.evaluate, hw, hnext, hbefore]
  rfl

/-- A move within RAISED and CLEARING, or within CLEAR and PENDING, has no effect besides the rule's state. -/
theorem State.evaluate_within (hw : (s.weather.rules[n]).state = before) (hbefore : before.isRaised = st.isRaised)
    (hnext : before.next (s.rule n).persistence raiseC clearC = st) :
    s.evaluate n raiseC clearC = s.moveRule n st := by
  simp only [State.evaluate, hw, hnext, hbefore]
  cases st.isRaised <;> rfl

/-- The rows of CLEAR and PENDING: the raise condition leads to RAISED once it has held as often as the persistence asks,
and on to `st` before that; without it the rule is CLEAR. -/
theorem State.evaluate_from_not_raised {enough : Prop} [Decidable enough] (hw : (s.weather.rules[n]).state = before)
    (hbefore : before.isRaised = false) (hst : st.isRaised = false)
    (hnext : before.next (s.rule n).persistence raiseC clearC =
      if raiseC then (if enough then .raised else st) else .clear) :
    s.evaluate n raiseC clearC =
      if raiseC then (if enough then (s.moveRule n .raised).ruleRaised n else s.moveRule n st)
      else s.moveRule n .clear := by
  split_ifs at hnext ⊢
  · exact State.evaluate_to_raised hw hbefore hnext
  · exact State.evaluate_within hw (hbefore.trans hst.symm) hnext
  · exact State.evaluate_within hw hbefore hnext

/-- The rows of RAISED and CLEARING, as those of CLEAR and PENDING with the clear condition. -/
theorem State.evaluate_from_raised {enough : Prop} [Decidable enough] (hw : (s.weather.rules[n]).state = before)
    (hbefore : before.isRaised = true) (hst : st.isRaised = true)
    (hnext : before.next (s.rule n).persistence raiseC clearC =
      if clearC then (if enough then .clear else st) else .raised) :
    s.evaluate n raiseC clearC =
      if clearC then (if enough then (s.moveRule n .clear).ruleCleared n else s.moveRule n st)
      else s.moveRule n .raised := by
  split_ifs at hnext ⊢
  · exact State.evaluate_to_cleared hw hbefore hnext
  · exact State.evaluate_within hw (hbefore.trans hst.symm) hnext
  · exact State.evaluate_within hw hbefore hnext

end

/-! ### The statement -/

/-- Settles O49, by the row of the table, the sense of the rule and what the gathering holds. -/
theorem rulesMoveAsTheTableGives : Obligations.RulesMoveAsTheTableGives := by
  refine ⟨fun s n raiseC clearC => ?_, fun r v => ⟨fun h => ⟨raiseHolds_above_iff h v, clearHolds_above_iff h v⟩,
    fun h => ⟨raiseHolds_below_iff h v, clearHolds_below_iff h v⟩⟩, fun s g => ⟨State.gather_of_empty,
    State.gather_of_held, fun hne hnew => ⟨fun hlt => ?_, fun heq => ?_⟩⟩⟩
  · intro c w put item renewal up down run
    have hup : (s.moveRule n .raised).ruleRaised n = up := by
      rcases hclaim : c.claim with _ | ⟨page, priority⟩
      · simp only [up, hclaim]
        exact State.ruleRaised_of_no_claim hclaim
      · simp only [up, hclaim]
        exact State.ruleRaised_of_claim hclaim
    have hdown : (s.moveRule n .clear).ruleCleared n = down := State.ruleCleared_eq
    rw [← hup, ← hdown]
    exact ⟨fun hw => State.evaluate_from_not_raised hw rfl rfl rfl,
      fun k hw => State.evaluate_from_not_raised hw rfl rfl rfl,
      fun hw => State.evaluate_from_raised hw rfl rfl rfl,
      fun k hw => State.evaluate_from_raised hw rfl rfl rfl⟩
  · exact (State.gather_of_not_held hne hnew).trans (if_neg (Nat.not_le.2 hlt))
  · exact (State.gather_of_not_held hne hnew).trans (if_pos heq.ge)

end Sys2Proof.Machine
end

section
/-! SUPPORT. What a command can touch: the items of the state that each command can change, and the lift of a fact about
every command to a fact about every step. -/

namespace Sys2Proof.Machine

/-- The items that the spool's own ends of operations can change: the array, the spool and both sides of delivery. -/
def tollParts : List Part := [.east, .west, .array, .spool, .sending, .receipt, .equip]

/-- The items that a command can change. A start can change every item but the commands that wait. -/
def touched : Instr → List Part
  | .start | .resetHeld =>
    [.node, .cfg, .loadTimer, .east, .west, .clash, .reach, .time, .inputs, .calls, .array, .spool, .sending, .receipt,
      .pages, .display, .weather, .equip, .refTime, .freeCount]
  | .configurationImageReadEnd _ | .loadingReadTimeout =>
    [.node, .cfg, .loadTimer, .east, .west, .reach, .time, .inputs, .calls, .array, .spool, .sending, .receipt, .display,
      .weather, .equip, .freeCount]
  | .startScanReadEnd => [.spool]
  | .generationMarkProgramEnd | .generationMarkProgramLimit | .markSectorEraseEnd _ | .markSectorEraseLimit _ =>
    [.node, .east, .west, .reach, .time, .inputs, .calls, .array, .spool, .sending, .receipt, .display, .weather, .equip,
      .freeCount]
  | .lightPresent _ | .frameSendEnd _ => [.east, .west]
  | .lightLost _ | .portSilenceTimerExpiry _ => [.east, .west, .reach, .calls, .array, .spool, .sending]
  | .frameReceived _ _ =>
    [.east, .west, .clash, .reach, .time, .calls, .array, .spool, .sending, .receipt, .pages, .display, .equip, .freeCount]
  | .beatTimerExpiry => [.east, .west, .reach]
  | .reachEntryAgeLimit _ _ => [.east, .west, .reach, .calls, .array, .spool, .sending]
  | .ltCarry => [.time, .refTime]
  | .gradeTimerExpiry | .timeValueLapse | .timeInputPulse | .inputLockLapse => [.time]
  | .time _ => [.time, .equip]
  | .pinChange _ _ | .pulseEdge _ => [.inputs]
  | .filterWaitEnd _ =>
    [.east, .west, .inputs, .calls, .array, .spool, .sending, .display, .weather, .equip, .freeCount]
  | .pulseWindowEnd _ => [.east, .west, .inputs, .display, .weather, .equip]
  | .attemptTimerExpiry _ | .ringOutAttemptTimerExpiry _ | .roadsideSilenceTimerExpiry _ | .roadsideKeepTimerExpiry _
  | .releaseTimerExpiry _ | .voiceSamplesComplete _ _ => [.east, .west, .calls]
  | .terminusSilenceTimerExpiry _ | .queuedKeepTimerExpiry _ | .callingRingTimerExpiry _ | .ringOut _ _ | .hangup _
  | .consoleVoice _ _ => [.east, .west, .calls, .equip]
  | .roadsideRingTimerExpiry _ | .toneCadenceStep _ | .ringCadenceStep _ => [.calls]
  | .playTimerExpiry _ | .pendingListDrain => [.calls, .equip]
  | .tollSubmit _ _ _ _ => [.array, .spool, .sending, .equip]
  | .eraseSuspensionComplete | .closeTimerExpiry => [.array, .spool, .sending]
  | .recordProgramEnd | .recordProgramLimit | .markProgramEnd | .readEnd | .readLimit | .retryTimerExpiry | .goBack =>
    tollParts
  | .markProgramLimit | .eraseDone _ | .eraseLimit _ => .freeCount :: tollParts
  | .answerPlaceDrain => [.spool, .equip]
  | .loadTimerExpiry _ => [.east, .west, .pages, .equip]
  | .frameEnd => [.east, .west, .display, .equip]
  | .reading _ _ _ | .renewalTimerExpiry _ => [.east, .west, .display, .weather, .equip]
  | .staleTimerExpiry _ => [.weather]
  | .gatheringWindowExpiry | .reportTimerExpiry => [.east, .west, .weather, .equip]
  | .statusAsk _ => [.equip, .freeCount]
  | .sendSign _ _ _ _ => [.east, .west, .pages, .display, .equip, .freeCount]
  | .outboundTransferStart | .outboundTransferEnd | .badMessage _ => [.equip]
  | .statusTimerExpiry => [.east, .west, .equip]

/-- A start leaves the commands that wait. -/
theorem State.restart_item (s : State) (n : NodeState) (timer : Timer) {part : Part} (h : part ∉ touched .start) :
    (s.restart n timer).item part = s.item part := by
  cases part <;> first | rfl | exact absurd (by decide) h

/-- A command leaves every item that it cannot touch. -/
theorem exec_leaves {c : Instr} {s t : State} (h : exec c s = .next t) {part : Part} (hp : part ∉ touched c) :
    t.item part = s.item part := by
  cases c <;> injection h with h <;> subst h
  case start | resetHeld => exact State.restart_item s _ _ hp
  case lightPresent | lightLost =>
    simp [touched] at hp; dsimp only
    (repeat' split) <;> simp [hp]
  all_goals simp [touched, tollParts] at hp; (repeat' split) <;> simp [hp]

/-- A step runs the command at the front of the queue, or lets one reference period pass. -/
theorem step_cases {s t : State} (h : step s = .next t) :
    (∃ c rest, s.pending = c :: rest ∧ exec c { s with pending := rest } = .next t) ∨ (s.pending = [] ∧ t = s.tick) := by
  unfold step at h
  split at h
  next c rest hp => exact .inl ⟨c, rest, hp, h⟩
  next hp => exact .inr ⟨hp, by injection h with h; exact h.symm⟩

/-- What every command keeps, whatever waits in the queue, every step keeps, when the lapse of a period keeps it too. -/
theorem step_keeps {Inv : State → Prop} (hq : ∀ s rest, Inv s → Inv { s with pending := rest })
    (hc : ∀ c s t, Inv s → exec c s = .next t → Inv t) (ht : ∀ s, Inv s → Inv s.tick) {s t : State} (hs : Inv s)
    (h : step s = .next t) : Inv t := by
  obtain ⟨c, rest, -, he⟩ | ⟨-, rfl⟩ := step_cases h
  · exact hc c _ t (hq s rest hs) he
  · exact ht s hs

/-- One item of the state under every step. -/
theorem step_keeps_item {part : Part} {Inv : part.Content → Prop} (hpart : part ∉ [.time, .refTime, .pending])
    (hc : ∀ c s t, Inv (s.item part) → exec c s = .next t → Inv (t.item part)) {s t : State} (hs : Inv (s.item part))
    (h : step s = .next t) : Inv (t.item part) := by
  simp at hpart
  refine step_keeps (Inv := fun u => Inv (u.item part)) (fun u rest hu => ?_) hc (fun u hu => ?_) hs h
  · rw [item_set_pending u rest hpart.2.2]; exact hu
  · rw [State.tick_item u (by simp [hpart])]; exact hu

end Sys2Proof.Machine
end

section
/-! SUPPORT. What every step keeps (chapter 1): the soundness of the line ports. -/

namespace Sys2Proof.Machine

/-- The state right after a start has sound ports. -/
theorem State.restart_portsSound (s : State) (n : NodeState) (timer : Timer) : (s.restart n timer).PortsSound :=
  ⟨initial_sound, initial_sound⟩

/-- A port that counts light, or has light no more, is as sound as before. -/
theorem State.PortsSound.light {s : State} (h : s.PortsSound) (p : PortId) (b : Bool) :
    (s.setPort p { s.port p with light := b }).PortsSound := h.setPort p (h.port p)

/-- A port whose sending has ended has all that a port with a free transmitter needs, before the arbiter acts. -/
theorem LinePort.Sound.sendEnd {q : LinePort} (h : q.Sound) : LinePort.Stocked { q with sending := none } := by
  have := h.stocked
  unfold LinePort.Stocked at this ⊢
  cases hq : q.state <;> simp_all

/-- At the end of a sending the arbiter leaves sound ports. -/
theorem State.PortsSound.sendEnd {s : State} (h : s.PortsSound) (p : PortId) :
    ((s.setPort p { s.port p with sending := none }).arbitrate p).PortsSound :=
  .ofPorts p (State.arbitrate_port s p _ (h.port p).sendEnd) (by
    rw [State.arbitrate_opposite, State.port_setPort_opposite]; exact h.port _)

/-- Both ports are sound, in the form of the lemmas about offers. -/
theorem State.portsSound_iff (s : State) :
    s.PortsSound ↔ LinePort.Meets (soundPorts .east) (s.item .east) ∧ LinePort.Meets (soundPorts .west) (s.item .west) :=
  Iff.rfl

/-- Every command keeps both ports sound: a start clears them, the light, silence, reception and end-of-sending commands keep
them by what they do to the port, and every other command reaches them by offers alone. -/
theorem exec_portsSound (c : Instr) (s t : State) (hs : s.PortsSound) (h : exec c s = .next t) : t.PortsSound := by
  by_cases hu : Part.east ∉ touched c ∧ Part.west ∉ touched c
  · exact hs.items (exec_leaves h hu.1) (exec_leaves h hu.2)
  obtain ⟨he, hw⟩ := s.portsSound_iff.1 hs
  cases c <;> injection h with h <;> subst h <;> simp [touched, tollParts] at hu
  case start | resetHeld => exact State.restart_portsSound ..
  case lightPresent p =>
    dsimp only
    split
    · exact hs
    · split
      next hd => exact (hs.light p true).enterProbing p hd
      next => exact hs.light p true
  case lightLost p =>
    dsimp only
    split
    · exact hs
    · split
      · exact hs.light p false
      · exact (hs.light p false).enterDark p
  case portSilenceTimerExpiry p => split <;> [exact hs.enterDark p; exact hs]
  case frameReceived p b => exact hs.takeFrame p b
  case frameSendEnd p => split <;> [exact hs.sendEnd p; exact hs]
  case ringOut | hangup | consoleVoice | sendSign | reading =>
    exact dispatch_ports _ _ _ _ _ he hw (fun u hue huw => by simp [hue, huw, soundPorts_closed]) fun _ hue huw => ⟨hue, huw⟩
  all_goals rw [State.portsSound_iff]; (repeat' split) <;> simp [he, hw, soundPorts_closed]

/-- Settles O13: every command keeps both ports sound, and a reference period leaves them. -/
theorem portsStaySound : Obligations.PortsStaySound := fun _ _ hs h =>
  step_keeps (Inv := State.PortsSound) (fun _ _ hu => hu) exec_portsSound
    (fun u hu => hu.items (u.tick_item (by decide)) (u.tick_item (by decide))) hs h

end Sys2Proof.Machine
end

section
/-! SUPPORT. What every step keeps: the Reach View, the receipt table, the claim list and the outbound queue. -/

namespace Sys2Proof.Machine

/-- Every command keeps both parts of the Reach View sound (R30 to R32). -/
theorem exec_reachSound (c : Instr) (s t : State) (hs : ReachView.Sound (s.item .reach)) (h : exec c s = .next t) :
    ReachView.Sound (t.item .reach) := by
  by_cases hu : Part.reach ∉ touched c
  · rw [exec_leaves h hu]; exact hs
  cases c <;> injection h with h <;> subst h <;> simp [touched, tollParts] at hu
  case start | resetHeld => exact ⟨PartSound.nil, PartSound.nil⟩
  all_goals (try dsimp only); (repeat' split) <;> simp [hs]

/-- Every command keeps the receipt table sound (R135, R138). -/
theorem exec_receiptSound (c : Instr) (s t : State) (hs : Receipt.Sound (s.item .receipt)) (h : exec c s = .next t) :
    Receipt.Sound (t.item .receipt) := by
  by_cases hu : Part.receipt ∉ touched c
  · rw [exec_leaves h hu]; exact hs
  cases c <;> injection h with h <;> subst h <;> simp [touched, tollParts] at hu
  case start | resetHeld => exact ⟨rfl, nofun⟩
  all_goals simp [hs]

/-- Every command keeps the claim list sound (R160 to R162). -/
theorem exec_listSound (c : Instr) (s t : State) (hs : Display.ListSound (s.item .display)) (h : exec c s = .next t) :
    Display.ListSound (t.item .display) := by
  by_cases hu : Part.display ∉ touched c
  · rw [exec_leaves h hu]; exact hs
  cases c <;> injection h with h <;> subst h <;> simp [touched, tollParts] at hu
  case start | resetHeld => exact claimsSound_nil
  case reading | sendSign => exact dispatch_claims _ _ _ _ _ hs (fun u hu => by simp [hu]) fun _ hu => hu
  all_goals (repeat' split) <;> simp [hs]

/-- Every command keeps the outbound queue within its 32 messages: a transfer takes one, and each source finds room (R195). -/
theorem exec_outboundFits (c : Instr) (s t : State) (hs : Equip.Fits (s.item .equip)) (h : exec c s = .next t) :
    Equip.Fits (t.item .equip) := by
  by_cases hu : Part.equip ∉ touched c
  · rw [exec_leaves h hu]; exact hs
  cases c <;> injection h with h <;> subst h <;> simp [touched, tollParts] at hu
  case start | resetHeld => exact Nat.zero_le _
  case time | ringOut | hangup | consoleVoice | tollSubmit | reading | statusAsk | sendSign =>
    exact State.dispatch_outbound _ _ _ _ _ hs (fun u hu => by simp [hu]) fun u hu => by simp [hu]
  case outboundTransferStart =>
    split
    next m rest _ hq =>
      have hrest : rest.length ≤ 32 := Nat.le_of_succ_le (by simpa [Equip.Fits, State.item, hq] using hs)
      split <;> [exact hrest; exact hs]
    next => exact hs
  all_goals (repeat' split) <;> simp [hs]

/-- Settles O57, item by item. -/
theorem tablesStaySound : Obligations.TablesStaySound := fun s t h =>
  ⟨fun hs => step_keeps_item (part := .reach) (by decide) exec_reachSound hs h,
    fun hs => step_keeps_item (part := .receipt) (by decide) exec_receiptSound hs h,
    fun hs => step_keeps_item (part := .display) (by decide) exec_listSound hs h,
    fun hs => step_keeps_item (part := .equip) (by decide) exec_outboundFits hs h⟩

end Sys2Proof.Machine
end

section
/-! SUPPORT. What every step keeps (chapters 8 and 9): the displayed page and the soundness of the sign. -/

namespace Sys2Proof.Machine

/-- A command other than a start changes one page at the most, and not the one that is displayed: a LOADING page is not the
displayed one, which is READY (R147). -/
theorem exec_pagesMove {c : Instr} {s t : State} (hs : s.SignSound) (hstart : c ≠ .start) (hheld : c ≠ .resetHeld)
    (h : exec c s = .next t) : PagesMove s t := by
  obtain ⟨hsized, -, hready⟩ := hs
  by_cases hu : Part.pages ∉ touched c
  · exact PagesMove.same (exec_leaves h hu)
  cases c <;> injection h with h <;> subst h <;> simp [touched, tollParts] at hu hstart hheld
  case frameReceived p b => exact State.takeFrame_move hsized p b
  case loadTimerExpiry page =>
    split
    next hl =>
      refine ⟨page, fun hp => ?_, State.abortLoad_step s page _⟩
      exact absurd (hl.1.symm.trans (hready page hp)) (by decide)
    next => exact PagesMove.same rfl
  case sendSign kind target zone payload =>
    exact State.dispatch_move s _ _ _ _ (State.sendSignFrame_move hsized kind target zone payload) fun _ => rfl

/-- A page move leaves the record and the pixels of the displayed page. -/
theorem PagesMove.shown {s t : State} (h : PagesMove s t) (hs : s.SignSound) {page : Fin 4}
    (hp : s.display.page = some page) :
    t.pages.records[page] = s.pages.records[page] ∧
      ∀ a, a / 16384 = (page : Nat) → readPixelCell t.pages.pixels a = readPixelCell s.pages.pixels a := by
  obtain ⟨q, hq, hstep⟩ := h
  exact (hstep hs.2.1).2 page fun e => hq (e ▸ hp)

/-- Settles O47: a command other than a start moves no page but one that is not displayed. -/
theorem theDisplayedPageIsNeverWritten : Obligations.TheDisplayedPageIsNeverWritten := by
  intro c s t page hs hp hstart hheld h
  obtain ⟨hrecord, hpixels⟩ := (exec_pagesMove hs hstart hheld h).shown hs hp
  exact ⟨hrecord, fun y x hy hx => hpixels _ (by omega)⟩

/-- An accepted image fixes the configuration. -/
theorem State.enterScanning_cfg (s : State) (c : Config) : (s.enterScanning c).cfg = c := by
  suffices hg : (s.enterScanning c).item .cfg = c from hg
  unfold State.enterScanning
  dsimp only
  split <;> simp <;> rfl

/-- The sign that an image gives is within the ranges of R142. -/
theorem State.imageRead_sized {s : State} (hs : s.SignSized) (image : Option (List Byte)) :
    (s.imageRead image).SignSized := by
  unfold State.imageRead
  split
  · split
    next c hc =>
      obtain ⟨b, -, hb⟩ := Option.bind_eq_some_iff.1 hc
      unfold State.SignSized
      rw [State.enterScanning_cfg]
      exact parseImage_sized hb
    next => exact hs
  · exact hs

/-- Every command keeps the sign within its ranges. -/
theorem exec_signSized (c : Instr) (s t : State) (hs : s.SignSized) (h : exec c s = .next t) : t.SignSized := by
  by_cases hu : Part.cfg ∉ touched c
  · exact hs.items (exec_leaves h hu)
  cases c <;> injection h with h <;> subst h <;> simp [touched, tollParts] at hu
  case start | resetHeld => exact ⟨Nat.zero_le _, show 8 ≤ 64 by decide⟩
  case configurationImageReadEnd | loadingReadTimeout => exact State.imageRead_sized hs _

/-- A command other than a start and a frame end displays what was displayed before. -/
theorem exec_shows {c : Instr} {s t : State} (hstart : c ≠ .start) (hheld : c ≠ .resetHeld) (hframe : c ≠ .frameEnd)
    (h : exec c s = .next t) : t.display.page = s.display.page := by
  by_cases hu : Part.display ∉ touched c
  · have hd : t.display = s.display := exec_leaves h hu
    rw [hd]
  have hs : Display.Shows s.display.page (s.item .display) := rfl
  suffices hg : Display.Shows s.display.page (t.item .display) from hg
  cases c <;> injection h with h <;> subst h <;> simp [touched, tollParts] at hu hstart hheld hframe
  case reading | sendSign => exact dispatch_shows _ _ _ _ _ hs (fun u hu => by simp [hu]) fun _ hu => hu
  all_goals (repeat' split) <;> simp [hs]

/-- The displayed page stays READY: a frame end selects a READY page, and every other command leaves both. -/
theorem exec_shownReady {c : Instr} {s t : State} (hs : s.SignSound) (hstart : c ≠ .start) (hheld : c ≠ .resetHeld)
    (h : exec c s = .next t) : t.ShownReady := by
  by_cases hframe : c = .frameEnd
  · subst hframe
    injection h with h
    subst h
    split <;> [exact s.endFrame_ready; exact hs.2.2]
  intro p hp
  rw [exec_shows hstart hheld hframe h] at hp
  rw [((exec_pagesMove hs hstart hheld h).shown hs hp).1]
  exact hs.2.2 p hp

/-- Every command keeps the sign sound. -/
theorem exec_signSound (c : Instr) (s t : State) (hs : s.SignSound) (h : exec c s = .next t) : t.SignSound := by
  refine ⟨exec_signSized c s t hs.1 h, ?_⟩
  by_cases hstart : c = .start ∨ c = .resetHeld
  · obtain rfl | rfl := hstart <;> injection h with h <;> subst h <;> exact ⟨⟨rfl, nofun⟩, nofun⟩
  obtain ⟨hstart, hheld⟩ := not_or.1 hstart
  obtain ⟨page, -, hstep⟩ := exec_pagesMove hs hstart hheld h
  exact ⟨(hstep hs.2.1).1, exec_shownReady hs hstart hheld h⟩

/-- The sign is sound by its items alone. -/
theorem State.SignSound.items {s t : State} (h : s.SignSound) (hc : t.item .cfg = s.item .cfg)
    (hp : t.item .pages = s.item .pages) (hd : t.item .display = s.item .display) : t.SignSound := by
  have hp : t.pages = s.pages := hp
  have hd : t.display = s.display := hd
  refine ⟨h.1.items hc, hp ▸ h.2.1, fun p hq => ?_⟩
  rw [hp]
  exact h.2.2 p (hd ▸ hq)

/-- Settles O58: every command keeps the sign sound, and a reference period leaves it. -/
theorem theSignStaysSound : Obligations.TheSignStaysSound := fun _ _ hs h =>
  step_keeps (Inv := State.SignSound) (fun _ _ hu => hu) exec_signSound
    (fun u hu => hu.items (u.tick_item (by decide)) (u.tick_item (by decide)) (u.tick_item (by decide))) hs h

/-- Settles O60: the start's stores and tables are empty, its ports DARK, its sign absent. -/
theorem theStartMeetsEveryInvariant : Obligations.TheStartMeetsEveryInvariant :=
  ⟨⟨initial_sound, initial_sound⟩, ⟨PartSound.nil, PartSound.nil⟩, ⟨rfl, nofun⟩, claimsSound_nil, Nat.zero_le _,
    ⟨⟨Nat.zero_le _, show 8 ≤ 64 by decide⟩, ⟨rfl, nofun⟩, nofun⟩, ⟨rfl, rfl, rfl, rfl, rfl⟩⟩

end Sys2Proof.Machine
end

section
/-! SUPPORT. The stores of the spool and of the array (R101 to R103): every operation that writes one leaves its keys rising. -/

namespace Sys2Proof.Machine

/-! ### Sparse stores -/

/-- A store whose entries are left out or changed under their keys. -/
theorem keysRising_filterMap {α β : Type} {l : List (Nat × α)} (h : keysRising l = true)
    {f : Nat × α → Option (Nat × β)} (hf : ∀ e e', f e = some e' → e'.1 = e.1) : keysRising (l.filterMap f) = true := by
  rw [keysRising_iff] at *
  exact h.filterMap f fun a b hab a' ha b' hb => by rw [hf a a' ha, hf b b' hb]; exact hab

/-- A store without some of its entries. -/
theorem keysRising_filter {α : Type} {l : List (Nat × α)} (h : keysRising l = true) (p : Nat × α → Bool) :
    keysRising (l.filter p) = true := by
  rw [keysRising_iff] at *
  exact h.filter p

/-- A store made of the keys below a bound. -/
theorem keysRising_range {β : Type} (n : Nat) {f : Nat → Option (Nat × β)} (hf : ∀ k e, f k = some e → e.1 = k) :
    keysRising ((List.range n).filterMap f) = true := by
  rw [keysRising_iff]
  exact List.pairwise_lt_range.filterMap f fun a b hab a' ha b' hb => by rw [hf a a' ha, hf b b' hb]; exact hab

/-- A store with an entry put, or deleted where it is the erased content. -/
theorem keysRising_put {α : Type} {l : List (Nat × α)} (h : keysRising l = true) (c : Prop) [Decidable c] (k : Nat)
    (x : α) : keysRising (if c then keyDel l k else keySet l k x) = true := by
  split <;> [exact keyDel_rising h k; exact keySet_rising h k x]

/-! ### The array -/

/-- Every store of the array has rising keys (R101). -/
def TollArray.Rising (a : TollArray) : Prop :=
  keysRising a.headers = true ∧ keysRising a.slots = true ∧ keysRising a.marks = true

theorem TollArray.Rising.setHeader {a : TollArray} (h : a.Rising) (n : Nat) (x : Header) : (a.setHeader n x).Rising :=
  ⟨keysRising_put h.1 _ n x, h.2⟩

theorem TollArray.Rising.setSlot {a : TollArray} (h : a.Rising) (k : Nat) (c : SlotCells) :
    TollArray.Rising { a with slots := keySet a.slots k c } := ⟨h.1, keySet_rising h.2.1 k c, h.2.2⟩

theorem TollArray.Rising.setMarks {a : TollArray} (h : a.Rising) {l : List (Nat × Nat)} (hl : keysRising l = true) :
    TollArray.Rising { a with marks := l } := ⟨h.1, h.2.1, hl⟩

theorem TollArray.Rising.beginRecord {a : TollArray} (h : a.Rising) (slot : Nat) : (a.beginRecord slot).Rising := by
  unfold TollArray.beginRecord
  dsimp only
  split <;> [exact (h.setHeader _ _).setSlot slot _; exact h.setSlot slot _]

theorem TollArray.Rising.setMark {a : TollArray} (h : a.Rising) (m : MarkTarget) : (a.setMark m).Rising := by
  cases m with
  | weak n | bad n => exact h.setHeader _ _
  | delivered k => unfold TollArray.setMark; dsimp only; split <;> [exact h.setSlot k _; exact h]

theorem TollArray.Rising.abandonMark {a : TollArray} (h : a.Rising) (free : Bool) (m : MarkTarget) :
    (a.abandonMark free m).Rising := by
  unfold TollArray.abandonMark
  split
  · exact h
  · split <;> [exact h.setMark m; exact h]

theorem TollArray.Rising.eraseInPart {a : TollArray} (h : a.Rising) (free : Nat → Bool) (n : Nat) :
    (a.eraseInPart free n).Rising := by
  refine ⟨keyDel_rising h.1 n, keysRising_filterMap h.2.1 fun e e' he => ?_, h.2.2⟩
  (repeat' split at he) <;> cases he <;> rfl

theorem TollArray.Rising.eraseSector {a : TollArray} (h : a.Rising) (n : Nat) : (a.eraseSector n).Rising :=
  ⟨keyDel_rising h.1 n, keysRising_filter h.2.1 _, h.2.2⟩

theorem TollArray.Rising.abandonGenMark {a : TollArray} (h : a.Rising) (free : Option Nat) (place : Nat) :
    (a.abandonGenMark free place).Rising := by
  cases free with
  | none => exact h
  | some v => exact ⟨h.1, h.2.1, keySet_rising h.2.2 place v⟩

/-! ### The spool -/

/-- Both stores of the spool have rising keys (R102, R103). -/
def Spool.Rising (p : Spool) : Prop := keysRising p.slots = true ∧ keysRising p.sectors = true

theorem Spool.Rising.setSlot {p : Spool} (h : p.Rising) (k : Nat) (x : SlotState) :
    Spool.Rising { p with slots := keySet p.slots k x } := ⟨keySet_rising h.1 k x, h.2⟩

theorem Spool.Rising.setSector {p : Spool} (h : p.Rising) (n : Nat) (w : SectorWork) : (p.setSector n w).Rising :=
  ⟨h.1, keysRising_put h.2 _ n w⟩

theorem Spool.Rising.deliver {p : Spool} (h : p.Rising) (a : Position) : (p.deliver a).Rising := by
  unfold Spool.deliver
  split <;> [exact h.setSlot _ _; exact h]

theorem Spool.Rising.weaken {p : Spool} (h : p.Rising) (n : Nat) : (p.weaken n).Rising := h.setSector n _

theorem Spool.Rising.fill {p : Spool} (h : p.Rising) (n : Nat) : Spool.Rising
    { p.setSector n { p.sector n with state := .filling } with fillPoint := some n } :=
  h.setSector n { p.sector n with state := .filling }

theorem Spool.Rising.fillAfter {p : Spool} (h : p.Rising) (after : Option Nat) : (p.fillAfter after).Rising := by
  unfold Spool.fillAfter
  split <;> [exact h.fill _; exact h]

theorem Spool.Rising.clearPending {p : Spool} (h : p.Rising) (m : MarkTarget) : (p.clearPending m).Rising := by
  cases m with
  | weak n | bad n => exact h.setSector n _
  | delivered k => unfold Spool.clearPending; dsimp only; split <;> [exact h.setSlot k _; exact h]

theorem Spool.Rising.weakenFor {p : Spool} (h : p.Rising) (m : MarkTarget) : (p.weakenFor m).Rising := by
  unfold Spool.weakenFor
  split <;> [exact h.weaken _; exact h]

/-! ### The state: sectors, batches and the arbiter -/

theorem State.storesRising_iff (s : State) : s.StoresRising ↔ s.array.Rising ∧ s.spool.Rising := by
  unfold State.StoresRising TollArray.Rising Spool.Rising
  tauto

theorem State.StoresRising.array {s : State} (h : s.StoresRising) : s.array.Rising := (s.storesRising_iff.1 h).1

theorem State.StoresRising.spool {s : State} (h : s.StoresRising) : s.spool.Rising := (s.storesRising_iff.1 h).2

/-- The stores after an array and a spool are put. -/
theorem State.StoresRising.of {t : State} (ha : t.array.Rising) (hp : t.spool.Rising) : t.StoresRising :=
  t.storesRising_iff.2 ⟨ha, hp⟩

/-- What leaves the array and the spool leaves their stores. -/
theorem State.StoresRising.items {s t : State} (h : s.StoresRising) (ha : t.item .array = s.item .array)
    (hp : t.item .spool = s.item .spool) : t.StoresRising := by
  have ha : t.array = s.array := ha
  have hp : t.spool = s.spool := hp
  exact .of (ha ▸ h.array) (hp ▸ h.spool)

theorem State.StoresRising.setReach {s : State} (h : s.StoresRising) (r : ReachView) :
    State.StoresRising { s with reach := r } := h

theorem State.StoresRising.setSending {s : State} (h : s.StoresRising) (d : Sending) :
    State.StoresRising { s with sending := d } := h

theorem State.StoresRising.setScanReading {s : State} (h : s.StoresRising) (b : Bool) :
    State.StoresRising { s with spool := { s.spool with scanReading := b } } := h

theorem State.StoresRising.setMarks {s : State} (h : s.StoresRising) {l : List (Nat × Nat)} (hl : keysRising l = true) :
    State.StoresRising { s with array := { s.array with marks := l } } := .of (h.array.setMarks hl) h.spool

theorem State.StoresRising.setSector {s : State} (h : s.StoresRising) (n : Nat) (w : SectorWork) :
    State.StoresRising { s with spool := s.spool.setSector n w } := .of h.array (h.spool.setSector n w)

theorem State.StoresRising.drainAnswer {s : State} (h : s.StoresRising) : s.drainAnswer.StoresRising := by
  unfold State.drainAnswer
  (repeat' split) <;> exact h

theorem State.StoresRising.answerSpool {s : State} (h : s.StoresRising) (m : CabMsg) : (s.answerSpool m).StoresRising := by
  unfold State.answerSpool
  dsimp only
  split <;> exact h.drainAnswer

theorem State.StoresRising.joinBatch {s : State} (h : s.StoresRising) (n : Nat) : (s.joinBatch n).StoresRising := h

theorem State.StoresRising.retireSector {s : State} (h : s.StoresRising) (n : Nat) : (s.retireSector n).StoresRising := by
  unfold State.retireSector
  dsimp only
  split <;> [exact h.setSector n _; exact (h.setSector n _).joinBatch n]

theorem State.StoresRising.reclaimFull {s : State} (h : s.StoresRising) (n : Nat) : (s.reclaimFull n).StoresRising := by
  unfold State.reclaimFull
  split <;> [exact h.retireSector n; exact h]

theorem State.StoresRising.fillAfter {s : State} (h : s.StoresRising) (after : Option Nat) :
    State.StoresRising { s with spool := s.spool.fillAfter after } := .of h.array (h.spool.fillAfter after)

theorem State.StoresRising.sectorChange {s : State} (h : s.StoresRising) : s.sectorChange.StoresRising := by
  unfold State.sectorChange
  dsimp only
  split
  · exact h
  · split
    · exact h
    · split <;> [exact (h.setSector _ _).fillAfter _; exact (h.retireSector _).fillAfter _]

theorem State.StoresRising.eraseInPart {s : State} (h : s.StoresRising) (ns : List Nat) : (s.eraseInPart ns).StoresRising :=
  .of (List.foldlRecOn ns _ h.array fun _ ha n _ => ha.eraseInPart _ n) h.spool

theorem State.StoresRising.wantGenMark {s : State} (h : s.StoresRising) (v : Nat) : (s.wantGenMark v).StoresRising := h

theorem State.StoresRising.startGenJob {s : State} (h : s.StoresRising) : s.startGenJob.StoresRising := by
  unfold State.startGenJob
  (repeat' split) <;> exact h

theorem State.StoresRising.fillWindow (n : Nat) {s : State} (h : s.StoresRising) : (s.fillWindow n).StoresRising := by
  induction n generalizing s with
  | zero => exact h
  | succ n ih =>
    unfold State.fillWindow
    (repeat' split) <;> first | exact h | exact ih (s := s.windowJoin _) h

theorem State.StoresRising.windowIntake {s : State} (h : s.StoresRising) : s.windowIntake.StoresRising := h.fillWindow 16

theorem State.StoresRising.readResult {s : State} (h : s.StoresRising) (q : Position) (r : Option TollRecord) :
    (s.readResult q r).StoresRising := by
  unfold State.readResult
  split
  · split <;> [exact h; exact State.StoresRising.windowIntake h]
  · exact h

theorem State.StoresRising.takeTack {s : State} (h : s.StoresRising) (ack : Position) : (s.takeTack ack).StoresRising := by
  unfold State.takeTack
  dsimp only
  split
  · exact h
  · refine State.StoresRising.windowIntake (.of h.array ?_)
    exact List.foldlRecOn _ _ (motive := Spool.Rising) h.spool fun _ hp e _ => hp.deliver e.pos

theorem State.StoresRising.buildOne {s : State} (h : s.StoresRising) : s.buildOne.StoresRising := by
  unfold State.buildOne
  dsimp only
  split
  · exact h
  · split
    · exact h.items (by simp) (by simp)
    · exact (h.items (t := s.countSent.receiveRecords _ _ _) (by simp) (by simp)).takeTack _
  · split <;> exact h.items (by simp) (by simp)

theorem State.StoresRising.buildTrecs (n : Nat) {s : State} (h : s.StoresRising) : (s.buildTrecs n).StoresRising := by
  induction n generalizing s with
  | zero => exact h
  | succ n ih => unfold State.buildTrecs; split <;> [exact ih h.buildOne; exact h]

theorem State.StoresRising.startRecord {s : State} (h : s.StoresRising) (slot : Nat) (retry : Bool) :
    (s.startRecord slot retry).StoresRising := .of (h.array.beginRecord slot) h.spool

theorem State.StoresRising.dropStaleReads {s : State} (h : s.StoresRising) : s.dropStaleReads.StoresRising :=
  List.foldlRecOn _ _ (motive := State.StoresRising) h fun _ ht q _ => ht.readResult q none

theorem State.StoresRising.startErase {s : State} (h : s.StoresRising) (b : Batch) : (s.startErase b).StoresRising :=
  .of h.array (List.foldlRecOn b.sectors _ (motive := Spool.Rising) h.spool fun _ hp n _ => hp.setSector n _)

theorem State.StoresRising.grantRest {s : State} (h : s.StoresRising) : s.grantRest.StoresRising := by
  unfold State.grantRest
  (repeat' split) <;> first | exact h | exact h.startErase _

theorem State.StoresRising.grantRead {s : State} (h : s.StoresRising) : s.grantRead.StoresRising := by
  unfold State.grantRead
  dsimp only
  (repeat' split) <;> [exact h.dropStaleReads; exact h.dropStaleReads; exact h.dropStaleReads.grantRest]

theorem State.StoresRising.grant {s : State} (h : s.StoresRising) : s.grant.StoresRising := by
  unfold State.grant
  split
  · exact h.startRecord _ false
  · split <;> [exact h.startGenJob; exact h.grantRead]

theorem State.StoresRising.pump {s : State} (h : s.StoresRising) : s.pump.StoresRising := by
  unfold State.pump
  (repeat' split) <;> first | exact h | exact h.grant

theorem State.StoresRising.runToll {s : State} (h : s.StoresRising) : s.runToll.StoresRising := (h.buildTrecs 17).pump

/-! ### Reports of the Reach View and received frames -/

theorem State.StoresRising.steerTo {s : State} (h : s.StoresRising) (r : Route) : (s.steerTo r).StoresRising := by
  unfold State.steerTo
  split <;> [exact (h.setSending _).windowIntake.pump; exact h]

theorem State.StoresRising.tackDelivered {s : State} (h : s.StoresRising) (f : Frame) : (s.tackDelivered f).StoresRising := by
  unfold State.tackDelivered
  (repeat' split) <;> first | exact h | exact (h.takeTack _).runToll

theorem State.StoresRising.reportChoice {s : State} (h : s.StoresRising) : s.reportChoice.StoresRising := by
  unfold State.reportChoice
  dsimp only
  split
  · exact h
  · exact ((h.setReach _).steerTo _).items (State.callsChoice_item _ _ (by decide)) (State.callsChoice_item _ _ (by decide))

theorem State.StoresRising.reportChange {s : State} (h : s.StoresRising) (lost : List Nat) :
    (s.reportChange lost).StoresRising := by
  unfold State.reportChange
  split <;> [exact (h.items (t := lost.foldl State.callsLoss s) (by simp) (by simp)).reportChoice; exact h]

theorem State.StoresRising.takeEntry {s : State} (h : s.StoresRising) (p : PortId) (b : Beat) (n : Nat) :
    (s.takeEntry p b n).StoresRising := by
  unfold State.takeEntry
  dsimp only
  split <;> [exact (h.setReach _).reportChange _; exact h]

theorem State.StoresRising.merge {s : State} (h : s.StoresRising) (b : Beat) (n : Nat) : (s.merge b n).StoresRising := h

theorem State.StoresRising.takeBeat {s : State} (h : s.StoresRising) (p : PortId) (f : Frame) :
    (s.takeBeat p f).StoresRising := by
  unfold State.takeBeat
  dsimp only
  (repeat' split) <;> [exact h.setReach _; exact (h.takeEntry p _ _).merge _ _; exact h.takeEntry p _ _]

theorem State.StoresRising.removeAged {s : State} (h : s.StoresRising) (p : PortId) (node : Nat) :
    (s.removeAged p node).StoresRising := by
  unfold State.removeAged
  dsimp only
  split <;> [exact h; exact (h.setReach _).reportChange _]

theorem State.StoresRising.setPort {s : State} (h : s.StoresRising) (p : PortId) (q : LinePort) :
    (s.setPort p q).StoresRising := h.items (by simp) (by simp)

theorem State.StoresRising.goDark {s : State} (h : s.StoresRising) (p : PortId) : (s.goDark p).StoresRising := by
  unfold State.goDark
  dsimp only
  split
  · exact h.setPort p _
  · exact ((h.setPort p _).setReach _).reportChange _

theorem State.StoresRising.enterDark {s : State} (h : s.StoresRising) (p : PortId) : (s.enterDark p).StoresRising := by
  unfold State.enterDark
  dsimp only
  split <;> [exact (h.goDark p).items (by simp) (by simp); exact h.goDark p]

theorem State.StoresRising.toOwner {s : State} (h : s.StoresRising) (p : PortId) (f : Frame) :
    (s.toOwner p f).StoresRising := by
  unfold State.toOwner
  split
  case h_1 => exact h.takeBeat p f
  case h_10 => exact h.tackDelivered f
  all_goals (repeat' split) <;> exact h.items (by simp) (by simp)

theorem State.StoresRising.deliver {s : State} (h : s.StoresRising) (p : PortId) (f : Frame) :
    (s.deliver p f).StoresRising := by
  unfold State.deliver
  (repeat' split) <;> first | exact h | exact h.toOwner p f | exact h.takeBeat p f

theorem State.StoresRising.takeFrame {s : State} (h : s.StoresRising) (p : PortId) (b : List Byte) :
    (s.takeFrame p b).StoresRising := by
  unfold State.takeFrame
  split
  · exact h
  · split
    · exact h.items (by simp) (by simp)
    · exact h.items (by simp) (by simp)
    · have hg : (s.goodForPort p).StoresRising := h.items (by simp) (by simp)
      unfold State.goodFrame
      dsimp only
      split
      · exact hg.items (by simp) (by simp)
      · split
        · refine State.StoresRising.deliver ?_ p _
          split <;> exact hg.items (by simp) (by simp)
        · split <;> exact hg.items (by simp) (by simp)


/-! ### Power, events and starts -/

theorem State.StoresRising.abandonErase {s : State} (h : s.StoresRising) : s.abandonErase.StoresRising := by
  unfold State.abandonErase
  dsimp only
  split
  · exact h
  · refine State.StoresRising.eraseInPart ?_ _
    refine .of h.array ?_
    exact List.foldlRecOn _ _ (motive := Spool.Rising) h.spool fun _ hp n _ => hp.setSector n _

theorem State.StoresRising.resumeSpool {s : State} (h : s.StoresRising) : s.resumeSpool.StoresRising := by
  unfold State.resumeSpool
  split <;> [exact h.startGenJob; exact h.pump]

theorem State.StoresRising.powerReturn {s : State} (h : s.StoresRising) : s.powerReturn.StoresRising :=
  State.StoresRising.resumeSpool
    (List.foldlRecOn _ _ (motive := State.StoresRising) h fun _ ht n _ => ht.joinBatch n)

theorem State.StoresRising.lineEvent {s : State} (h : s.StoresRising) (l : LevelLine) : (s.lineEvent l).StoresRising := by
  unfold State.lineEvent
  split
  case h_4 => split <;> [exact h.abandonErase.resumeSpool; exact h.powerReturn]
  all_goals (repeat' split) <;> exact h.items (by simp) (by simp)

theorem State.StoresRising.setLine {s : State} (h : s.StoresRising) (l : LevelLine) (v : LevelState) :
    (s.setLine l v).StoresRising := h

theorem State.StoresRising.endWait {s : State} (h : s.StoresRising) (l : LevelLine) : (s.endWait l).StoresRising := by
  unfold State.endWait
  dsimp only
  (repeat' split) <;> [exact (h.setLine l _).lineEvent l; exact h.setLine l _; exact h]

theorem State.StoresRising.entryReport {s : State} (h : s.StoresRising) : s.entryReport.StoresRising :=
  List.foldlRecOn _ _ (motive := State.StoresRising) h fun t ht l _ => by split <;> [exact ht.lineEvent l; exact ht]

theorem State.StoresRising.enterRunning {s : State} (h : s.StoresRising) : s.enterRunning.StoresRising := by
  unfold State.enterRunning
  dsimp only
  refine State.StoresRising.runToll ?_
  have beats : (State.startBeats { s with node := .running }).StoresRising :=
    State.StoresRising.items (s := { s with node := .running }) h (by simp) (by simp)
  exact (beats.reportChange []).entryReport.items (by simp) (by simp)

theorem State.StoresRising.dropOwnEntries {s : State} (h : s.StoresRising) : s.sampleLines.dropOwnEntries.StoresRising :=
  h.items (by simp) (by simp)

theorem State.StoresRising.enterScanning {s : State} (h : s.StoresRising) (c : Config) :
    (s.enterScanning c).StoresRising := by
  unfold State.enterScanning
  dsimp only
  split
  · refine State.StoresRising.setScanReading (State.StoresRising.dropOwnEntries ?_) true
    exact h
  · refine State.StoresRising.enterRunning (State.StoresRising.dropOwnEntries ?_)
    exact h

theorem State.StoresRising.imageRead {s : State} (h : s.StoresRising) (image : Option (List Byte)) :
    (s.imageRead image).StoresRising := by
  unfold State.imageRead
  (repeat' split) <;> [exact h.enterScanning _; exact h; exact h]

theorem State.StoresRising.cutArray {s : State} (h : s.StoresRising) : s.cutArray.StoresRising := by
  have cut (t : State) (ht : t.StoresRising) : (match t.spool.erase with
      | some e => t.eraseInPart e.sectors
      | none => t).StoresRising := by split <;> [exact ht.eraseInPart _; exact ht]
  unfold State.cutArray
  dsimp only
  refine cut _ ?_
  split
  · exact .of (h.array.abandonMark _ _) h.spool
  · exact .of (h.array.abandonGenMark _ _) h.spool
  · exact .of (h.array.setMarks rfl) h.spool
  · exact h

/-- A start keeps the array's stores, of which it cuts the operation in progress, and empties the spool's. -/
theorem State.StoresRising.restart {s : State} (h : s.StoresRising) (n : NodeState) (timer : Timer) :
    (s.restart n timer).StoresRising := .of h.cutArray.array ⟨rfl, rfl⟩

/-! ### Generation marks and the start scan -/

theorem State.StoresRising.generationSettled {s : State} (h : s.StoresRising) (value : Nat) (fault : Bool) :
    (s.generationSettled value fault).StoresRising := by
  unfold State.generationSettled
  dsimp only
  split <;> [exact State.StoresRising.enterRunning h; exact State.StoresRising.runToll h]

theorem State.StoresRising.genStage {s : State} (h : s.StoresRising) (value : Nat) (stage : GenStage) :
    (s.genStage value stage).StoresRising := State.StoresRising.pump (State.StoresRising.startGenJob h)

theorem State.StoresRising.genMarkEnd {s : State} (h : s.StoresRising) : s.genMarkEnd.StoresRising := by
  unfold State.genMarkEnd
  split
  · refine State.StoresRising.generationSettled ?_ _ _
    exact h.setMarks (keySet_rising h.array.2.2 _ _)
  · exact h

theorem State.StoresRising.genMarkLimit {s : State} (h : s.StoresRising) : s.genMarkLimit.StoresRising := by
  unfold State.genMarkLimit
  split
  next place j _ =>
    have abandoned : State.StoresRising { s with
        array := s.array.abandonGenMark (Config.freeMark s.freeCount) place, freeCount := s.freeCount + 1 } :=
      .of (h.array.abandonGenMark _ _) h.spool
    dsimp only
    split <;> [exact abandoned.genStage _ _; exact abandoned.generationSettled _ _]
  next => exact h

theorem State.StoresRising.marksInPart {s : State} (h : s.StoresRising) : s.marksInPart.StoresRising := by
  refine .of (h.array.setMarks (keysRising_range 32 fun k e he => ?_)) h.spool
  obtain ⟨v, -, rfl⟩ := Option.map_eq_some_iff.1 he
  rfl

theorem State.StoresRising.markEraseEnd {s : State} (h : s.StoresRising) (erased : Bool) :
    (s.markEraseEnd erased).StoresRising := by
  unfold State.markEraseEnd
  split
  · split
    · refine State.StoresRising.genStage ?_ _ _
      exact h.setMarks rfl
    · exact h.marksInPart.generationSettled _ _
  · exact h

theorem scanSlots_rising {a : TollArray} (h : a.Rising) : keysRising (scanSlots a) = true := by
  have hs := h.2.1
  rw [keysRising_iff] at *
  exact List.pairwise_map.2 hs

theorem Spool.Rising.scanned {s : State} (h : s.StoresRising) {l : List (Nat × SectorWork)} (hl : keysRising l = true)
    (top : Option Nat) (gen : Nat) :
    Spool.Rising { s.spool with slots := scanSlots s.array, sectors := l, fillPoint := top, generation := gen,
                                nextSeq := 1, scanReading := false } := ⟨scanSlots_rising h.array, hl⟩

theorem State.StoresRising.scan {s : State} (h : s.StoresRising) : s.scan.StoresRising := by
  unfold State.scan
  dsimp only
  refine State.StoresRising.startGenJob (State.StoresRising.wantGenMark ?_ _)
  refine List.foldlRecOn _ _ (motive := State.StoresRising) ?_ fun _ ht n _ => ht.joinBatch n
  refine List.foldlRecOn _ _ (motive := State.StoresRising) ?_ fun u hu n _ => ?_
  · refine .of h.array ?_
    dsimp only
    have listed (f : Nat → SectorWork × Bool) : keysRising ((List.range 63).filterMap fun n =>
        if (f n).1.state == .empty then none else some (n, (f n).1)) = true :=
      keysRising_range 63 fun k e he => by split at he <;> cases he; rfl
    split
    · exact Spool.Rising.fill (.scanned h (listed _) _ _) _
    · exact Spool.Rising.fillAfter (.scanned h (listed _) _ _) _
  · (repeat' split) <;> [exact hu; exact hu.retireSector n; exact hu.setSector n _]

/-! ### Ends of array operations -/

theorem State.StoresRising.submit {s : State} (h : s.StoresRising) (tag : Byte) (gantry : BitVec 16) (lane : Byte)
    (body : List Byte) : (s.submit tag gantry lane body).StoresRising := by
  unfold State.submit
  (repeat' split) <;> [exact h; exact h.answerSpool _; exact State.StoresRising.pump (s := s.holdSubmission _ _ _ _) h]

theorem State.StoresRising.advanceSeq {s : State} (h : s.StoresRising) (seq : Nat) : (s.advanceSeq seq).StoresRising := by
  unfold State.advanceSeq
  split <;> [exact h; exact h.wantGenMark _]

theorem State.StoresRising.fillSlot {s : State} (h : s.StoresRising) (slot : Nat) (x : HeldSubmission) :
    (s.fillSlot slot x).StoresRising := .of (h.array.setSlot slot _) (h.spool.setSlot slot _)

theorem State.StoresRising.recordEnd {s : State} (h : s.StoresRising) : s.recordEnd.StoresRising := by
  unfold State.recordEnd
  split
  · exact (((h.fillSlot _ _).advanceSeq _).sectorChange.answerSpool _).windowIntake.runToll
  · exact h

theorem State.StoresRising.giveUp {s : State} (h : s.StoresRising) (tag : Byte) (c : TollCause) :
    (s.giveUp tag c).StoresRising :=
  (State.StoresRising.answerSpool (s := { s with spool := { s.spool with held := none } }) h _).runToll

theorem State.StoresRising.voidSlot {s : State} (h : s.StoresRising) (slot : Nat) : (s.voidSlot slot).StoresRising :=
  .of h.array ((h.spool.weaken _).setSlot slot _)

theorem State.StoresRising.retryRecord {s : State} (h : s.StoresRising) (tag : Byte) : (s.retryRecord tag).StoresRising := by
  unfold State.retryRecord
  (repeat' split) <;> [exact h.giveUp tag _; exact h.giveUp tag _; exact h.startRecord _ true]

theorem State.StoresRising.recordLimit {s : State} (h : s.StoresRising) : s.recordLimit.StoresRising := by
  unfold State.recordLimit
  dsimp only
  (repeat' split) <;>
    [exact (h.voidSlot _).sectorChange.giveUp _ _; exact (h.voidSlot _).sectorChange.retryRecord _; exact h]

theorem State.StoresRising.opDone {s : State} (h : s.StoresRising) : s.opDone.StoresRising := h

theorem State.StoresRising.markEnd {s : State} (h : s.StoresRising) : s.markEnd.StoresRising := by
  unfold State.markEnd
  split
  next m _ =>
    exact (State.StoresRising.reclaimFull (.of (h.array.setMark m) (h.spool.clearPending m)) m.sector).runToll
  next => exact h

theorem State.StoresRising.markLimit {s : State} (h : s.StoresRising) : s.markLimit.StoresRising := by
  unfold State.markLimit
  split
  next m _ =>
    exact (State.StoresRising.reclaimFull (.of (h.array.abandonMark _ m) ((h.spool.clearPending m).weakenFor m))
      m.sector).runToll
  next => exact h

theorem State.StoresRising.endRead {s : State} (h : s.StoresRising) (ended : Bool) : (s.endRead ended).StoresRising := by
  unfold State.endRead
  split <;> [exact (h.opDone.readResult _ _).runToll; exact h]

theorem State.StoresRising.closeBatch {s : State} (h : s.StoresRising) : s.closeBatch.StoresRising := by
  unfold State.closeBatch
  (repeat' split) <;> [exact State.StoresRising.pump h; exact h; exact h]

theorem State.StoresRising.suspensionDone {s : State} (h : s.StoresRising) : s.suspensionDone.StoresRising := by
  unfold State.suspensionDone
  (repeat' split) <;> [exact State.StoresRising.pump h; exact h; exact h]

theorem State.StoresRising.checkSector {s : State} (h : s.StoresRising) (failed : List (Fin 63)) (n : Nat) :
    (State.checkSector failed s n).StoresRising := by
  unfold State.checkSector
  split
  · exact State.StoresRising.eraseInPart (h.setSector n _) [n]
  · have hp := h.spool.setSector n ⟨.empty, false, false, false⟩
    exact .of (h.array.eraseSector n) ⟨keysRising_filter hp.1 _, hp.2⟩

theorem State.StoresRising.endFull {s : State} (h : s.StoresRising) : s.endFull.StoresRising := by
  unfold State.endFull
  split <;> [exact h.fillAfter _; exact h]

theorem State.StoresRising.endErase {s : State} (h : s.StoresRising) (failed : List (Fin 63)) (limit : Bool) :
    (s.endErase failed limit).StoresRising := by
  unfold State.endErase
  split
  next e _ =>
    have checked : (e.sectors.foldl (State.checkSector failed) s).StoresRising :=
      List.foldlRecOn _ _ (motive := State.StoresRising) h fun _ ht n _ => ht.checkSector failed n
    dsimp only
    split
    · exact h
    · refine (State.StoresRising.endFull ?_).runToll
      exact checked
  next => exact h

theorem State.StoresRising.retryEnd {s : State} (h : s.StoresRising) : s.retryEnd.StoresRising := by
  unfold State.retryEnd
  split <;> [exact (h.setSending _).runToll; exact h]

theorem State.StoresRising.goBackNow {s : State} (h : s.StoresRising) : s.goBackNow.StoresRising := by
  unfold State.goBackNow
  (repeat' split) <;> [exact (h.setSending _).runToll; exact h; exact h]

/-! ### The statement -/

/-- Every command keeps the stores of the array and of the spool in their canonical form. -/
theorem exec_storesRising (c : Instr) (s t : State) (hs : s.StoresRising) (h : exec c s = .next t) : t.StoresRising := by
  by_cases hu : Part.array ∉ touched c ∧ Part.spool ∉ touched c
  · exact hs.items (exec_leaves h hu.1) (exec_leaves h hu.2)
  cases c <;> injection h with h <;> subst h <;> simp [touched, tollParts] at hu
  case start | resetHeld => exact hs.restart _ _
  case configurationImageReadEnd | loadingReadTimeout => exact hs.imageRead _
  case startScanReadEnd => split <;> [exact hs.scan; exact hs]
  case generationMarkProgramEnd => exact hs.genMarkEnd
  case generationMarkProgramLimit => exact hs.genMarkLimit
  case markSectorEraseEnd | markSectorEraseLimit => exact hs.markEraseEnd _
  case lightLost p =>
    dsimp only
    (repeat' split) <;> [exact hs; exact hs.setPort p _; exact (hs.setPort p _).enterDark p]
  case portSilenceTimerExpiry p => split <;> [exact hs.enterDark p; exact hs]
  case frameReceived p b => exact hs.takeFrame p b
  case reachEntryAgeLimit p n => exact hs.removeAged p n
  case filterWaitEnd l => exact hs.endWait l
  case tollSubmit tag gantry lane body =>
    unfold State.dispatch
    (repeat' split) <;> first | exact hs.submit _ _ _ _ | exact hs.items (by simp) (by simp)
  case eraseSuspensionComplete => exact hs.suspensionDone
  case recordProgramEnd => exact hs.recordEnd
  case recordProgramLimit => exact hs.recordLimit
  case answerPlaceDrain => exact hs.drainAnswer
  case markProgramEnd => exact hs.markEnd
  case markProgramLimit => exact hs.markLimit
  case readEnd | readLimit => exact hs.endRead _
  case closeTimerExpiry => exact hs.closeBatch
  case eraseDone failed | eraseLimit failed => exact hs.endErase failed _
  case retryTimerExpiry => exact hs.retryEnd
  case goBack => exact hs.goBackNow

/-- Settles O59: every command keeps the stores rising, and a reference period leaves them. -/
theorem storesStayCanonical : Obligations.StoresStayCanonical := fun _ _ hs h =>
  step_keeps (Inv := State.StoresRising) (fun _ _ hu => hu) exec_storesRising
    (fun u hu => hu.items (u.tick_item (by decide)) (u.tick_item (by decide))) hs h

end Sys2Proof.Machine
end

section
/-! SUPPORT. The machine and the stretch line (chapter 1): steps, light, and the arbiter at the end of a sending. -/

namespace Sys2Proof.Machine

/-! ### The machine -/

/-- Settles O1: the queue's front is what the step function matches. -/
theorem stepRunsTheFrontCommand : Obligations.StepRunsTheFrontCommand := by
  intro s c rest h
  unfold step
  rw [h]

/-- Settles O3: each arm of the dispatch ends in a next state. -/
theorem everyCommandIsAnswered : Obligations.EveryCommandIsAnswered := by
  intro c s
  cases c <;> exact ⟨_, rfl⟩

/-- One period in a state in which the number is known and K computed (R45). -/
theorem State.tick_of_rate {s : State} {k : BitVec 32} (hn : s.node = .scanning ∨ s.node = .running)
    (hk : s.time.k = some k) :
    s.tick = { s with refTime := s.refTime + 1,
                      time := if 2 ^ 32 ≤ s.time.acc.toNat + k.toNat then
                          LineTime.countCarry { s.time with acc := s.time.acc + k }
                        else { s.time with acc := s.time.acc + k } } := by
  have hheld : s.node ≠ .held := by rintro h; simp [h] at hn
  have hknown : s.numberKnown = true := by simpa [State.numberKnown] using hn
  have hacc : s.time.accumulate k 1 = { s.time with acc := s.time.acc + k } := by simp [LineTime.accumulate]
  simp [State.tick, hheld, hknown, hk, hacc]

/-- Settles O2, by the node state and the carry. -/
theorem idleStepIsOneReferencePeriod : Obligations.IdleStepIsOneReferencePeriod := by
  intro s hp
  have hstep : step s = .next s.tick := by unfold step; rw [hp]
  rw [hstep]
  refine ⟨fun h => by simp [State.tick, h], fun h => ?_, fun k hn hk => ⟨fun hlt => ?_, fun hle => ?_⟩⟩
  · rcases h with h | h <;> simp [State.tick, State.numberKnown, h]
  · rw [State.tick_of_rate hn hk, if_neg (Nat.not_le.2 hlt)]
  · rw [State.tick_of_rate hn hk, if_pos hle]

/-! ### Light (R1 to R4) -/

@[simp] theorem State.setPort_node (s : State) (p : PortId) (q : LinePort) : (s.setPort p q).node = s.node :=
  s.setPort_item p q (part := .node) (by decide)

@[simp] theorem State.setPort_setPort (s : State) (p : PortId) (q r : LinePort) :
    (s.setPort p q).setPort p r = s.setPort p r := by cases p <;> rfl

@[simp] theorem State.setPort_port (s : State) (p : PortId) : s.setPort p (s.port p) = s := by cases p <;> rfl

/-- A port that enters PROBING: the BEAT is offered by a RUNNING node (R4, R27). -/
theorem State.enterProbing_eq (s : State) (p : PortId) :
    s.enterProbing p = if s.node = .running then (s.setPort p { s.port p with state := .probing, probe := 0 }).offerBeat p
      else s.setPort p { s.port p with state := .probing, probe := 0 } := by
  simp [State.enterProbing, State.isRunning]

/-- Settles O4, by the port's state and the node's. -/
theorem lightEventsThatKeepOrRaiseAPort : Obligations.LightEventsThatKeepOrRaiseAPort := by
  intro s p q
  have present (hh : s.node ≠ .held) : exec (.lightPresent p) s =
      .next (if q.state = .dark then (s.setPort p { q with light := true }).enterProbing p
        else s.setPort p { q with light := true }) := by simp [exec, execLightPresent, hh, q]
  refine ⟨fun hh => ⟨by simp [exec, execLightPresent, hh], by simp [exec, execLightLost, hh]⟩, fun hh hd hr => ?_,
    fun hd hr => ?_, fun hh hd => ?_, fun hh hd => by simp [exec, execLightLost, hh, hd, q]⟩
  · rw [present hh, if_pos hd, State.enterProbing_eq]; simp [hr]
  · rw [present (by simp [hr]), if_pos hd, State.enterProbing_eq]; simp [hr]
  · rw [present hh, if_neg hd]

/-! ### The end of a sending (R20 to R23) -/

/-- A class gives nothing to send exactly where both its stores are empty (R21). -/
theorem Lane.take_eq_none_iff (l : Lane) : l.take = none ↔ l.transit = [] ∧ l.own = [] := by
  refine ⟨Lane.take_none, fun ⟨ht, ho⟩ => ?_⟩
  unfold Lane.take
  rw [ht, ho]

/-- The arbiter with nothing to send (R20). -/
theorem State.arbitrate_of_choose_none {s : State} {p : PortId} (h : (s.port p).choose = none) : s.arbitrate p = s := by
  simp [State.arbitrate, h]

/-- The arbiter at an open port with a free transmitter hands over what is chosen (R20, R23). -/
theorem State.arbitrate_of_choose {s : State} {p : PortId} (hd : (s.port p).state ≠ .dark)
    (hf : (s.port p).sending = none) {f : Frame} {own : Bool} {q : LinePort} (h : (s.port p).choose = some (f, own, q)) :
    s.arbitrate p = s.setPort p { q with sending := some (s.completed f own) } := by
  simp [State.arbitrate, hd, hf, h]

/-- The choice is of an URGENT frame where there is one (R20). -/
theorem LinePort.choose_of_urgent {q : LinePort} {f : Frame} {own : Bool} {l : Lane}
    (h : q.urgent.take = some (f, own, l)) : q.choose = some (f, own, { q with urgent := l }) := by
  simp [LinePort.choose, h]

/-- The choice is of a BULK frame where the URGENT stores are empty (R20). -/
theorem LinePort.choose_of_bulk {q : LinePort} {f : Frame} {own : Bool} {l : Lane} (hu : q.urgent.take = none)
    (h : q.bulk.take = some (f, own, l)) : q.choose = some (f, own, { q with bulk := l }) := by
  simp [LinePort.choose, hu, h]

/-- With empty stores nothing is chosen (R20). -/
theorem LinePort.choose_of_empty {q : LinePort} (hu : q.urgent.take = none) (hb : q.bulk.take = none) :
    q.choose = none := by simp [LinePort.choose, hu, hb]

/-- The node's own BEAT takes its time fields at the start of its sending (R18, R28). -/
theorem State.completed_eq (s : State) (f : Frame) (own : Bool) :
    s.completed f own = if own = true ∧ f.kind = .beat then
        { f with payload := f.payload.take 5 ++ [BitVec.ofNat 8 s.time.grade] ++ bytesLT s.time.lt ++
                              [if s.time.settled then 1 else 0] ++ f.payload.drop 13 }
      else f := by
  simp [State.completed, fillBeat, flagByte]

/-- Settles O7, by what the arbiter finds in the stores of the two classes. -/
theorem sendEndHandsOverTheArbitersChoice : Obligations.SendEndHandsOverTheArbitersChoice := by
  intro s p f₀ hs hd q filled
  have hrun : exec (.frameSendEnd p) s = .next ((s.setPort p q).arbitrate p) := by
    simp [exec, execFrameSendEnd, hs, q]
  have hport : (s.setPort p q).port p = q := s.port_setPort p q
  have handed {f : Frame} {own : Bool} {r : LinePort} (h : q.choose = some (f, own, r)) :
      (s.setPort p q).arbitrate p = s.setPort p { r with sending := some (filled f own) } := by
    rw [State.arbitrate_of_choose (by rw [hport]; exact hd) (by rw [hport]) (hport ▸ h), State.setPort_setPort,
      State.completed_eq]
    cases p <;> rfl
  rw [hrun]
  refine ⟨fun hut huo hbt hbo => ?_, fun f own l h => ?_, fun hut huo f own l h => ?_⟩
  · have hu := q.urgent.take_eq_none_iff.2 ⟨hut, huo⟩
    have hb := q.bulk.take_eq_none_iff.2 ⟨hbt, hbo⟩
    rw [State.arbitrate_of_choose_none (by rw [hport]; exact LinePort.choose_of_empty hu hb)]
  · rw [handed (LinePort.choose_of_urgent h)]
  · rw [handed (LinePort.choose_of_bulk (q.urgent.take_eq_none_iff.2 ⟨hut, huo⟩) h)]

end Sys2Proof.Machine
end

section
/-! SUPPORT. The receive checks (R8, 12.2): the first check that a frame fails, and the frame that a whole one spells. -/

namespace Sys2Proof.Machine

/-! ### Numbers and bytes (R202) -/

@[simp] theorem bytesBE_length (k n : Nat) : (bytesBE k n).length = k := by
  induction k with
  | zero => rfl
  | succ k ih => simp [bytesBE, ih]

theorem natBE_append_singleton (l : List Byte) (b : Byte) : natBE (l ++ [b]) = natBE l * 256 + b.toNat := by
  simp [natBE]

/-- The bytes of a number with the least significant one last. -/
theorem bytesBE_succ (k n : Nat) : bytesBE (k + 1) n = bytesBE k (n / 256) ++ [BitVec.ofNat 8 n] := by
  induction k with
  | zero => simp [bytesBE]
  | succ k ih =>
    rw [bytesBE, ih, bytesBE, List.cons_append, Nat.div_div_eq_div_mul, Nat.pow_succ']

/-- A number that k bytes can carry is read back from them. -/
theorem natBE_bytesBE {k n : Nat} (h : n < 256 ^ k) : natBE (bytesBE k n) = n := by
  induction k generalizing n with
  | zero => simp at h; simp [h, bytesBE, natBE]
  | succ k ih =>
    have hdiv : n / 256 < 256 ^ k := Nat.div_lt_of_lt_mul (by rwa [Nat.pow_succ'] at h)
    rw [bytesBE_succ, natBE_append_singleton, ih hdiv]
    simp
    omega

/-- A field of one byte. -/
theorem field_one (l : List Byte) (off : Nat) : field l off 1 = (l.getD off 0).toNat := by
  rcases hd : l.drop off with _ | ⟨b, rest⟩
  · have : l.length ≤ off := List.drop_eq_nil_iff.1 hd
    simp [field, hd, natBE, List.getElem?_eq_none this]
  · have : l[off]? = some b := by simpa [hd] using (List.getElem?_drop (xs := l) (i := off) (j := 0)).symm
    simp [field, hd, natBE, this]

/-- A field of one byte is below 256. -/
theorem field_one_lt (l : List Byte) (off : Nat) : field l off 1 < 256 := by
  rw [field_one]; exact (l.getD off 0).isLt

/-! ### The checks in their order (R8) -/

theorem frameKindOf_none_iff (n : Nat) : frameKindOf n = none ↔ n = 0 ∨ 13 < n := by
  rcases Nat.lt_or_ge n 14 with hlt | hge
  · exact (by decide : ∀ m < 14, frameKindOf m = none ↔ m = 0 ∨ 13 < m) n hlt
  · refine iff_of_true ?_ (.inr hge)
    unfold frameKindOf
    split <;> first | omega | rfl

@[simp] theorem frameKindOf_code (k : FrameKind) : frameKindOf k.code = some k := by cases k <;> rfl

theorem checkFrame_of_length {b : List Byte} (h : b.length < 11 ∨ 267 < b.length) : checkFrame b = .malformed :=
  if_pos h

section Checks
variable {b : List Byte} (hlo : 11 ≤ b.length) (hhi : b.length ≤ 267)
include hlo hhi

theorem checkFrame_of_check
    (h : b.drop (b.length - 4) ≠ bytesBE 4 (crc32 (b.take (b.length - 4))).toNat) : checkFrame b = .checkError := by
  unfold checkFrame
  rw [if_neg (by omega), if_pos h.symm]

variable (hcheck : b.drop (b.length - 4) = bytesBE 4 (crc32 (b.take (b.length - 4))).toNat)
include hcheck

theorem checkFrame_of_lengthField (h : field b 5 2 ≠ b.length - 11) : checkFrame b = .malformed := by
  unfold checkFrame
  rw [if_neg (by omega), if_neg (not_not.2 hcheck.symm), if_pos h]

variable (hfield : field b 5 2 = b.length - 11)
include hfield

theorem checkFrame_of_kind (h : frameKindOf (field b 0 1) = none) : checkFrame b = .malformed := by
  unfold checkFrame
  rw [if_neg (by omega), if_neg (not_not.2 hcheck.symm), if_neg (not_not.2 hfield), h]

variable {k : FrameKind} (hkind : frameKindOf (field b 0 1) = some k)
include hkind

theorem checkFrame_of_codes
    (h : 254 < field b 1 1 ∨ field b 2 1 = 0 ∨ field b 3 1 = 0 ∨ 240 < field b 3 1 ∨ 241 < field b 4 1) :
    checkFrame b = .malformed := by
  unfold checkFrame
  rw [if_neg (by omega), if_neg (not_not.2 hcheck.symm), if_neg (not_not.2 hfield), hkind]
  exact if_pos h

theorem checkFrame_of_good
    (h : ¬(254 < field b 1 1 ∨ field b 2 1 = 0 ∨ field b 3 1 = 0 ∨ 240 < field b 3 1 ∨ 241 < field b 4 1)) :
    checkFrame b = .good { kind := k, hops := field b 1 1, hopLimit := field b 2 1, origin := field b 3 1,
                           target := field b 4 1, payload := (b.drop 7).take (b.length - 11) } := by
  unfold checkFrame
  rw [if_neg (by omega), if_neg (not_not.2 hcheck.symm), if_neg (not_not.2 hfield), hkind]
  exact if_neg h

end Checks

/-! ### The statements -/

theorem State.takeFrame_malformed {s : State} {p : PortId} {b : List Byte} (hd : (s.port p).state ≠ .dark)
    (h : checkFrame b = .malformed) : s.takeFrame p b = s.damaged p fun c => { c with malformed := bump c.malformed } := by
  simp [State.takeFrame, hd, h]

/-- Settles O9, by the first check that fails. -/
theorem damagedFramesAreCountedAndDiscarded : Obligations.DamagedFramesAreCountedAndDiscarded := by
  intro s p b q n counted malformed checkError check
  have bad (hd : q.state ≠ .dark) (h : checkFrame b = .malformed) : exec (.frameReceived p b) s = .next malformed :=
    congrArg _ (State.takeFrame_malformed hd h)
  refine ⟨fun hd => ?_, fun hd hn => bad hd (checkFrame_of_length hn), fun hd hlo hhi hc => ?_,
    fun hd hlo hhi hc hf => bad hd (checkFrame_of_lengthField hlo hhi hc hf), fun hd hlo hhi hc hf hcode => bad hd ?_⟩
  · exact congrArg _ (if_pos hd)
  · have hrun : s.takeFrame p b = checkError := by
      simp [State.takeFrame, show (s.port p).state ≠ .dark from hd, checkFrame_of_check hlo hhi hc, checkError, counted,
        State.damaged, q]
    exact congrArg _ hrun
  · rcases hk : frameKindOf (field b 0 1) with _ | k
    · exact checkFrame_of_kind hlo hhi hc hf hk
    · have hsome : ¬(field b 0 1 = 0 ∨ 13 < field b 0 1) := fun h => by simp [(frameKindOf_none_iff _).2 h] at hk
      exact checkFrame_of_codes hlo hhi hc hf hk (by tauto)

/-- The check of a frame on the line stands behind what it covers. -/
theorem Frame.wire_parts (f : Frame) : f.wire.length = f.payload.length + 11 ∧
    f.wire.take (f.wire.length - 4) = f.covered ∧ f.wire.drop (f.wire.length - 4) = bytesBE 4 (crc32 f.covered).toNat := by
  have hc : f.covered.length = f.payload.length + 7 := by simp [Frame.covered]; omega
  have hl : f.wire.length = f.covered.length + 4 := by simp [Frame.wire]
  refine ⟨by omega, ?_, ?_⟩
  · rw [hl, Nat.add_sub_cancel, Frame.wire, List.take_left]
  · rw [hl, Nat.add_sub_cancel, Frame.wire, List.drop_left]

/-- Settles O12, field by field of the header of 12.2. -/
theorem framesReadBackAsLaidOut : Obligations.FramesReadBackAsLaidOut := by
  intro f hhops hlim1 hlim2 horg1 horg2 htgt hpay
  obtain ⟨hlen, htake, hdrop⟩ := f.wire_parts
  have hwire : f.wire = BitVec.ofNat 8 f.kind.code :: BitVec.ofNat 8 f.hops :: BitVec.ofNat 8 f.hopLimit ::
      BitVec.ofNat 8 f.origin :: BitVec.ofNat 8 f.target :: (bytesBE 2 f.payload.length ++ (f.payload ++
        bytesBE 4 (crc32 f.covered).toNat)) := by simp [Frame.wire, Frame.covered]
  have hkind : field f.wire 0 1 = f.kind.code := by rw [field_one, hwire]; cases f.kind <;> rfl
  have hb (n : Nat) (h : n ≤ 255) : (BitVec.ofNat 8 n).toNat = n := by simp; omega
  have h1 : field f.wire 1 1 = f.hops := by rw [field_one, hwire]; exact hb _ (by omega)
  have h2 : field f.wire 2 1 = f.hopLimit := by rw [field_one, hwire]; exact hb _ (by omega)
  have h3 : field f.wire 3 1 = f.origin := by rw [field_one, hwire]; exact hb _ (by omega)
  have h4 : field f.wire 4 1 = f.target := by rw [field_one, hwire]; exact hb _ (by omega)
  have h5 : field f.wire 5 2 = f.payload.length := by
    have : (f.wire.drop 5).take 2 = bytesBE 2 f.payload.length := by rw [hwire]; simp [bytesBE]
    rw [field, this]
    exact natBE_bytesBE (by omega)
  have hpayload : (f.wire.drop 7).take (f.wire.length - 11) = f.payload := by
    rw [hlen, Nat.add_sub_cancel, hwire]; simp [bytesBE]
  rw [checkFrame_of_good (by omega) (by omega) (by rw [htake]; exact hdrop) (by omega) (hkind ▸ frameKindOf_code f.kind)
    (by omega), h1, h2, h3, h4, hpayload]

end Sys2Proof.Machine
end

section
/-! SUPPORT. The answers of the Reach View (R35 to R37): what the best candidate is, and where the node port lies. -/

namespace Sys2Proof.Machine

/-! ### The terminus-choice order (R35) -/

/-- EAST stands before WEST. -/
def PortId.rank : PortId → Nat
  | .east => 0
  | .west => 1

/-- The terminus-choice order is that of hops, port and node, one after the other. -/
theorem preferred_iff (a b : ReachEntry × PortId) : preferred a b = true ↔ a.1.hops < b.1.hops ∨
    (a.1.hops = b.1.hops ∧ (PortId.rank a.2 < PortId.rank b.2 ∨
      (PortId.rank a.2 = PortId.rank b.2 ∧ a.1.node < b.1.node))) := by
  rcases a with ⟨x, _ | _⟩ <;> rcases b with ⟨y, _ | _⟩ <;> simp [preferred, PortId.rank]

/-- What is not preferred to the last of two stays so to the first, when the last is not preferred to it. -/
theorem not_preferred_trans {a b c : ReachEntry × PortId} (h : preferred a b = false) (k : preferred b c = false) :
    preferred a c = false := by
  rw [← Bool.not_eq_true, preferred_iff] at *
  omega

theorem not_preferred_of_preferred {a b : ReachEntry × PortId} (h : preferred a b = true) : preferred b a = false := by
  rw [← Bool.not_eq_true, preferred_iff] at *
  omega

theorem not_preferred_self (a : ReachEntry × PortId) : preferred a a = false := by
  rw [← Bool.not_eq_true, preferred_iff]
  omega

/-- The best of some candidates is one of them, and none is preferred to it. -/
theorem bestOf_some {l : List (ReachEntry × PortId)} {c : ReachEntry × PortId} (h : bestOf l = some c) :
    c ∈ l ∧ ∀ x ∈ l, preferred x c = false := by
  induction l generalizing c with
  | nil => cases h
  | cons a l ih =>
    rw [bestOf] at h
    split at h
    next hnone =>
      cases h
      cases l with
      | nil => simp [not_preferred_self]
      | cons b l => rw [bestOf] at hnone; (repeat' split at hnone) <;> cases hnone
    next b hb =>
      obtain ⟨hmem, hbest⟩ := ih hb
      split at h
      next hp => cases h; exact ⟨.tail a hmem, by simpa [not_preferred_of_preferred hp] using hbest⟩
      next hp =>
        cases h
        have hp := Bool.not_eq_true _ ▸ hp
        refine ⟨.head l, ?_⟩
        simp only [List.mem_cons, forall_eq_or_imp, not_preferred_self, true_and]
        exact fun x hx => not_preferred_trans (hbest x hx) hp

theorem bestOf_none_iff {l : List (ReachEntry × PortId)} : bestOf l = none ↔ l = [] := by
  cases l with
  | nil => simp [bestOf]
  | cons a l => simp only [bestOf, reduceCtorEq, iff_false]; (repeat' split) <;> simp

/-! ### The candidates -/

/-- The candidates are the TERMINUS entries with the ports of their parts. -/
theorem ReachView.mem_termini (r : ReachView) (e : ReachEntry) (p : PortId) :
    (e, p) ∈ r.termini ↔ e ∈ r.part p ∧ e.role = .terminus := by
  cases p <;> simp [ReachView.termini, ReachView.part]

/-- The first candidate in the terminus-choice order among the entries of a kind, or NONE without one. -/
def ReachView.First (r : ReachView) (g : ReachEntry → Prop) (c : TermChoice) : Prop :=
  ((∀ p, ∀ e ∈ r.part p, ¬ g e) → c = .none) ∧
  ((∃ p, ∃ e ∈ r.part p, g e) → ∃ n p h, c = .terminus n p h ∧
    (∃ e ∈ r.part p, g e ∧ e.node = n ∧ e.hops = h) ∧
    (∀ q, ∀ x ∈ r.part q, g x → h < x.hops ∨ (h = x.hops ∧ (p = q → n ≤ x.node) ∧ (p ≠ q → p = .east))))

section Candidates
variable {r : ReachView} {g : ReachEntry → Prop} {l : List (ReachEntry × PortId)}
  (hl : ∀ e p, (e, p) ∈ l ↔ e ∈ r.part p ∧ g e)
include hl

theorem bestOf_eq_none_of (h : ∀ p, ∀ e ∈ r.part p, ¬ g e) : bestOf l = none :=
  bestOf_none_iff.2 (List.eq_nil_iff_forall_not_mem.2 fun ⟨e, p⟩ hm => h p e ((hl e p).1 hm).1 ((hl e p).1 hm).2)

theorem bestOf_of_exists (h : ∃ p, ∃ e ∈ r.part p, g e) : ∃ e p, bestOf l = some (e, p) ∧ e ∈ r.part p ∧ g e ∧
    ∀ q, ∀ x ∈ r.part q, g x →
      e.hops < x.hops ∨ (e.hops = x.hops ∧ (p = q → e.node ≤ x.node) ∧ (p ≠ q → p = .east)) := by
  obtain ⟨p, e, hm, hg⟩ := h
  rcases hb : bestOf l with _ | ⟨c, q⟩
  · have hne := List.ne_nil_of_mem ((hl e p).2 ⟨hm, hg⟩)
    exact absurd (bestOf_none_iff.1 hb) hne
  · obtain ⟨hmem, hbest⟩ := bestOf_some hb
    obtain ⟨hc, hgc⟩ := (hl c q).1 hmem
    refine ⟨c, q, rfl, hc, hgc, fun q' x hx hgx => ?_⟩
    have := hbest (x, q') ((hl x q').2 ⟨hx, hgx⟩)
    rw [← Bool.not_eq_true, preferred_iff] at this
    cases q <;> cases q' <;> simp [PortId.rank] at this ⊢ <;> omega

theorem choiceOf_bestOf_first : r.First g (choiceOf (bestOf l)) := by
  refine ⟨fun h => by rw [bestOf_eq_none_of hl h]; rfl, fun h => ?_⟩
  obtain ⟨e, p, hb, hm, hg, hbest⟩ := bestOf_of_exists hl h
  exact ⟨e.node, p, e.hops, by rw [hb]; rfl, ⟨e, hm, hg, rfl, rfl⟩, hbest⟩

end Candidates

/-! ### The three answers (R35, R36) -/

theorem State.terminusChoice_self {s : State} (h : s.isTerminus = true) : s.terminusChoice = .self := by
  simp [State.terminusChoice, h]

theorem State.terminusChoice_first {s : State} (h : s.isTerminus = false) :
    s.reach.First (fun e => e.role = .terminus) s.terminusChoice := by
  simp only [State.terminusChoice, h, Bool.false_eq_true, if_false]
  exact choiceOf_bestOf_first s.reach.mem_termini

theorem State.alternateChoice_first (s : State) (t : Option Nat) :
    s.reach.First (fun e => e.role = .terminus ∧ t ≠ some e.node) (s.alternateChoice t) :=
  choiceOf_bestOf_first fun e p => by
    rw [List.mem_filter, ReachView.mem_termini, bne_iff_ne, ne_comm, and_assoc]

/-- The candidates of the terminus presence. -/
theorem ReachView.mem_termini_of_node (r : ReachView) (t : Nat) (e : ReachEntry) (p : PortId) :
    (e, p) ∈ (r.termini.filter fun c => c.1.node == t) ↔ e ∈ r.part p ∧ e.role = .terminus ∧ e.node = t := by
  simp [ReachView.mem_termini, and_assoc]

/-- The terminus presence is the port of the best of the terminus's own entries (R36). -/
theorem State.terminusPresence_first (s : State) (t : Nat) :
    let entry (e : ReachEntry) : Prop := e.role = .terminus ∧ e.node = t
    ((∀ p, ∀ e ∈ s.reach.part p, ¬ entry e) → s.terminusPresence t = none) ∧
    ((∃ p, ∃ e ∈ s.reach.part p, entry e) → ∃ p h, s.terminusPresence t = some p ∧
      (∃ e ∈ s.reach.part p, entry e ∧ e.hops = h) ∧
      (∀ q, ∀ x ∈ s.reach.part q, entry x → h < x.hops ∨ (h = x.hops ∧ (p ≠ q → p = .east)))) := by
  intro entry
  refine ⟨fun h => ?_, fun h => ?_⟩
  · rw [State.terminusPresence, bestOf_eq_none_of (s.reach.mem_termini_of_node t) h, Option.map_none]
  · obtain ⟨e, p, hb, hm, hg, hbest⟩ := bestOf_of_exists (s.reach.mem_termini_of_node t) h
    refine ⟨p, e.hops, by rw [State.terminusPresence, hb, Option.map_some], ⟨e, hm, hg, rfl⟩, fun q x hx hgx => ?_⟩
    exact (hbest q x hx hgx).imp_right fun h => ⟨h.1, h.2.2⟩

/-! ### The node port (R37) -/

theorem find_node_of_mem {l : List ReachEntry} (h : (l.map fun e => e.node).Nodup) {a : ReachEntry} (ha : a ∈ l) :
    l.find? (fun e => e.node == a.node) = some a := by
  induction l with
  | nil => cases ha
  | cons x l ih =>
    simp only [List.map_cons, List.nodup_cons, List.mem_map, not_exists, not_and] at h
    rcases List.mem_cons.1 ha with rfl | ha
    · simp
    · rw [List.find?_cons_of_neg (by simpa using fun e => h.1 a ha e.symm)]
      exact ih h.2 ha

theorem find_node_none {l : List ReachEntry} {t : Nat} (h : ∀ e ∈ l, e.node ≠ t) :
    l.find? (fun e => e.node == t) = none := by simpa [List.find?_eq_none] using h

theorem State.nodePort_found {s : State} (h : s.node ≠ .repeaterOnly) (t : Nat) : s.nodePort t = s.nodePortFound t :=
  if_neg h

/-- With entries in both parts, the node port is the one with fewer hops, EAST at equal hops (R37). -/
theorem State.nodePortFound_both {s : State} (hs : s.reach.Sound) {a b : ReachEntry} (ha : a ∈ s.reach.east)
    (hb : b ∈ s.reach.west) (hab : b.node = a.node) :
    s.nodePortFound a.node = some (if b.hops < a.hops then .west else .east) := by
  obtain ⟨⟨-, -, he⟩, -, -, hw⟩ := hs
  rw [State.nodePortFound, find_node_of_mem he ha, ← hab, find_node_of_mem hw hb]
  dsimp only
  split <;> rfl

/-- With an entry in one part alone, the node port is that part's (R37). -/
theorem State.nodePortFound_one {s : State} (hs : s.reach.Sound) {p : PortId} {e : ReachEntry}
    (he : e ∈ s.reach.part p) (hno : ∀ x ∈ s.reach.part (opposite p), x.node ≠ e.node) :
    s.nodePortFound e.node = some p := by
  obtain ⟨⟨-, -, hne⟩, -, -, hnw⟩ := hs
  rw [State.nodePortFound]
  cases p with
  | east => rw [find_node_of_mem hne he, find_node_none (l := s.reach.west) hno]
  | west => rw [find_node_of_mem hnw he, find_node_none (l := s.reach.east) hno]

/-- Without an entry, the node port is the one LIT port there is (R37). -/
theorem State.nodePortFound_lit {s : State} {t : Nat} (hno : ∀ p, ∀ e ∈ s.reach.part p, e.node ≠ t) :
    (∀ p, (s.port p).state = .lit → (s.port (opposite p)).state ≠ .lit → s.nodePortFound t = some p) ∧
    (((s.port .east).state = .lit ↔ (s.port .west).state = .lit) → s.nodePortFound t = none) := by
  have he : s.reach.east.find? (fun e => e.node == t) = none := find_node_none (hno .east)
  have hw : s.reach.west.find? (fun e => e.node == t) = none := find_node_none (hno .west)
  rw [State.nodePortFound, he, hw]
  refine ⟨fun p hp hq => ?_, fun hiff => ?_⟩
  · cases p <;> simp_all [State.port, opposite]
  · cases hes : s.east.state <;> cases hws : s.west.state <;> simp_all [State.port]

/-- Settles O18, answer by answer. -/
theorem terminusChoiceIsTheFirstCandidate : Obligations.TerminusChoiceIsTheFirstCandidate := by
  intro s first
  refine ⟨State.terminusChoice_self, State.terminusChoice_first, s.alternateChoice_first, s.terminusPresence_first,
    fun t => ⟨fun h => if_pos h, fun hn hsound => ?_⟩, fun n p h hc => by rw [State.choiceFar, hc], fun h => ?_⟩
  · rw [State.nodePort_found hn]
    refine ⟨fun a ha b hb hat hbt => ?_, fun p he hno => ?_, State.nodePortFound_lit⟩
    · subst hat
      exact State.nodePortFound_both hsound ha hb hbt
    · obtain ⟨e, he, rfl⟩ := he
      exact State.nodePortFound_one hsound he hno
  · obtain h | h := h <;> rw [State.choiceFar, h]

end Sys2Proof.Machine
end

section
/-! SUPPORT. The Reach View under BEATs and ages (R27 to R33): what is offered, accepted, refreshed, displaced and removed,
and what is reported of it. -/

namespace Sys2Proof.Machine

/-! ### The own BEAT (R27, R28) -/

@[simp] theorem State.offerBeat_reach (s : State) (p : PortId) : (s.offerBeat p).reach = s.reach :=
  s.offerBeat_item p (part := .reach) (by decide)

@[simp] theorem State.offerBeat_refTime (s : State) (p : PortId) : (s.offerBeat p).refTime = s.refTime :=
  s.offerBeat_item p (part := .refTime) (by decide)

@[simp] theorem State.offerBeat_cfg (s : State) (p : PortId) : (s.offerBeat p).cfg = s.cfg :=
  s.offerBeat_item p (part := .cfg) (by decide)

/-- What is fixed of a BEAT at its offer: the time fields are still 0 (R28). -/
theorem beatPayload_untimed (cfg : Config) (backlog : Nat) : beatPayload cfg backlog 0 0 false =
    [BitVec.ofNat 8 cfg.number, if cfg.role = .roadside then 1 else 2, servicesByte cfg.services] ++
      bytesBE 2 cfg.beatInterval ++ List.replicate 8 0 ++ bytesBE 2 backlog := by
  cases h : cfg.role <;> simp [beatPayload, roleCode, bytesLT, bytesBE, flagByte, h, List.replicate]

theorem Spool.backlog_eq (p : Spool) : p.backlog = (p.slots.filter fun e => e.2.filledPos.isSome).length := by
  have same : (fun e : Nat × SlotState => match e.2 with
      | .filled _ => true
      | _ => false) = fun e => e.2.filledPos.isSome := by
    funext e
    cases h : e.2 <;> simp [SlotState.filledPos]
  unfold Spool.backlog
  exact congrArg (fun f => (p.slots.filter f).length) same

/-- Settles O14, by the timer and by what each port holds. -/
theorem beatsAreOfferedAtEachExpiry : Obligations.BeatsAreOfferedAtEachExpiry := by
  intro s
  refine ⟨fun h => ?_, fun h => ?_, fun p => ?_⟩
  · simp [exec, execBeatTimerExpiry, h]
  · simp [exec, execBeatTimerExpiry, Option.isSome_iff_ne_none.2 h, State.startBeats, State.startTimer]
  · intro waits
    have hiff : waits ↔ (s.port p).state = .dark ∨ (s.port p).urgent.own.any (fun f => f.kind == .beat) = true := by
      simp [waits]
    unfold State.offerBeat
    refine ⟨fun h => if_pos (hiff.1 h), fun h => (if_neg (mt hiff.2 h)).trans ?_⟩
    rw [beatPayload_untimed, Spool.backlog_eq]
    rfl

/-! ### Acceptance (R29) -/

theorem roleOf_eq (n : Nat) : roleOf n = if n = 1 then some .roadside else if n = 2 then some .terminus else none := by
  unfold roleOf
  split <;> simp_all

/-- The BEAT that a frame carries when it meets R29. -/
def beatOf (f : Frame) : Beat :=
  { node := f.origin, role := if field f.payload 1 1 = 1 then .roadside else .terminus, interval := field f.payload 3 2
    grade := field f.payload 5 1, ts := BitVec.ofNat 48 (field f.payload 6 6)
    settled := decide (field f.payload 12 1 ≠ 0), backlog := field f.payload 13 2 }

/-- What R29 asks of a BEAT. -/
def BeatMeets (f : Frame) : Prop :=
  f.target = 0 ∧ f.payload.length = 15 ∧ field f.payload 0 1 = f.origin ∧
    (field f.payload 1 1 = 1 ∨ field f.payload 1 1 = 2) ∧ 50 ≤ field f.payload 3 2 ∧ field f.payload 3 2 ≤ 1000 ∧
    field f.payload 5 1 ≤ 7

theorem acceptBeat_of_meets {f : Frame} (h : BeatMeets f) : acceptBeat f = some (beatOf f) := by
  obtain ⟨htarget, hlen, horigin, hrole, hlo, hhi, hgrade⟩ := h
  unfold acceptBeat beatOf
  rw [roleOf_eq]
  rcases hrole with h | h <;> simp [h, htarget, hlen, horigin, hlo, hhi, hgrade, bne, Bool.beq_eq_decide_eq]

theorem acceptBeat_of_not_meets {f : Frame} (h : ¬ BeatMeets f) : acceptBeat f = none := by
  unfold acceptBeat
  rw [roleOf_eq]
  unfold BeatMeets at h
  split
  · rfl
  next role hr =>
    refine if_neg fun hall => h ?_
    have hcode : field f.payload 1 1 = 1 ∨ field f.payload 1 1 = 2 := by
      by_contra hno
      obtain ⟨h1, h2⟩ := not_or.1 hno
      simp [h1, h2] at hr
    tauto

/-- Settles O17: the first failing check rejects the BEAT, and the Reach View counts it. -/
theorem rejectedBeatsAreOnlyCounted : Obligations.RejectedBeatsAreOnlyCounted := by
  intro s p f h
  have hnone : acceptBeat f = none := acceptBeat_of_not_meets fun hm => by unfold BeatMeets at hm; omega
  rw [State.takeBeat, hnone]

/-! ### Reports (R38) -/

@[simp] theorem State.callsLoss_reach (s : State) (n : Nat) : (s.callsLoss n).reach = s.reach :=
  s.callsLoss_item n (part := .reach) (by decide)

theorem State.foldl_callsLoss_item (l : List Nat) (s : State) {part : Part}
    (h : part ∉ ([.east, .west, .calls] : List Part)) : (l.foldl State.callsLoss s).item part = s.item part :=
  foldl_item _ _ _ fun t n => t.callsLoss_item n h

/-- A report of the choice leaves the parts of the Reach View. -/
@[simp] theorem State.reportChoice_part (s : State) (p : PortId) : s.reportChoice.reach.part p = s.reach.part p := by
  unfold State.reportChoice
  dsimp only
  split
  · rfl
  · have hr (t : State) (r : Route) : ((t.steerTo r).callsChoice r).reach = t.reach :=
      ((t.steerTo r).callsChoice_item r (part := .reach) (by decide)).trans
        (t.steerTo_item r (part := .reach) (by decide))
    rw [hr]
    cases p <;> rfl

/-- The reports of a change leave the parts of the Reach View. -/
@[simp] theorem State.reportChange_part (s : State) (lost : List Nat) (p : PortId) :
    (s.reportChange lost).reach.part p = s.reach.part p := by
  have hl : (lost.foldl State.callsLoss s).reach = s.reach :=
    State.foldl_callsLoss_item lost s (part := .reach) (by decide)
  unfold State.reportChange
  split
  · rw [State.reportChoice_part, hl]
  · rfl

/-! ### Ages (R33) -/

theorem referenceHz_eq (r : Reference) : referenceHz r = if r = .mhz25 then 25000000 else 19440000 := by cases r <;> rfl

/-- With no aged entry of the node in the part the command changes nothing (R33). -/
theorem State.removeAged_none {s : State} {p : PortId} {n : Nat}
    (h : ∀ e ∈ s.reach.part p, e.node = n → s.agedOut e = false) : s.removeAged p n = s := by
  refine if_pos (List.filter_eq_nil_iff.2 fun e he => ?_)
  simp only [Bool.and_eq_true, beq_iff_eq, not_and, Bool.not_eq_true]
  exact h e he

/-- With every entry of the node aged, and one there, they leave the part, and their termini are reported (R33, R38). -/
theorem State.removeAged_some {s : State} {p : PortId} {n : Nat} (hex : ∃ e ∈ s.reach.part p, e.node = n)
    (hall : ∀ e ∈ s.reach.part p, e.node = n → s.agedOut e = true) :
    s.removeAged p n =
      State.reportChange { s with reach := s.reach.setPart p ((s.reach.part p).filter fun e => e.node != n) }
        (((s.reach.part p).filter fun e => e.node == n && e.role == .terminus).map fun e => e.node) := by
  have hgone : ((s.reach.part p).filter fun e => e.node == n && s.agedOut e) =
      (s.reach.part p).filter fun e => e.node == n :=
    List.filter_congr fun e he => by
      by_cases hn : e.node = n
      · simp [hn, hall e he hn]
      · simp [hn]
  have hkept : ((s.reach.part p).filter fun e => !(e.node == n && s.agedOut e)) =
      (s.reach.part p).filter fun e => e.node != n :=
    List.filter_congr fun e he => by
      by_cases hn : e.node = n
      · simp [hn, hall e he hn]
      · simp [bne, beq_eq_false_iff_ne.2 hn]
  have hne : ((s.reach.part p).filter fun e => e.node == n) ≠ [] := by
    obtain ⟨e, he, hn⟩ := hex
    exact List.ne_nil_of_mem (List.mem_filter.2 ⟨he, by simpa using hn⟩)
  have htermini : terminiOf ((s.reach.part p).filter fun e => e.node == n) =
      ((s.reach.part p).filter fun e => e.node == n && e.role == .terminus).map fun e => e.node := by
    simp [terminiOf, List.filter_filter, Bool.and_comm]
  rw [State.removeAged, hgone, hkept, htermini]
  exact if_neg hne

/-- Settles O15, by the age of the node's entry and the node state. -/
theorem agedEntriesLeaveTheirPart : Obligations.AgedEntriesLeaveTheirPart := by
  intro s p n hz aged kept removed termini t r
  have haged (e : ReachEntry) : s.agedOut e = true ↔ aged e := by
    simp [State.agedOut, aged, hz, ReachEntry.ageLimitUs, referenceHz_eq]
  refine ⟨rfl, fun h => ?_, fun hex hall => ?_⟩
  · refine congrArg _ (State.removeAged_none fun e he hn => ?_)
    exact Bool.eq_false_iff.2 fun ha => h e he hn ((haged e).1 ha)
  have hrun : s.removeAged p n = removed.reportChange termini :=
    State.removeAged_some hex fun e he hn => (haged e).2 (hall e he hn)
  have told (h : s.node = .running) : removed.reportChange termini = t := State.reportChange_running (s := removed) h termini
  refine ⟨fun h => ?_, fun h hroad hsame => ?_, fun h => ⟨?_, ?_, ?_, State.reportChoice_lastReported _, ?_⟩⟩
  · exact congrArg _ (hrun.trans (State.reportChange_idle (s := removed) h termini))
  · have hnone : termini = [] := by
      refine List.map_eq_nil_iff.2 (List.filter_eq_nil_iff.2 fun e he => ?_)
      simp only [Bool.and_eq_true, beq_iff_eq, not_and]
      exact fun hn => by simp [hroad e he hn]
    refine congrArg _ (hrun.trans ((told h).trans ?_))
    have : t = removed.reportChoice := by simp only [t, hnone, List.foldl_nil]
    rw [this]
    refine if_pos (hsame.trans ?_)
    cases p <;> rfl
  · exact congrArg _ (hrun.trans (told h))
  · rw [← told h, State.reportChange_part, ReachView.part_setPart]
  · rw [← told h, State.reportChange_part, ReachView.part_setPart_opposite]
  · rw [← told h, ← hrun]
    exact fun part hpart => s.removeAged_item p n hpart

/-! ### BEATs at the table (R31, R32) -/

theorem mem_insertEntry_iff {e x : ReachEntry} {l : List ReachEntry} : x ∈ insertEntry e l ↔ x = e ∨ x ∈ l :=
  (insertEntry_perm e l).mem_iff.trans List.mem_cons

theorem mem_removeNode_iff {n : Nat} {x : ReachEntry} {l : List ReachEntry} :
    x ∈ removeNode n l ↔ x ∈ l ∧ x.node ≠ n := by simp [removeNode, List.mem_filter]

/-- In a sound part the entry of a node is the only one of it. -/
theorem PartSound.eq_of_node {l : List ReachEntry} (h : PartSound l) {x y : ReachEntry} (hx : x ∈ l) (hy : y ∈ l)
    (hn : x.node = y.node) : x = y := List.inj_on_of_nodup_map h.2.2 hx hy hn

/-- Where a node has an entry, one entry leaves with it. -/
theorem PartSound.removeNode_length {l : List ReachEntry} (h : PartSound l) {x : ReachEntry} (hx : x ∈ l) :
    (removeNode x.node l).length + 1 = l.length := by
  have hperm : (x :: removeNode x.node l).Perm l := by
    refine (List.perm_ext_iff_of_nodup ?_ (List.Nodup.of_map _ h.2.2)).2 fun y => ?_
    · refine List.nodup_cons.2 ⟨fun hm => (mem_removeNode_iff.1 hm).2 rfl, ?_⟩
      exact (List.Nodup.of_map _ h.2.2).filter _
    · rw [List.mem_cons, mem_removeNode_iff]
      refine ⟨fun hy => hy.elim (fun e => e ▸ hx) And.left, fun hy => ?_⟩
      by_cases hn : y.node = x.node
      · exact .inl (h.eq_of_node hy hx hn)
      · exact .inr ⟨hy, hn⟩
  exact hperm.length_eq

/-- The victim of a full part is the ROADSIDE entry that every other one is nearer than (R32). -/
theorem PartSound.victimOf_eq {l : List ReachEntry} (h : PartSound l) {v : ReachEntry} (hv : v ∈ l)
    (hr : v.role = .roadside) (hfar : ∀ x ∈ l, x.role = .roadside → x = v ∨ x.nearer v = true) :
    victimOf l = some v := by
  have hmem (x : ReachEntry) : x ∈ (l.filter fun e => e.role == .roadside) ↔ x ∈ l ∧ x.role = .roadside := by
    simp [List.mem_filter]
  rw [victimOf]
  rcases hlast : (l.filter fun e => e.role == .roadside).getLast? with _ | w
  · rw [List.getLast?_eq_none_iff] at hlast
    exact absurd ((hmem v).2 ⟨hv, hr⟩) (by simp [hlast])
  · obtain ⟨front, hfront⟩ := List.getLast?_eq_some_iff.1 hlast
    have hw : w ∈ l ∧ w.role = .roadside := (hmem w).1 (by simp [hfront])
    obtain rfl | hnear := hfar w hw.1 hw.2
    · exact hlast
    have hvw : v ∈ front ∨ v = w := by simpa [hfront] using (hmem v).2 ⟨hv, hr⟩
    obtain hvf | rfl := hvw
    · have hsorted := h.2.1.filter fun e => e.role == .roadside
      rw [hfront, List.pairwise_append] at hsorted
      have hback := hsorted.2.2 v hvf w (by simp)
      simp [ReachEntry.nearer] at hnear hback
      omega
    · exact hlast

theorem victimOf_none {l : List ReachEntry} (h : ∀ x ∈ l, x.role = .terminus) : victimOf l = none := by
  rw [victimOf, List.getLast?_eq_none_iff, List.filter_eq_nil_iff]
  intro x hx
  simp [h x hx]

section TakeEntry
variable {l : List ReachEntry} {e : ReachEntry}

/-- A known sender's entry is refreshed (R31). -/
theorem takeEntry_refresh (hl : PartSound l) {x : ReachEntry} (hx : x ∈ l) (hn : x.node = e.node) :
    takeEntry e l = (insertEntry e (removeNode e.node l), true, x.role == .terminus && e.role == .roadside) := by
  have hfind : l.find? (fun y => y.node == e.node) = some x := hn ▸ find_node_of_mem hl.2.2 hx
  rw [takeEntry, hfind]

variable (hnew : ∀ x ∈ l, x.node ≠ e.node)
include hnew

/-- A newcomer enters a part that has room (R32). -/
theorem takeEntry_room (h : l.length < 16) : takeEntry e l = (insertEntry e l, true, false) := by
  rw [takeEntry, find_node_none hnew]
  exact if_pos h

/-- A newcomer is not kept in a full part of TERMINUS entries (R32). -/
theorem takeEntry_noVictim (h : 16 ≤ l.length) (hv : victimOf l = none) : takeEntry e l = (l, false, false) := by
  rw [takeEntry, find_node_none hnew]
  dsimp only
  rw [if_neg (Nat.not_lt.2 h), hv]

/-- A newcomer that is a TERMINUS or nearer takes the victim's place, and another is not kept (R32). -/
theorem takeEntry_victim (h : 16 ≤ l.length) {v : ReachEntry} (hv : victimOf l = some v) :
    takeEntry e l = if e.role = .terminus ∨ e.nearer v = true then (insertEntry e (removeNode v.node l), true, false)
      else (l, false, false) := by
  rw [takeEntry, find_node_none hnew]
  dsimp only
  rw [if_neg (Nat.not_lt.2 h), hv]
  simp

end TakeEntry

/-- What changes at the table is that the entry is there (R31, R32). -/
theorem takeEntry_changed_iff (e : ReachEntry) (l : List ReachEntry) :
    ((takeEntry e l).2.1 = true ↔ e ∈ (takeEntry e l).1) ∧ ((takeEntry e l).2.1 = false → (takeEntry e l).1 = l) := by
  unfold takeEntry
  split
  · simp [mem_insertEntry_iff]
  next hnone =>
    have hnot : e ∉ l := fun he => by simpa using List.find?_eq_none.1 hnone e he
    (repeat' split) <;> simp [mem_insertEntry_iff, hnot]

/-- What the table reports as a loss is a TERMINUS entry refreshed as ROADSIDE (R38). -/
theorem PartSound.takeEntry_lost_iff {l : List ReachEntry} (h : PartSound l) (e : ReachEntry) :
    (Machine.takeEntry e l).2.2 = true ↔ e.role = .roadside ∧ ∃ x ∈ l, x.node = e.node ∧ x.role = .terminus := by
  by_cases hex : ∃ x ∈ l, x.node = e.node
  · obtain ⟨x, hx, hn⟩ := hex
    rw [takeEntry_refresh h hx hn]
    simp only [Bool.and_eq_true, beq_iff_eq]
    refine ⟨fun hr => ⟨hr.2, x, hx, hn, hr.1⟩, fun ⟨hr, y, hy, hyn, hyr⟩ => ⟨?_, hr⟩⟩
    rwa [h.eq_of_node hx hy (hn.trans hyn.symm)]
  · have hnone : l.find? (fun x => x.node == e.node) = none := find_node_none fun x hx hn => hex ⟨x, hx, hn⟩
    have hfalse : (Machine.takeEntry e l).2.2 = false := by
      unfold Machine.takeEntry
      rw [hnone]
      dsimp only
      (repeat' split) <;> rfl
    rw [hfalse]
    simp only [Bool.false_eq_true, false_iff]
    exact fun ⟨_, x, hx, hn, _⟩ => hex ⟨x, hx, hn⟩

/-- The part after a BEAT is what the table makes of it, and the other part is not touched. -/
theorem State.takeEntry_part (s : State) (p : PortId) (b : Beat) (n : Nat) :
    (s.takeEntry p b n).reach.part p = (Machine.takeEntry (entryOf b n s.refTime) (s.reach.part p)).1 ∧
      (s.takeEntry p b n).reach.part (opposite p) = s.reach.part (opposite p) := by
  unfold State.takeEntry
  dsimp only
  split <;> simp

theorem ReachView.setPart_part (r : ReachView) (p : PortId) : r.setPart p (r.part p) = r := by cases p <;> rfl

/-- A BEAT that meets R29: the table, then in RUNNING the merge (R29, R47). -/
theorem State.takeBeat_of_meets {s : State} {f : Frame} (h : BeatMeets f) (p : PortId) :
    s.takeBeat p f = if s.node = .running then (s.takeEntry p (beatOf f) (f.hops + 1)).merge (beatOf f) (f.hops + 1)
      else s.takeEntry p (beatOf f) (f.hops + 1) := by
  have hnode : (s.takeEntry p (beatOf f) (f.hops + 1)).node = s.node :=
    s.takeEntry_item p _ _ (part := .node) (by decide)
  rw [State.takeBeat, acceptBeat_of_meets h]
  simp [State.isRunning, hnode]

theorem State.takeBeat_part {s : State} {f : Frame} (h : BeatMeets f) (p r : PortId) :
    (s.takeBeat p f).reach.part r = (s.takeEntry p (beatOf f) (f.hops + 1)).reach.part r := by
  rw [State.takeBeat_of_meets h]
  split <;> rfl

/-- One loss, or none, reported. -/
theorem State.foldl_callsLoss_iff (s : State) (n : Nat) {lost : Bool} {c : Prop} [Decidable c] (h : lost = true ↔ c) :
    (if lost then [n] else []).foldl State.callsLoss s = if c then s.callsLoss n else s := by
  by_cases hc : c
  · rw [if_pos hc, if_pos (h.2 hc), List.foldl_cons, List.foldl_nil]
  · rw [if_neg hc, if_neg (mt h.1 hc), List.foldl_nil]

/-- Settles O16, by what the table makes of the entry. -/
theorem acceptedBeatsRefreshOrOfferAnEntry : Obligations.AcceptedBeatsRefreshOrOfferAnEntry := by
  intro s p f htarget hlen horigin hrole hlo hhi hgrade hsound b t old e put demoted told
  have hm : BeatMeets f := ⟨htarget, hlen, horigin, hrole, hlo, hhi, hgrade⟩
  have hpart : t.reach.part p = (takeEntry e old).1 := (State.takeBeat_part hm p p).trans (s.takeEntry_part p b _).1
  obtain ⟨hchanged, hkept⟩ := takeEntry_changed_iff e old
  have hlost := hsound.takeEntry_lost_iff e
  have hentry : s.takeEntry p b (f.hops + 1) =
      if (takeEntry e old).2.1 = true then put.reportChange (if (takeEntry e old).2.2 then [b.node] else []) else put := by
    simp only [put, hpart]; rfl
  have hput : (takeEntry e old).2.1 = false → put = s := fun h => by
    simp only [put, hpart, hkept h, old, ReachView.setPart_part]
  refine ⟨acceptBeat_of_meets hm, fun hr => ?_, fun hr => ?_, ?_, ?_, fun ⟨x, hx, hn⟩ => ?_, fun hnew => ⟨fun hroom => ?_,
    fun hfull hall => ?_, fun hfull v hv hvr hfar => ?_⟩⟩
  · have ht : t = (s.takeEntry p b (f.hops + 1)).merge b (f.hops + 1) :=
      (State.takeBeat_of_meets hm p).trans (if_pos hr)
    have htold : put.reportChange (if (takeEntry e old).2.2 then [b.node] else []) = told := by
      rw [State.reportChange_running (s := put) hr]
      exact congrArg State.reportChoice (State.foldl_callsLoss_iff put b.node hlost)
    refine ⟨fun hin => ?_, fun hout => ?_⟩
    · have hyes := hchanged.2 (hpart ▸ hin)
      have htt : t = told.merge b (f.hops + 1) :=
        ht.trans (congrArg (fun u => u.merge b (f.hops + 1)) (hentry.trans ((if_pos hyes).trans htold)))
      have hlast : told.reach.lastReported = told.terminusChoice.route := State.reportChoice_lastReported _
      exact ⟨htt, (congrArg (fun u => u.reach.lastReported) htt).trans hlast⟩
    · have hno : (takeEntry e old).2.1 = false := Bool.eq_false_iff.2 fun h => hout (hpart ▸ hchanged.1 h)
      exact ht.trans (congrArg (fun u => u.merge b (f.hops + 1))
        (hentry.trans ((if_neg (by simp [hno])).trans (hput hno))))
  · have ht : t = s.takeEntry p b (f.hops + 1) := (State.takeBeat_of_meets hm p).trans (if_neg hr)
    rw [ht, hentry]
    split
    · exact State.reportChange_idle (s := put) hr _
    · rfl
  · exact (State.takeBeat_part hm p _).trans (s.takeEntry_part p b _).2
  · rw [hpart]; exact hsound.takeEntry e
  · rw [hpart, takeEntry_refresh hsound hx hn]
    refine ⟨?_, fun y => by rw [mem_insertEntry_iff, mem_removeNode_iff]⟩
    rw [(insertEntry_perm e _).length_eq, List.length_cons]
    rw [show e.node = x.node from hn.symm]
    exact hsound.removeNode_length hx
  · rw [hpart, takeEntry_room hnew hroom]
    exact fun y => mem_insertEntry_iff
  · rw [hpart, takeEntry_noVictim hnew hfull (victimOf_none hall)]
  · rw [hpart, takeEntry_victim hnew hfull (hsound.victimOf_eq hv hvr hfar)]
    refine ⟨fun hwin y => ?_, fun hlose => by rw [if_neg hlose]⟩
    rw [if_pos hwin, mem_insertEntry_iff, mem_removeNode_iff]
    refine or_congr_right (and_congr_right fun hy => not_congr ⟨fun hyn => hsound.eq_of_node hy hv hyn, fun hyv => hyv ▸ rfl⟩)

end Sys2Proof.Machine
end

section
/-! SUPPORT. Entry into DARK (R2 to R6): the port that leaves the Reach View gets no offer from the reports of its loss. -/

namespace Sys2Proof.Machine

/-! ### No report offers on a port whose part is empty -/

theorem State.offer_port_ne (s : State) {p r : PortId} (h : r ≠ p) (f : Frame) : (s.offer r f).port p = s.port p := by
  have hp : p = opposite r := by cases p <;> cases r <;> first | rfl | exact absurd rfl h
  rw [hp, State.offer_opposite]

theorem State.offerCall_port_ne (s : State) (far : Option Nat) {port : Option PortId} {p : PortId} (h : port ≠ some p)
    (k : FrameKind) (payload : List Byte) : (s.offerCall far port k payload).port p = s.port p := by
  unfold State.offerCall State.offerOn
  split
  · split
    next q => exact s.offer_port_ne (fun e => h (congrArg some e)) _
    next => rfl
  · rfl

/-- The ports of both directions of an operation that leaves their items. -/
theorem State.port_of_items {s t : State} (he : t.item .east = s.item .east) (hw : t.item .west = s.item .west)
    (p : PortId) : t.port p = s.port p := by
  cases p
  · exact he
  · exact hw

section Unseen
variable {s : State} {p : PortId} (h : s.reach.part p = [])
include h

/-- A candidate's port has a part that is not empty. -/
theorem State.bestOf_port_ne {l : List (ReachEntry × PortId)} (hl : ∀ c ∈ l, c ∈ s.reach.termini)
    {e : ReachEntry} {q : PortId} (hb : bestOf l = some (e, q)) : q ≠ p := by
  rintro rfl
  have hm := ((s.reach.mem_termini e q).1 (hl _ (bestOf_some hb).1)).1
  simp [h] at hm

/-- The terminus choice gives no port whose part is empty (R35, R76). -/
theorem State.choiceFar_port_ne : s.choiceFar.2 ≠ some p := by
  unfold State.choiceFar
  split
  next n q k hc =>
    unfold State.terminusChoice at hc
    split at hc
    · cases hc
    · rcases hb : bestOf s.reach.termini with _ | ⟨e, r⟩
      · rw [hb] at hc; cases hc
      · rw [hb] at hc
        cases hc
        simpa using State.bestOf_port_ne h (fun _ hm => hm) hb
  next => simp

/-- Nor does the terminus presence (R36). -/
theorem State.terminusPresence_ne (t : Nat) : s.terminusPresence t ≠ some p := by
  unfold State.terminusPresence
  rcases hb : bestOf (s.reach.termini.filter fun c => c.1.node == t) with _ | ⟨e, r⟩
  · simp
  · simpa using State.bestOf_port_ne h (fun _ hm => List.mem_of_mem_filter hm) hb

/-- So an attempt has settled on another port, or none (R76). -/
theorem CallEntry.settleFar_port_ne (c : CallEntry) : (c.settleFar s).port ≠ some p := by
  unfold CallEntry.settleFar
  split
  next q hq =>
    obtain ⟨t, -, ht⟩ := Option.bind_eq_some_iff.1 hq
    rintro hp
    exact State.terminusPresence_ne h t (ht.trans hp)
  next => exact State.choiceFar_port_ne h

end Unseen

/-- A port that shows something and has an empty part. -/
def State.ShowsUnseen (p : PortId) (x : LinePort) (s : State) : Prop := s.port p = x ∧ s.reach.part p = []

section Reports
variable {s : State} {p : PortId} {x : LinePort} (h : s.ShowsUnseen p x)
include h

theorem State.ShowsUnseen.items {t : State} (he : t.item .east = s.item .east) (hw : t.item .west = s.item .west)
    (hr : t.item .reach = s.item .reach) : t.ShowsUnseen p x := by
  have hr : t.reach = s.reach := hr
  exact ⟨(State.port_of_items he hw p).trans h.1, hr ▸ h.2⟩

theorem State.ShowsUnseen.attempt (e : Fin 8) (c : CallEntry) : (s.attempt e c).ShowsUnseen p x := by
  have hr : (s.attempt e c).reach = s.reach := s.attempt_item e c (part := .reach) (by decide)
  refine ⟨?_, hr ▸ h.2⟩
  have hport := CallEntry.settleFar_port_ne h.2 c
  exact (State.offerCall_port_ne _ _ hport _ _).trans h.1

theorem State.ShowsUnseen.slowAttempt (e : Fin 8) (c : CallEntry) : (s.slowAttempt e c).ShowsUnseen p x :=
  State.ShowsUnseen.attempt (h.items (by simp) (by simp) (by simp)) e _

theorem State.ShowsUnseen.setCall (e : Fin 8) (c : Option CallEntry) : (s.setCall e c).ShowsUnseen p x := h

theorem State.ShowsUnseen.enterResuming (e : Fin 8) (c : CallEntry) : (s.enterResuming e c).ShowsUnseen p x :=
  State.ShowsUnseen.attempt (h.items (by simp) (by simp) (by simp)) e _

theorem State.ShowsUnseen.lossForCall (n : Nat) (e : Fin 8) : (State.lossForCall n s e).ShowsUnseen p x := by
  unfold State.lossForCall
  (repeat' split) <;> first | exact h | exact h.enterResuming e _

theorem State.ShowsUnseen.callsLoss (n : Nat) : (s.callsLoss n).ShowsUnseen p x :=
  List.foldlRecOn _ _ (motive := State.ShowsUnseen p x) h fun _ ht e _ => ht.lossForCall n e

theorem State.ShowsUnseen.choiceForCall (n : Nat) (q : PortId) (e : Fin 8) :
    (State.choiceForCall n q s e).ShowsUnseen p x := by
  unfold State.choiceForCall State.choiceAttempt
  (repeat' split) <;> first | exact h | exact h.slowAttempt e _ | exact h.attempt e _

theorem State.ShowsUnseen.callsChoice (r : Route) : (s.callsChoice r).ShowsUnseen p x := by
  unfold State.callsChoice
  split
  next n q => exact List.foldlRecOn _ _ (motive := State.ShowsUnseen p x) h fun _ ht e _ => ht.choiceForCall n q e
  next => exact h

theorem State.ShowsUnseen.reportChoice : s.reportChoice.ShowsUnseen p x := by
  unfold State.reportChoice
  dsimp only
  split
  · exact h
  · refine State.ShowsUnseen.callsChoice ?_ _
    have hlast : State.ShowsUnseen p x { s with reach := { s.reach with lastReported := s.terminusChoice.route } } :=
      ⟨h.1, by rw [← h.2]; cases p <;> rfl⟩
    exact hlast.items (by simp) (by simp) (by simp)

theorem State.ShowsUnseen.reportChange (lost : List Nat) : (s.reportChange lost).ShowsUnseen p x := by
  unfold State.reportChange
  split
  · exact State.ShowsUnseen.reportChoice
      (List.foldlRecOn _ _ (motive := State.ShowsUnseen p x) h fun _ ht n _ => ht.callsLoss n)
  · exact h

end Reports

/-! ### The port that goes dark (R2) -/

/-- The state with a port put and its part of the Reach View emptied. -/
def State.emptied (s : State) (p : PortId) (u : LinePort) : State := { s.setPort p u with reach := s.reach.setPart p [] }

/-- What a node whose part held entries reports of it in RUNNING (R38). -/
def State.toldLost (s : State) (p : PortId) (t : State) : State :=
  if s.node = .running ∧ s.reach.part p ≠ [] then ((terminiOf (s.reach.part p)).foldl State.callsLoss t).reportChoice else t

theorem State.emptied_of_nil {s : State} {p : PortId} (h : s.reach.part p = []) (u : LinePort) :
    s.emptied p u = s.setPort p u := by
  have hr : s.reach.setPart p [] = s.reach := by rw [← h, ReachView.setPart_part]
  unfold State.emptied
  rw [hr]
  cases p <;> rfl

theorem State.emptied_setPort (s : State) (p : PortId) (v u : LinePort) : (s.setPort p v).emptied p u = s.emptied p u := by
  cases p <;> rfl

theorem State.toldLost_setPort (s : State) (p : PortId) (v : LinePort) (t : State) :
    (s.setPort p v).toldLost p t = s.toldLost p t := by
  cases p <;> rfl

/-- The entry into DARK: the port darkened, its part emptied, the loss told. -/
theorem State.goDark_eq (s : State) (p : PortId) : s.goDark p = s.toldLost p (s.emptied p (s.port p).darken) := by
  have hreach : (s.setPort p (s.port p).darken).reach = s.reach := s.setPort_item p _ (part := .reach) (by decide)
  unfold State.goDark State.toldLost
  dsimp only
  by_cases hnil : s.reach.part p = []
  · rw [if_pos hnil, if_neg (by simp [hnil]), State.emptied_of_nil hnil]
  · have hemptied : State.emptied s p (s.port p).darken =
        { s.setPort p (s.port p).darken with reach := (s.setPort p (s.port p).darken).reach.setPart p [] } := by
      rw [hreach]; rfl
    have hnode : (s.emptied p (s.port p).darken).node = s.node := s.setPort_node p _
    rw [if_neg hnil, ← hemptied]
    by_cases hrun : s.node = .running
    · rw [if_pos ⟨hrun, hnil⟩, State.reportChange_running (hnode.trans hrun)]
    · rw [if_neg (by simp [hrun]), State.reportChange_idle (by rwa [hnode])]

/-- What holds of a state in which a port has entered DARK. -/
def State.DarkFacts (s : State) (p : PortId) (t : State) (u : LinePort) : Prop :=
  t.port p = u ∧ t.reach.part p = [] ∧ t.reach.part (opposite p) = s.reach.part (opposite p) ∧
    (s.node ≠ .running → t.port (opposite p) = s.port (opposite p) ∧ SameBut [.east, .west, .reach] s t)

theorem State.toldLost_showsUnseen {s : State} {p : PortId} {t : State} {u : LinePort} (h : t.ShowsUnseen p u) :
    (s.toldLost p t).ShowsUnseen p u := by
  unfold State.toldLost
  split
  · exact State.ShowsUnseen.reportChoice
      (List.foldlRecOn _ _ (motive := State.ShowsUnseen p u) h fun _ ht n _ => ht.callsLoss n)
  · exact h

theorem State.emptied_showsUnseen (s : State) (p : PortId) (u : LinePort) : (s.emptied p u).ShowsUnseen p u :=
  ⟨by cases p <;> rfl, by cases p <;> rfl⟩

theorem State.toldLost_part (s : State) (p : PortId) (t : State) (r : PortId) :
    (s.toldLost p t).reach.part r = t.reach.part r := by
  unfold State.toldLost
  split
  · rw [State.reportChoice_part, show (List.foldl State.callsLoss t _).reach = t.reach from
      State.foldl_callsLoss_item _ t (part := .reach) (by decide)]
  · rfl

/-- An entry into DARK leaves the port as put, both for the node and for its reports (R2). -/
theorem State.darkFacts (s : State) (p : PortId) (u : LinePort) :
    s.DarkFacts p (s.toldLost p (s.emptied p u)) u := by
  obtain ⟨hport, hpart⟩ := State.toldLost_showsUnseen (s := s) (s.emptied_showsUnseen p u)
  refine ⟨hport, hpart, ?_, fun hrun => ?_⟩
  · rw [State.toldLost_part]; cases p <;> rfl
  · rw [State.toldLost, if_neg (by simp [hrun])]
    refine ⟨by cases p <;> rfl, fun part hk => ?_⟩
    simp only [List.mem_cons, List.not_mem_nil, or_false, not_or] at hk
    exact (item_set_reach _ _ hk.2.2).trans (s.setPort_item p u (by simp [hk.1, hk.2.1]))

theorem State.toldLost_node (s : State) (p : PortId) (t : State) : (s.toldLost p t).node = t.node := by
  unfold State.toldLost
  split
  · exact (State.reportChoice_item _ (part := .node) (by decide)).trans
      (State.foldl_callsLoss_item _ t (part := .node) (by decide))
  · rfl

/-- The facts after the port alone is put anew. -/
theorem State.DarkFacts.setPort {s t : State} {p : PortId} {u : LinePort} (h : s.DarkFacts p t u) (v : LinePort) :
    s.DarkFacts p (t.setPort p v) v := by
  obtain ⟨-, hpart, hother, hidle⟩ := h
  have hreach : (t.setPort p v).reach = t.reach := t.setPort_item p v (part := .reach) (by decide)
  refine ⟨t.port_setPort p v, hreach ▸ hpart, hreach ▸ hother, fun hrun => ?_⟩
  obtain ⟨hport, hsame⟩ := hidle hrun
  refine ⟨(t.port_setPort_opposite p v).trans hport, fun part hk => (t.setPort_item p v ?_).trans (hsame part hk)⟩
  simp at hk ⊢
  exact ⟨hk.1, hk.2.1⟩

/-! ### The BEAT of a port that is PROBING again (R4, R27) -/

/-- At a PROBING port that holds and sends nothing, the own BEAT is taken and sent at once (R17, R20). -/
theorem State.offerBeat_probing {s : State} {p : PortId} (hs : (s.port p).state = .probing)
    (hu : (s.port p).urgent = Lane.initial) (hf : (s.port p).sending = none) :
    ∃ beat : Frame, beat.kind = .beat ∧ s.offerBeat p = s.setPort p { s.port p with sending := some beat } := by
  obtain ⟨f, hk, hoff⟩ : ∃ f : Frame, f.kind = .beat ∧ s.offerBeat p = s.offer p f := by
    refine ⟨_, ?_, if_neg ?_⟩
    · rfl
    · simp [hs, hu, Lane.initial]
  refine ⟨s.completed f true, (s.completed_kind f true).trans hk, hoff.trans ?_⟩
  have hanswer : (s.port p).offerAnswer f = .taken := by
    simp [LinePort.offerAnswer, hs, hk, FrameKind.isUrgent, LinePort.lane, hu, Lane.initial, localCapacity]
  have happend : (s.port p).appendOwn f = { s.port p with urgent := ⟨[], [f], 0⟩ } := by
    simp [LinePort.appendOwn, hk, FrameKind.isUrgent, LinePort.lane, LinePort.setLane, hu, Lane.initial]
  have hchoose : ((s.port p).appendOwn f).choose = some (f, true, s.port p) := by
    rw [happend, LinePort.choose_of_urgent (l := Lane.initial) rfl, ← hu]
  have hport := s.port_setPort p ((s.port p).appendOwn f)
  rw [State.offer, hanswer]
  dsimp only
  rw [State.arbitrate_of_choose (by rw [hport, happend]; simp [hs]) (by rw [hport, happend]; exact hf)
    (by rw [hport]; exact hchoose), State.setPort_setPort]
  cases p <;> rfl

/-! ### The statement -/

/-- Settles O5: the port is darkened, its part emptied and told, and after a silence light makes it PROBING again. -/
theorem entryIntoDark : Obligations.EntryIntoDark := by
  intro s p q lost dark termini emptied told lit facts
  have hemptied (u : LinePort) : (s.emptied p u).node = s.node := s.setPort_node p u
  refine ⟨fun hheld hdark => ?_, fun hlit hsilence => ?_⟩
  · intro t
    have hgo : (s.setPort p { q with light := false }).goDark p = t := by
      refine (State.goDark_eq _ p).trans ?_
      rw [State.port_setPort, State.emptied_setPort, State.toldLost_setPort]
      rfl
    have hfacts : facts t { dark with light := false } := s.darkFacts p _
    have henter : (s.setPort p { q with light := false }).enterDark p = t := by
      rw [State.enterDark, hgo]
      exact if_neg (by rw [hfacts.1]; simp)
    have hrun : (if s.node = .held then s
        else if ((s.setPort p { q with light := false }).port p).state = .dark then s.setPort p { q with light := false }
        else (s.setPort p { q with light := false }).enterDark p) = t :=
      (if_neg hheld).trans ((if_neg (by rwa [State.port_setPort])).trans henter)
    exact ⟨congrArg Host.Outcome.next hrun, hfacts⟩
  · intro t
    have hgo : s.goDark p = t := s.goDark_eq p
    have hfacts : facts t dark := s.darkFacts p dark
    have hnode : t.node = s.node := (s.toldLost_node p _).trans (hemptied dark)
    have hport : t.port p = dark := hfacts.1
    have hlight : dark.light = q.light := rfl
    have hrun {u : State} (henter : s.enterDark p = u) : exec (.portSilenceTimerExpiry p) s = .next u :=
      congrArg _ ((if_pos ⟨hlit, hsilence⟩).trans henter)
    have hdark (hl : q.light = false) : s.enterDark p = t := by
      rw [State.enterDark, hgo]
      exact if_neg (by rw [hport, hlight, hl]; simp)
    have hprobe (hl : q.light = true) : s.enterDark p = t.enterProbing p := by
      rw [State.enterDark, hgo]
      exact if_pos (by rw [hport, hlight, hl])
    have hput : t.setPort p { t.port p with state := .probing, probe := 0 } = lit t := by rw [hport]
    refine ⟨fun hl => ⟨hrun (hdark hl), hfacts⟩, fun hl hidle => ⟨hrun ((hprobe hl).trans ?_), State.DarkFacts.setPort hfacts _⟩,
      fun hl hrunning => ⟨hrun ((hprobe hl).trans ?_), ?_⟩⟩
    · rw [State.enterProbing_eq, if_neg (hnode ▸ hidle), hput]
    · rw [State.enterProbing_eq, if_pos (hnode.trans hrunning), hput]
    · have hp : (lit t).port p = { dark with state := .probing } := State.port_setPort _ _ _
      obtain ⟨beat, hbeat, hoffer⟩ := State.offerBeat_probing (s := lit t) (p := p) (by rw [hp]) (by rw [hp]) (by rw [hp])
      refine ⟨beat, hbeat, ?_⟩
      rw [hoffer, hp]
      exact State.DarkFacts.setPort (State.DarkFacts.setPort hfacts _) _

end Sys2Proof.Machine
end

section
/-! SUPPORT. A good frame after its checks: what its port does, where it goes, and what its owner reads of it (R5 to R14, 12.3). -/

namespace Sys2Proof.Machine

/-! ### The codes and fields of a call frame (12.3, R204) -/

theorem callRequestOf_eq_some_iff (n : Nat) (q : CallRequest) :
    callRequestOf n = some q ↔ (n, q) ∈ [(1, CallRequest.ask), (2, .resume), (3, .ring)] := by
  unfold callRequestOf
  split <;> cases q <;> simp_all

theorem callAnswerOf_eq_some_iff (n : Nat) (a : CallAnswer) :
    callAnswerOf n = some a ↔ (n, a) ∈ [(1, CallAnswer.accept), (2, .queued), (3, .busy), (4, .ringing)] := by
  unfold callAnswerOf
  split <;> cases a <;> simp_all

theorem releaseCauseOf_eq_some_iff (n : Nat) (c : ReleaseCause) :
    releaseCauseOf n = some c ↔ (n, c) ∈ [(1, ReleaseCause.clear), (2, .hangup), (3, .timeout), (4, .noAnswer)] := by
  unfold releaseCauseOf
  split <;> cases c <;> simp_all

/-- A code that a table does not hold names nothing. -/
theorem eq_none_of_codes {α : Type} {codeOf : Nat → Option α} {table : List (Nat × α)}
    (hcodes : ∀ n a, codeOf n = some a ↔ (n, a) ∈ table) {n : Nat} (h : ∀ x ∈ table, x.1 ≠ n) : codeOf n = none := by
  rcases hc : codeOf n with _ | a
  · rfl
  · exact absurd rfl (h _ ((hcodes n a).1 hc))

theorem phoneOf_eq (n : Nat) : phoneOf n = if n = 1 then some .phoneA else if n = 2 then some .phoneB else none := by
  unfold phoneOf
  split <;> simp_all

/-! ### The reports that fit their entry (R204, 12.3) -/

theorem codeIn_iff (p : List Byte) (off lo hi : Nat) : codeIn p off lo hi = true ↔ lo ≤ field p off 1 ∧ field p off 1 ≤ hi := by
  simp [codeIn]

theorem srptFits_iff (p : List Byte) : srptFits p = true ↔
    (p.length = 20 ∧ field p 0 1 = 1 ∧ field p 1 1 ≤ 3 ∧ (1 ≤ field p 3 1 ∧ field p 3 1 ≤ 4) ∧ field p 4 1 ≤ 6) ∨
    (p.length = 13 ∧ field p 0 1 = 2 ∧ (1 ≤ field p 1 1 ∧ field p 1 1 ≤ 4) ∧ (1 ≤ field p 2 1 ∧ field p 2 1 ≤ 6) ∧
      field p 3 1 ≤ 3) ∨
    (p.length = 20 ∧ field p 0 1 = 3 ∧ (field p 1 1 ≤ 3 ∨ field p 1 1 = 255) ∧ field p 2 1 ≤ 3) := by
  simp only [srptFits, Bool.or_eq_true, Bool.and_eq_true, beq_iff_eq, codeIn_iff]
  omega

theorem wrptFits_iff (p : List Byte) : wrptFits p = true ↔
    p.length = 84 ∧ ∀ i, i < 8 → 0 ≤ field p (54 + 3 * i) 1 ∧ field p (54 + 3 * i) 1 ≤ 4 := by
  simp [wrptFits, codeIn_iff]

/-- A check passes the values that a description admits. -/
def ValueCheck.Passes (check : ValueCheck) (item : List Byte → Prop) : Prop := ∀ v, check v = true ↔ item v

/-- A value of one length whose bytes at some offsets are codes of a range. -/
def SizedValue (k : Nat) (codes : List (Nat × Nat × Nat)) (v : List Byte) : Prop :=
  v.length = k ∧ ∀ c ∈ codes, c.2.1 ≤ field v c.1 1 ∧ field v c.1 1 ≤ c.2.2

/-- A list value with its two numbers and its elements. -/
def ListedValue (size : Nat) (codes : List (Nat × Nat × Nat)) (v : List Byte) : Prop :=
  v.length = 2 + size * field v 1 1 ∧ field v 1 1 ≤ field v 0 1 ∧
    ∀ i, i < field v 1 1 → ∀ c ∈ codes, c.2.1 ≤ field v (2 + size * i + c.1) 1 ∧ field v (2 + size * i + c.1) 1 ≤ c.2.2

theorem codedValue_passes (k : Nat) (codes : List (Nat × Nat × Nat)) : (codedValue k codes).Passes (SizedValue k codes) := by
  intro v
  simp [codedValue, SizedValue, codeIn_iff]

theorem valueOf_passes (k : Nat) : (valueOf k).Passes (SizedValue k []) := by
  intro v
  simp [valueOf, SizedValue]

theorem valueOrNone_passes (k : Nat) : (valueOrNone k).Passes fun v => v.length = k ∨ v = [] := by
  intro v
  simp [valueOrNone]

theorem listValue_passes (size : Nat) (codes : List (Nat × Nat × Nat)) :
    (listValue size codes).Passes (ListedValue size codes) := by
  intro v
  simp [listValue, ListedValue, codeIn_iff, and_assoc]

theorem displayValue_passes :
    displayValue.Passes fun v => SizedValue 4 [(1, 0, 3)] v ∧ (field v 0 1 ≤ 3 ∨ field v 0 1 = 255) := by
  intro v
  simp only [displayValue, Bool.and_eq_true, Bool.or_eq_true, codedValue_passes 4 _ v, codeIn_iff]
  exact and_congr_right fun _ => by omega

/-- An item given for a terminus is empty at a ROADSIDE node. -/
theorem terminusValue_passes {check : ValueCheck} {item : List Byte → Prop} (h : check.Passes item) (role : Nat) :
    (terminusValue (role == 2) check).Passes fun v => if role = 2 then item v else v = [] := by
  intro v
  by_cases hr : role = 2
  · simp [terminusValue, hr, h v]
  · simp [terminusValue, hr, valueOf]

/-- Items that fit a table of checks fit the descriptions that the checks pass. -/
theorem fits_congr {checks : List ValueCheck} {items : List (List Byte → Prop)}
    (h : List.Forall₂ ValueCheck.Passes checks items) (j : Nat) (v : List Byte) :
    (∃ check, checks[j]? = some check ∧ check v = true) ↔ ∃ item, items[j]? = some item ∧ item v := by
  induction h generalizing j with
  | nil => simp
  | cons hd _ ih =>
    rcases j with _ | j
    · simp [hd v]
    · simpa using ih j

theorem nstaItems_length_le (terminus : Bool) (part : Nat) : (nstaItems terminus part).length ≤ 19 := by
  unfold nstaItems
  split <;> simp

/-- An NSTA part against its entry, its items described by what their checks pass (R204, log entry 26). -/
theorem nstaFits_iff {p : List Byte} (hp : p.length ≤ 256) {items : Nat → List (List Byte → Prop)}
    (h : ∀ part, 1 ≤ part → part ≤ 5 → List.Forall₂ ValueCheck.Passes (nstaItems (field p 4 1 == 2) part) (items part)) :
    nstaFits p = true ↔ 12 ≤ p.length ∧ p.length ≤ 256 ∧ (1 ≤ field p 2 1 ∧ field p 2 1 ≤ 5) ∧
      (1 ≤ field p 4 1 ∧ field p 4 1 ≤ 2) ∧ ∃ vs : List (List Byte),
        p.drop 12 = ((vs.zipIdx 1).flatMap fun v => itemBytes v.2 v.1) ∧
        ∀ (j : Nat) (v : List Byte), vs[j]? = some v → ∃ item, (items (field p 2 1))[j]? = some item ∧ item v := by
  have hlen := nstaItems_length_le (field p 4 1 == 2) (field p 2 1)
  simp only [nstaFits, Bool.and_eq_true, decide_eq_true_eq, codeIn_iff, and_assoc]
  refine and_congr_right fun _ => and_congr_right fun _ => and_congr_right fun hlo => and_congr_right fun hhi =>
    and_congr_right fun _ => and_congr_right fun _ => ?_
  rw [itemsFit_iff _ _ _ (by simp; omega) (by omega)]
  simp only [fits_congr (h _ hlo hhi)]

/-! ### The port's part, the clash and the target decision (R5, R6, R9 to R14) -/

/-- What a good frame does to the port that took it (R5, R6, R9). -/
def LinePort.acted (q : LinePort) (silence : Timer) : LinePort :=
  let counters := { q.counters with receivedGood := bump q.counters.receivedGood }
  if q.state = .lit then { q with counters := counters, silence := silence }
  else if 2 ≤ q.probe + 1 then { q with counters := counters, state := .lit, probe := 0, silence := silence }
  else { q with counters := counters, probe := q.probe + 1 }

theorem LinePort.acted_counters (q : LinePort) (silence : Timer) :
    (q.acted silence).counters = { q.counters with receivedGood := bump q.counters.receivedGood } := by
  unfold LinePort.acted
  dsimp only
  split
  · rfl
  · split <;> rfl

theorem State.numberKnown_iff (s : State) : s.numberKnown = true ↔ s.node = .scanning ∨ s.node = .running := by
  simp [State.numberKnown]

theorem State.isTerminus_iff (s : State) :
    s.isTerminus = true ↔ (s.node = .scanning ∨ s.node = .running) ∧ s.cfg.role = .terminus := by
  simp [State.isTerminus, State.numberKnown]

theorem State.silenceUs_eq (s : State) : s.silenceUs =
    if s.node = .scanning ∨ s.node = .running then 3 * s.cfg.beatInterval * 1000 else 300000 := by
  simp [State.silenceUs, State.numberKnown]

theorem State.goodForPort_eq {s : State} {p : PortId} (h : (s.port p).state ≠ .dark) :
    s.goodForPort p = s.setPort p ((s.port p).acted (s.startTimer s.silenceUs)) := by
  rcases hs : (s.port p).state with _ | _ | _
  · exact absurd hs h
  · by_cases hp : 2 ≤ (s.port p).probe + 1
    · simp only [State.goodForPort, hs, if_pos hp, State.enterLit, State.port_setPort, State.setPort_setPort,
        LinePort.acted, reduceCtorEq, if_false]
      cases p <;> rfl
    · simp [State.goodForPort, LinePort.acted, hs, hp]
  · simp [State.goodForPort, LinePort.acted, hs]

theorem State.takeFrame_good {s : State} {p : PortId} {b : List Byte} {f : Frame} (hf : checkFrame b = .good f)
    (h : (s.port p).state ≠ .dark) :
    s.takeFrame p b = (s.setPort p ((s.port p).acted (s.startTimer s.silenceUs))).goodFrame p f := by
  simp [State.takeFrame, hf, h, State.goodForPort_eq h]

section Decision
variable {s : State} (p : PortId) {f : Frame}

theorem State.goodFrame_clash (h : s.node = .scanning ∨ s.node = .running) (ho : f.origin = s.cfg.number) :
    s.goodFrame p f = s.clashOn p :=
  if_pos ⟨s.numberKnown_iff.2 h, ho⟩

variable (ho : s.node = .scanning ∨ s.node = .running → f.origin ≠ s.cfg.number)
include ho

/-- A frame with another origin goes where the target decision says. -/
theorem State.goodFrame_decided : s.goodFrame p f =
    let t := if (s.targetDecision f.target).forward then s.forward p f else s
    if (s.targetDecision f.target).deliver then t.deliver p f else t :=
  if_neg fun ⟨hk, h⟩ => ho (s.numberKnown_iff.1 hk) h

theorem State.goodFrame_forAll (h : f.target = 0) : s.goodFrame p f = (s.forward p f).deliver p f := by
  rw [State.goodFrame_decided p ho, State.targetDecision, if_pos h]
  rfl

theorem State.goodFrame_own (h : f.target ≠ 0)
    (hown : (s.node = .scanning ∨ s.node = .running) ∧ f.target = s.cfg.number ∨
      f.target = 241 ∧ (s.node = .scanning ∨ s.node = .running) ∧ s.cfg.role = .terminus) :
    s.goodFrame p f = s.deliver p f := by
  have hd : s.targetDecision f.target = ⟨true, false⟩ := by
    rcases hown with ⟨hk, ht⟩ | ⟨ht, hr⟩
    · simp [State.targetDecision, s.numberKnown_iff.2 hk, ht, show s.cfg.number ≠ 0 from ht ▸ h]
    · simp [State.targetDecision, ht, s.isTerminus_iff.2 hr]
  rw [State.goodFrame_decided p ho, hd]
  rfl

theorem State.goodFrame_other (h : f.target ≠ 0)
    (hn : s.node = .scanning ∨ s.node = .running → f.target ≠ s.cfg.number)
    (ht : f.target = 241 → ¬((s.node = .scanning ∨ s.node = .running) ∧ s.cfg.role = .terminus)) :
    s.goodFrame p f = s.forward p f := by
  have hd : s.targetDecision f.target = ⟨false, true⟩ := by
    unfold State.targetDecision
    rw [if_neg h, if_neg fun he => hn (s.numberKnown_iff.1 he.1) he.2,
      if_neg fun he => ht he.1 (s.isTerminus_iff.1 he.2)]
  rw [State.goodFrame_decided p ho, hd]
  rfl

end Decision

/-! ### Delivery (R13) -/

theorem State.deliver_running {s : State} (h : s.node = .running) (p : PortId) (f : Frame) :
    s.deliver p f = s.toOwner p f := by
  simp [State.deliver, h]

theorem State.deliver_beat {s : State} (h : s.node = .loading ∨ s.node = .scanning ∨ s.node = .running) (p : PortId)
    {f : Frame} (hk : f.kind = .beat) : s.deliver p f = s.takeBeat p f := by
  rcases h with h | h | h <;> simp [State.deliver, State.toOwner, h, hk]

theorem State.deliver_unused {s : State} (hn : s.node ≠ .running) (p : PortId) {f : Frame}
    (h : f.kind ≠ .beat ∨ s.node = .repeaterOnly ∨ s.node = .held) : s.deliver p f = s := by
  rcases hs : s.node with _ | _ | _ | _ | _ <;> simp_all [State.deliver]

/-- A frame taken whole carries at most 256 payload bytes. -/
theorem checkFrame_payload {b : List Byte} {f : Frame} (h : checkFrame b = .good f) : f.payload.length ≤ 256 := by
  unfold checkFrame at h
  (repeat' split at h) <;> simp at h
  subst h
  simp
  omega

theorem State.copyToCentre_eq {s : State} (h : s.node = .running) (kind : Byte) (f : Frame) :
    s.copyToCentre kind f =
      if s.cfg.role = .terminus then s.placeOrDrop ⟨kind, BitVec.ofNat 8 f.origin :: f.payload⟩ else s := by
  simp [State.copyToCentre, State.isTerminus, State.numberKnown, h, centreCopy]

theorem State.isTerminus_running {s : State} (h : s.node = .running) : s.isTerminus = true ↔ s.cfg.role = .terminus := by
  simp [State.isTerminus, State.numberKnown, h]

/-- Settles O10: the port's part, then the four cases of R10 to R14, then the owner of each kind. -/
theorem goodFramesClashOrTravelOn : Obligations.GoodFramesClashOrTravelOn := by
  intro s p b f hgood hnd q counters silence q' known terminus t onward copied n num ref phone requests answers causes code
    srpt coded sized orEmpty listed terminal shown items itemised delivered judged
  have hport : (s.port p).acted (s.startTimer s.silenceUs) = q' := by rw [State.silenceUs_eq]; rfl
  have hrun {v : State} (h : t.goodFrame p f = v) : exec (.frameReceived p b) s = .next v :=
    congrArg _ ((State.takeFrame_good hgood hnd).trans (by rw [hport]; exact h))
  have hnode : t.node = s.node := s.setPort_node p q'
  have hcfg : t.cfg = s.cfg := s.setPort_item p q' (part := .cfg) (by decide)
  have honward : t.forward p f = onward := rfl
  have hpay : n ≤ 256 := checkFrame_payload hgood
  refine ⟨fun hk ho => hrun ?_, fun ht hk h241 => hrun ?_, fun u ho hu => ?_⟩
  · rw [State.goodFrame_clash p (by rwa [hnode]) (by rwa [hcfg]), State.clashOn, State.port_setPort,
      State.setPort_setPort]
    have hc : q'.counters = counters := hport ▸ LinePort.acted_counters _ _
    rw [hc]
  · exact State.goodFrame_other p (by rw [hnode, hcfg]; exact fun h => (hk h).1) ht
      (by rw [hnode, hcfg]; exact fun h => (hk h).2) (by rw [hnode, hcfg]; exact h241)
  · have hunode : u.node = s.node := by
      rcases hu with ⟨-, rfl⟩ | ⟨-, rfl, -⟩
      · exact (t.forward_item p f (part := .node) (by decide)).trans hnode
      · exact hnode
    have hucfg : u.cfg = s.cfg := by
      rcases hu with ⟨-, rfl⟩ | ⟨-, rfl, -⟩
      · exact (t.forward_item p f (part := .cfg) (by decide)).trans hcfg
      · exact hcfg
    have hdel {v : State} (h : u.deliver p f = v) : delivered v := by
      refine hrun (Eq.trans ?_ h)
      rcases hu with ⟨ht, rfl⟩ | ⟨ht, rfl, hown⟩
      · exact State.goodFrame_forAll p (by rwa [hnode, hcfg]) ht
      · exact State.goodFrame_own p (by rwa [hnode, hcfg]) ht (by rw [hnode, hcfg]; exact hown)
    refine ⟨fun hn hk => hdel (State.deliver_unused (hunode ▸ hn) p (by rwa [hunode])),
      fun hn hk => hdel (State.deliver_beat (by rwa [hunode]) p hk), fun hr => ?_⟩
    have hurun : u.node = .running := hunode.trans hr
    have hown {v : State} (h : u.toOwner p f = v) : delivered v := hdel ((State.deliver_running hurun p f).trans h)
    have hjudged {fits : Prop} {kind : Byte} (hfits : reportFits f = true ↔ fits)
        (h : u.toOwner p f = u.reportToCentre kind f) : judged fits kind u := by
      refine ⟨fun hf => hown (h.trans ?_), fun hf => hown (h.trans ?_)⟩
      · rw [State.reportToCentre, if_pos (hfits.2 hf), State.copyToCentre_eq hurun, hucfg]
      · rw [State.reportToCentre, if_neg (mt hfits.1 hf)]
    have hcall (hk : f.kind = .creq ∨ f.kind = .cacc ∨ f.kind = .crel ∨ f.kind = .voic) :
        u.toOwner p f = u.takeCallFrame p f := by rcases hk with h | h | h | h <;> simp [State.toOwner, h]
    refine ⟨fun hk => ⟨fun hbad => hown ?_, fun q hn hq => hown ?_⟩, fun hk => ⟨fun hbad => hown ?_, fun a hn ha => hown ?_⟩,
      fun hk => ⟨fun hbad => hown ?_, fun c hn hc => hown ?_⟩, fun hk => ⟨fun hbad => hown ?_, fun hn => hown ?_⟩,
      fun hk => hown ?_, fun hk => hown ?_, fun hk => hown ?_, fun hk => hown ?_, fun hk => hown ?_, fun hk => ?_,
      fun hk => ?_, fun hk => ?_⟩
    · have hparse : parseCreq f.payload = none := by
        by_cases hn : f.payload.length = 5
        · have hcode := eq_none_of_codes callRequestOf_eq_some_iff (hbad.resolve_left fun h => h hn)
          simp only [parseCreq, if_pos hn]; rw [hcode]; rfl
        · simp [parseCreq, hn]
      simp [hcall, State.takeCallFrame, hk, hparse]
    · have hparse : parseCreq f.payload = some { ref := ref, request := q, phone := phone, attempts := num 4 } := by
        have hcode := (callRequestOf_eq_some_iff _ _).2 hq
        rw [parseCreq, if_pos hn, hcode, phoneOf_eq]; rfl
      simp [hcall, State.takeCallFrame, hk, hparse]
    · have hparse : parseCacc f.payload = none := by
        by_cases hn : f.payload.length = 4
        · have hcode := eq_none_of_codes callAnswerOf_eq_some_iff (hbad.resolve_left fun h => h hn)
          rw [parseCacc, if_pos hn, hcode]; rfl
        · simp [parseCacc, hn]
      simp [hcall, State.takeCallFrame, hk, hparse]
    · have hparse : parseCacc f.payload = some { ref := ref, answer := a, position := num 3 } := by
        have hcode := (callAnswerOf_eq_some_iff _ _).2 ha
        rw [parseCacc, if_pos hn, hcode]; rfl
      simp [hcall, State.takeCallFrame, hk, hparse]
    · have hparse : parseCrel f.payload = none := by
        by_cases hn : f.payload.length = 3
        · have hcode := eq_none_of_codes releaseCauseOf_eq_some_iff (hbad.resolve_left fun h => h hn)
          rw [parseCrel, if_pos hn, hcode]; rfl
        · simp [parseCrel, hn]
      simp [hcall, State.takeCallFrame, hk, hparse]
    · have hparse : parseCrel f.payload = some (ref, c) := by
        have hcode := (releaseCauseOf_eq_some_iff _ _).2 hc
        rw [parseCrel, if_pos hn, hcode]; rfl
      simp [hcall, State.takeCallFrame, hk, hparse]
    · have hparse : parseVoic f.payload = none := if_neg hbad
      simp [hcall, State.takeCallFrame, hk, hparse]
    · have hparse : parseVoic f.payload = some (ref, ⟨BitVec.ofNat 16 (field f.payload 2 2), f.payload.drop 4⟩) := if_pos hn
      simp [hcall, State.takeCallFrame, hk, hparse]
    · have hw : (u.takeWalr f.origin f.payload).node = .running :=
        (u.takeWalr_item _ _ (part := .node) (by decide)).trans hurun
      have hc : (u.takeWalr f.origin f.payload).cfg = s.cfg := (u.takeWalr_item _ _ (part := .cfg) (by decide)).trans hucfg
      have hcopy := State.copyToCentre_eq hw 0x87 f
      rw [hc] at hcopy
      exact (show u.toOwner p f = (u.takeWalr f.origin f.payload).copyToCentre 0x87 f by simp [State.toOwner, hk]).trans hcopy
    · simp [State.toOwner, hk]
    · simp [State.toOwner, hk]
    · simp [State.toOwner, hk, State.isTerminus_running hurun, hucfg]
    · simp [State.toOwner, hk]
    · exact hjudged (by simp only [reportFits, hk]; exact srptFits_iff _) (by simp [State.toOwner, hk])
    · exact hjudged (by simp only [reportFits, hk]; exact wrptFits_iff _) (by simp [State.toOwner, hk])
    · refine hjudged ?_ (by simp [State.toOwner, hk])
      simp only [reportFits, hk]
      have hitems : ∀ part, 1 ≤ part → part ≤ 5 →
          List.Forall₂ ValueCheck.Passes (nstaItems (num 4 == 2) part) (items part) := by
        intro part hlo hhi
        obtain rfl | rfl | rfl | rfl | rfl : part = 1 ∨ part = 2 ∨ part = 3 ∨ part = 4 ∨ part = 5 := by omega
        all_goals
          repeat' first
            | exact List.Forall₂.nil
            | refine List.Forall₂.cons ?_ ?_
            | exact valueOf_passes _
            | exact codedValue_passes _ _
            | exact listValue_passes _ _
            | exact valueOrNone_passes _
            | exact displayValue_passes
            | refine terminusValue_passes ?_ _
      exact nstaFits_iff hpay hitems

end Sys2Proof.Machine
end

section
/-! SUPPORT. Line Time's commands (R45, R46, R53 to R56), and an inbound message by node state and role (R190 to R192). -/

namespace Sys2Proof.Machine

/-! ### The carry (R45, R46) -/

/-- The least number of periods of k that bring an accumulator to 2^32 (R45). -/
theorem periods_least {a k : Nat} (ha : a < 2 ^ 32) (hk : 0 < k) :
    let n := (2 ^ 32 - a + k - 1) / k
    0 < n ∧ a + (n - 1) * k < 2 ^ 32 ∧ 2 ^ 32 ≤ a + n * k := by
  intro n
  have hlt : 2 ^ 32 - a + k - 1 < n * k + k := by
    have := Nat.lt_div_mul_add (a := 2 ^ 32 - a + k - 1) hk
    exact this
  have hle : n * k ≤ 2 ^ 32 - a + k - 1 := Nat.div_mul_le_self _ _
  have hn : 0 < n := Nat.div_pos (by omega) hk
  have hpred : (n - 1) * k + k = n * k := by
    obtain ⟨m, hm⟩ : ∃ m, n = m + 1 := ⟨n - 1, by omega⟩
    rw [hm]; simp [Nat.succ_mul]
  exact ⟨hn, by omega, by omega⟩

/-- The accumulator keeps what stands above 2^32 (R45). -/
theorem accumulate_rest (a : BitVec 32) (m : Nat) (h : 2 ^ 32 ≤ a.toNat + m) :
    a + BitVec.ofNat 32 m = BitVec.ofNat 32 (a.toNat + m - 2 ^ 32) := by
  apply BitVec.eq_of_toNat_eq
  simp only [BitVec.toNat_add, BitVec.toNat_ofNat]
  omega

theorem State.passToCarry_of_rate {s : State} {k : BitVec 32} (hn : s.node = .scanning ∨ s.node = .running)
    (hk : s.time.k = some k) :
    s.passToCarry = { s with refTime := s.refTime + s.time.periodsToCarry k,
                             time := (s.time.accumulate k (s.time.periodsToCarry k)).countCarry } := by
  rw [State.passToCarry, if_pos (s.numberKnown_iff.2 hn)]
  simp only [hk]

/-- Settles O19, by the holdback and the pending carry. -/
theorem carriesCountOrAreWithheld : Obligations.CarriesCountOrAreWithheld := by
  intro s
  refine ⟨fun hs hr => ?_, fun k hn hk hk0 => ?_⟩
  · have hknown : ¬s.numberKnown = true := by simp [s.numberKnown_iff, hs, hr]
    exact congrArg _ (if_neg hknown)
  · have hpos : 0 < k.toNat := Nat.pos_of_ne_zero fun h => hk0 (BitVec.eq_of_toNat_eq (by simpa using h))
    obtain ⟨hlo, hbelow, hreach⟩ := periods_least s.time.acc.isLt hpos
    refine ⟨s.time.periodsToCarry k, hlo, hbelow, hreach, ?_⟩
    intro t next
    have hrun {u : LineTime} (h : t.countCarry = u) : next u := by
      refine congrArg Host.Outcome.next ((State.passToCarry_of_rate hn hk).trans ?_)
      have hacc : s.time.accumulate k (s.time.periodsToCarry k) = t :=
        congrArg (fun a => { s.time with acc := a }) (accumulate_rest _ _ hreach)
      rw [hacc, h]
    refine ⟨fun hh hc => hrun ?_, fun hh hc => hrun ?_, fun hh hc => hrun ?_, fun hh hc => hrun ?_⟩
    · simp [LineTime.countCarry, hh, hc]
    · simp [LineTime.countCarry, hh, hc]
    · simp [LineTime.countCarry, Nat.ne_of_gt hh, hc]
    · simp [LineTime.countCarry, Nat.ne_of_gt hh, hc]

/-! ### An inbound message by node state and role (R190 to R192) -/

section Dispatch
variable {s : State} {used : Bool} {owner refusal : State → State}

theorem State.dispatch_running (h : s.node = .running) (hu : used = true) :
    s.dispatch true used owner refusal = owner s := by
  simp [State.dispatch, State.portReceives, State.numberKnown, State.isRunning, h, hu]

theorem State.dispatch_misdirected (h : s.node = .running) (hu : used = false) :
    s.dispatch true used owner refusal = s.countMisdirected := by
  simp [State.dispatch, State.portReceives, State.numberKnown, State.isRunning, h, hu]

theorem State.dispatch_scanning (h : s.node = .scanning) :
    s.dispatch true used owner refusal = refusal s.countNotReady := by
  simp [State.dispatch, State.portReceives, State.numberKnown, State.isRunning, h]

theorem State.dispatch_bad (h : s.node = .scanning ∨ s.node = .running) :
    s.dispatch false used owner refusal = s.countBad := by
  rcases h with h | h <;> simp [State.dispatch, State.portReceives, State.numberKnown, h]

theorem State.dispatch_unreceived {ok : Bool} (hs : s.node ≠ .scanning) (hr : s.node ≠ .running) :
    s.dispatch ok used owner refusal = s := by
  simp [State.dispatch, State.portReceives, State.numberKnown, hs, hr]

end Dispatch

theorem State.timeInputEnabled_iff (s : State) :
    s.timeInputEnabled = true ↔ s.cfg.role = .terminus ∧ s.cfg.timeInput = true := by
  simp [State.timeInputEnabled, and_comm]

/-- Settles O21, timer by timer. -/
theorem timersOfLineTime : Obligations.TimersOfLineTime := by
  intro s v anew
  have used (hn : s.node = .running) (hr : s.cfg.role = .terminus) : exec (.time v) s = .next (s.takeTime v) :=
    congrArg _ (State.dispatch_running hn ((State.isTerminus_running hn).2 hr))
  refine ⟨fun h => congrArg _ (if_pos (Option.isSome_iff_ne_none.2 h)), fun h => congrArg _ (if_neg (by simp [h])),
    fun hn hr ht => (used hn hr).trans ?_, fun hn hr ht => (used hn hr).trans ?_, fun hn hr => ?_, fun hn => ?_,
    fun h => congrArg _ (if_pos (Option.isSome_iff_ne_none.2 h)), fun h => congrArg _ (if_neg (by simp [h])),
    fun h => congrArg _ (if_pos (Option.isSome_iff_ne_none.2 h)), fun h => congrArg _ (if_neg (by simp [h]))⟩
  · exact congrArg _ (if_pos (s.timeInputEnabled_iff.2 ⟨hr, ht⟩))
  · exact congrArg _ (if_neg (by simp [s.timeInputEnabled_iff, ht]))
  · exact congrArg _ (State.dispatch_misdirected hn (by simp [State.isTerminus, hr]))
  · exact congrArg _ (State.dispatch_scanning hn)

/-! ### The time input (R54 to R56) -/

/-- What an accepted pulse always does (R55). -/
def State.pulsed (s : State) : LineTime :=
  { s.time with value := none, lapse := none, grade := 7, lock := some ⟨s.refTime, 3000000⟩, gradeTimer := none }

section Accept
variable {s : State} {v : LTime}

theorem State.acceptPulse_ahead (hs : s.time.settled = true) (hd : (s.cfg.window : Int) < ltDiff v s.time.lt) :
    s.acceptPulse v = { s with time := { s.pulsed with lt := v, holdback := 0 } } := by
  simp [State.acceptPulse, State.pulsed, hs, hd, LineTime.dropValue, State.startTimer]

theorem State.acceptPulse_behind (hs : s.time.settled = true) (hd : ltDiff v s.time.lt < -(s.cfg.window : Int)) :
    s.acceptPulse v = { s with
      time := { s.pulsed with
        holdback := min (-ltDiff v s.time.lt).toNat 10000000
        disputes := if 10000000 < -ltDiff v s.time.lt then bump s.time.disputes else s.time.disputes } } := by
  have hahead : ¬(s.cfg.window : Int) < ltDiff v s.time.lt := by omega
  simp [State.acceptPulse, State.pulsed, hs, hd, hahead, LineTime.dropValue, LineTime.holdBack_neg_toNat, State.startTimer]

theorem State.acceptPulse_within (hs : s.time.settled = true) (hlo : -(s.cfg.window : Int) ≤ ltDiff v s.time.lt)
    (hhi : ltDiff v s.time.lt ≤ s.cfg.window) :
    s.acceptPulse v = { s with time := { s.pulsed with holdback := 0 } } := by
  simp [State.acceptPulse, State.pulsed, hs, Int.not_lt.2 hlo, Int.not_lt.2 hhi, LineTime.dropValue, State.startTimer]

theorem State.acceptPulse_unsettled_far (hs : s.time.settled = false)
    (hd : ltDiff v s.time.lt < -(s.cfg.window : Int) ∨ (s.cfg.window : Int) < ltDiff v s.time.lt) :
    s.acceptPulse v = { s with time := { s.pulsed with settled := true, lt := v } } := by
  simp [State.acceptPulse, State.pulsed, hs, hd.symm, LineTime.dropValue, State.startTimer]

theorem State.acceptPulse_unsettled_within (hs : s.time.settled = false)
    (hlo : -(s.cfg.window : Int) ≤ ltDiff v s.time.lt) (hhi : ltDiff v s.time.lt ≤ s.cfg.window) :
    s.acceptPulse v = { s with time := { s.pulsed with settled := true } } := by
  simp [State.acceptPulse, State.pulsed, hs, Int.not_lt.2 hlo, Int.not_lt.2 hhi, LineTime.dropValue, State.startTimer]

end Accept

/-- Settles O22, by the lock, the pending value and then the difference. -/
theorem pulsesSetTheTime : Obligations.PulsesSetTheTime := by
  intro s enabled w next
  have hiff : (s.isRunning && s.timeInputEnabled) = true ↔ enabled := by
    simp [State.isRunning, s.timeInputEnabled_iff, enabled]
  refine ⟨fun h => congrArg Host.Outcome.next (if_neg (mt hiff.1 h)), fun h hl => congrArg Host.Outcome.next ?_,
    fun h hl hv => congrArg Host.Outcome.next ?_, fun v h hl hv => ?_⟩
  · simp [State.timePulse, hiff.2 h, Option.isSome_iff_ne_none.2 hl, LineTime.dropValue]
  · simp [State.timePulse, hiff.2 h, hl, hv]
  · have haccept {u : State} (hu : s.acceptPulse v = u) : exec .timeInputPulse s = .next u := by
      refine congrArg Host.Outcome.next (Eq.trans ?_ hu)
      simp [State.timePulse, hiff.2 h, hl, hv]
    intro d taken
    exact ⟨fun hs => ⟨fun hd => haccept (State.acceptPulse_ahead hs hd), fun hd => haccept (State.acceptPulse_behind hs hd),
        fun hlo hhi => haccept (State.acceptPulse_within hs hlo hhi)⟩,
      fun hs => ⟨fun hd => haccept (State.acceptPulse_unsettled_far hs hd),
        fun hlo hhi => haccept (State.acceptPulse_unsettled_within hs hlo hhi)⟩⟩

end Sys2Proof.Machine
end

section
/-! SUPPORT. Values and rules: a source's rules in ascending number, pulse windows and readings (R67, R68, R177, R178, R182). -/

namespace Sys2Proof.Machine

/-- Two runs over one list agree while an invariant holds that the steps keep. -/
theorem foldl_eq_of_inv {α β : Type} {P : β → Prop} {f g : β → α → β} (h : ∀ b a, P b → f b a = g b a ∧ P (g b a)) (l : List α)
    (b : β) (hb : P b) : l.foldl f b = l.foldl g b := by
  induction l generalizing b with
  | nil => rfl
  | cons a l ih =>
    obtain ⟨he, hp⟩ := h b a hb
    rw [List.foldl_cons, List.foldl_cons, he]
    exact ih _ hp

/-! ### What a rule's evaluation keeps -/

theorem State.evaluate_cfg (s : State) (n : Fin 8) (r c : Bool) : (s.evaluate n r c).cfg = s.cfg :=
  s.evaluate_item n r c (part := .cfg) (by decide)

/-- The pulse values and their saturations are those of another state. -/
def State.SamePulses (s t : State) : Prop :=
  t.weather.values = s.weather.values ∧ t.weather.saturations = s.weather.saturations

theorem State.SamePulses.refl (s : State) : s.SamePulses s := ⟨rfl, rfl⟩

theorem State.SamePulses.trans {s t u : State} (h : s.SamePulses t) (h' : t.SamePulses u) : s.SamePulses u :=
  ⟨h'.1.trans h.1, h'.2.trans h.2⟩

theorem State.SamePulses.of_item {s t : State} (h : t.item .weather = s.item .weather) : s.SamePulses t := by
  have h : t.weather = s.weather := h
  exact ⟨by rw [h], by rw [h]⟩

theorem State.countWalr_pulses (s : State) (a : Answer) : s.SamePulses (s.countWalr a) := by
  unfold State.countWalr
  split <;> exact ⟨rfl, rfl⟩

theorem State.offerWalr_pulses (s : State) (p : PortId) (zone : Nat) (payload : List Byte) :
    s.SamePulses (s.offerWalr p zone payload) := by
  unfold State.offerWalr
  split
  · have hoffer : s.SamePulses (s.offer p (s.ownFrame .walr zone 0 payload)) :=
      .of_item (s.offer_item p _ (part := .weather) (by decide))
    exact hoffer.trans (State.countWalr_pulses _ _)
  · exact .refl s

theorem State.sendWalr_pulses (s : State) : s.SamePulses s.sendWalr := by
  unfold State.sendWalr
  dsimp only
  have hsent (t : State) (h : s.SamePulses t) (m : CabMsg) :
      s.SamePulses (if t.isTerminus then t.placeOrDrop m else t) := by
    split
    · exact h.trans (.of_item (t.placeOrDrop_item m (part := .weather) (by decide)))
    · exact h
  refine hsent _ ?_ _
  split
  · have hempty : s.SamePulses { s with weather := { s.weather with gathering := [], windowTimer := none } } := ⟨rfl, rfl⟩
    exact hempty.trans ((State.offerWalr_pulses _ _ _ _).trans (State.offerWalr_pulses _ _ _ _))
  · exact ⟨rfl, rfl⟩

theorem State.gather_pulses (s : State) (g : GatherItem) : s.SamePulses (s.gather g) := by
  unfold State.gather
  dsimp only
  split
  · exact ⟨rfl, rfl⟩
  split
  · exact ⟨rfl, rfl⟩
  split
  · exact State.SamePulses.trans ⟨rfl, rfl⟩ (State.sendWalr_pulses _)
  · exact ⟨rfl, rfl⟩

theorem State.evaluate_pulses (s : State) (n : Fin 8) (r c : Bool) : s.SamePulses (s.evaluate n r c) := by
  have raised (t : State) : t.SamePulses (t.ruleRaised n) :=
    ((t.gather_pulses (alertOf (t.rule n) n)).trans (.of_item
      (State.claimForRule_item (t.gather (alertOf (t.rule n) n)) n (part := .weather) (by decide)))).trans ⟨rfl, rfl⟩
  have cleared (t : State) : t.SamePulses (t.ruleCleared n) :=
    ((t.gather_pulses (withdrawOf (t.rule n) n)).trans (.of_item
      (State.withdrawForRule_item (t.gather (withdrawOf (t.rule n) n)) n (part := .weather) (by decide)))).trans ⟨rfl, rfl⟩
  unfold State.evaluate
  dsimp only
  split
  · exact raised (s.setRule n _)
  split
  · exact cleared (s.setRule n _)
  · exact ⟨rfl, rfl⟩

/-! ### A source's rules (R181, R182) -/

/-- A rule of a configuration evaluated with a value of a source; a rule of another source, or an unused one, is not. -/
def judgeRule (s : State) (src : RuleSource) (v : Int) (t : State) (n : Fin 8) : State :=
  let r := s.rule n
  let raises := if r.sense = .above then decide (r.raiseAt ≤ v) else decide (v ≤ r.raiseAt)
  let clears := if r.sense = .above then decide (v < r.clearAt) else decide (r.clearAt < v)
  if r.kind ≠ 0 ∧ r.source = src then t.evaluate n raises clears else t

theorem raiseHolds_eq (r : RuleConfig) (v : Int) :
    raiseHolds r v = if r.sense = .above then decide (r.raiseAt ≤ v) else decide (v ≤ r.raiseAt) := by
  rcases h : r.sense <;> simp [raiseHolds, h]

theorem clearHolds_eq (r : RuleConfig) (v : Int) :
    clearHolds r v = if r.sense = .above then decide (v < r.clearAt) else decide (r.clearAt < v) := by
  rcases h : r.sense <;> simp [clearHolds, h]

/-- A source's rules are judged by the configuration alone, which no evaluation changes. -/
theorem State.evaluateSource_eq {s t : State} (h : t.cfg = s.cfg) (src : RuleSource) (v : Int) :
    t.evaluateSource src v = ([0, 1, 2, 3, 4, 5, 6, 7] : List (Fin 8)).foldl (judgeRule s src v) t := by
  refine foldl_eq_of_inv (P := fun u => u.cfg = s.cfg) (fun u n hu => ?_) _ t h
  have hrule : u.rule n = s.rule n := State.rule_of_cfg hu
  simp only [judgeRule, hrule, raiseHolds_eq, clearHolds_eq, true_and]
  split
  · exact (u.evaluate_cfg n _ _).trans hu
  · exact hu

theorem State.evaluateSource_pulses (s : State) (src : RuleSource) (v : Int) : s.SamePulses (s.evaluateSource src v) := by
  refine List.foldlRecOn _ _ (motive := State.SamePulses s) (.refl s) fun t ht n _ => ?_
  split
  · exact ht.trans (t.evaluate_pulses n _ _)
  · exact ht

theorem State.weatherActs_iff (s : State) : s.weatherActs = true ↔ s.node = .running ∧ s.cfg.services.weather = true := by
  simp [State.weatherActs, State.isRunning]

/-! ### Pulse inputs (R67, R68, R177) -/

@[simp] theorem pulseSet_pulseGet {α : Type} (p : PerPulse α) (ch : PulseId) : pulseSet p ch (pulseGet p ch) = p := by
  cases ch <;> rfl

theorem State.edgeCounts_iff (s : State) (ch : PulseId) : s.edgeCounts ch = true ↔
    ∀ e, (pulseGet s.inputs.pulses ch).lastEdge = some e → 2000 ≤ (s.refTime - e) * 1000000 / referenceHz s.cfg.reference := by
  unfold State.edgeCounts
  split
  next h => simp [h]
  next t h => rw [decide_eq_true_iff]; simp [h, State.elapsedUs]

/-- A window's end at a node whose Weather Monitor acts, with the value of the window's history (R177). -/
theorem State.windowEnd_of_acts {t : State} {ch : PulseId} (h : t.weatherActs = true) {n : Nat} {b : Bool}
    (hv : pulseValue (pulseGet t.inputs.pulses ch).history (pulseGet t.cfg.depth ch) (pulseGet t.cfg.scale ch) = (n, b)) :
    t.windowEnd ch = { t with weather := { t.weather with
      values := pulseSet t.weather.values ch (some n)
      saturations := pulseSet t.weather.saturations ch
        (if b then bump (pulseGet t.weather.saturations ch) else pulseGet t.weather.saturations ch) } }.evaluateSource
          (pulseSource ch) n := by
  rw [State.windowEnd, if_pos h, hv]

/-- Settles O24: the edge by its spacing, the window's end by whether Weather Monitor acts. -/
theorem pulsesAreCountedInWindows : Obligations.PulsesAreCountedInWindows := by
  intro s ch v put spaced history ended m value given stored judged done
  have hedge : (s.isRunning && s.edgeCounts ch) = true ↔ s.node = .running ∧ spaced := by
    simp [State.isRunning, s.edgeCounts_iff, spaced, v]
  have hend (h : v.window ≠ none) {u : State} (hu : ended.windowEnd ch = u) : exec (.pulseWindowEnd ch) s = .next u :=
    congrArg _ ((if_pos (Option.isSome_iff_ne_none.2 h)).trans hu)
  refine ⟨fun hr hs => congrArg _ (if_pos (hedge.2 ⟨hr, hs⟩)),
    fun h => congrArg _ (if_neg (mt hedge.1 (by tauto))), fun h => congrArg _ (if_neg (by simp [v] at h; simp [h])),
    fun hw h => hend hw (if_neg (mt ended.weatherActs_iff.1 (by simp only [ended, put]; simp; tauto))), fun hw hr hws => ?_⟩
  have hacts : ended.weatherActs = true := ended.weatherActs_iff.2 ⟨hr, hws⟩
  have hvalue : pulseValue (pulseGet ended.inputs.pulses ch).history (pulseGet ended.cfg.depth ch)
      (pulseGet ended.cfg.scale ch) = (min value 65535, decide (65535 < value)) := by
    have hh : (pulseGet ended.inputs.pulses ch).history = history := by cases ch <;> rfl
    rw [hh]; rfl
  have hstored : { ended with weather := { s.weather with
      values := pulseSet s.weather.values ch (some (min value 65535))
      saturations := pulseSet s.weather.saturations ch
        (if decide (65535 < value) then bump (pulseGet s.weather.saturations ch)
          else pulseGet s.weather.saturations ch) } } = stored := by
    by_cases hv : 65535 < value
    · simp [stored, hv]
    · simp [stored, hv]
  have hjudged : judgeRule s (pulseSource ch) given = judged := by cases ch <;> rfl
  have hsource : stored.evaluateSource (pulseSource ch) given = done :=
    (State.evaluateSource_eq (s := s) (t := stored) rfl _ _).trans
      (congrArg (fun f => ([0, 1, 2, 3, 4, 5, 6, 7] : List (Fin 8)).foldl f stored) hjudged)
  have hdone : ended.windowEnd ch = done :=
    (State.windowEnd_of_acts hacts hvalue).trans
      ((congrArg (fun u : State => u.evaluateSource (pulseSource ch) given) hstored).trans hsource)
  obtain ⟨hvalues, hsats⟩ := stored.evaluateSource_pulses (pulseSource ch) given
  refine ⟨hend hw hdone, ?_, ?_, ?_, fun part hpart => ?_⟩
  · exact hsource ▸ stored.evaluateSource_item _ _ (part := .inputs) (by decide)
  · exact hsource ▸ hvalues
  · exact hsource ▸ hsats
  · rw [← hsource]
    simp only [List.mem_cons, List.not_mem_nil, or_false, not_or] at hpart
    obtain ⟨hinputs, hweather, hdisplay, heast, hwest, hequip⟩ := hpart
    refine (stored.evaluateSource_item _ _ (by simp [*])).trans ?_
    exact (item_set_weather ended _ hweather).trans (item_set_inputs s _ hinputs)

/-! ### Readings (R178, R179, R192) -/

theorem clampInt_eq {lo hi : Int} (h : lo ≤ hi) (v : Int) :
    clampInt lo hi v = if v < lo then lo else if hi < v then hi else v := by
  unfold clampInt
  (repeat' split) <;> omega

theorem State.storeReading_inside {s : State} {c : Fin 8} {lo hi v : Int} (hr : s.readingRange c = (lo, hi))
    (hlo : lo ≤ v) (hhi : v ≤ hi) (valid : Bool) :
    s.storeReading c v valid = s.setChannel c
        { value := v, valid := valid, stale := false,
          timer := s.startTimer 120000000, saturations := (s.weather.channels[c]).saturations } := by
  have hclamp := clampInt_eq (hlo.trans hhi) v
  rw [if_neg (by omega), if_neg (by omega)] at hclamp
  simp [State.storeReading, State.setChannel, hr, hclamp, Int.not_lt.2 hlo, Int.not_lt.2 hhi]

theorem State.storeReading_below {s : State} {c : Fin 8} {lo hi v : Int} (hr : s.readingRange c = (lo, hi))
    (h : lo ≤ hi) (hv : v < lo) (valid : Bool) :
    s.storeReading c v valid = s.setChannel c
        { value := lo, valid := valid, stale := false,
          timer := s.startTimer 120000000, saturations := bump (s.weather.channels[c]).saturations } := by
  have hclamp := clampInt_eq h v
  rw [if_pos hv] at hclamp
  simp [State.storeReading, State.setChannel, hr, hclamp, hv]

theorem State.storeReading_above {s : State} {c : Fin 8} {lo hi v : Int} (hr : s.readingRange c = (lo, hi))
    (h : lo ≤ hi) (hv : hi < v) (valid : Bool) :
    s.storeReading c v valid = s.setChannel c
        { value := hi, valid := valid, stale := false,
          timer := s.startTimer 120000000, saturations := bump (s.weather.channels[c]).saturations } := by
  have hclamp := clampInt_eq h v
  rw [if_neg (by omega), if_pos hv] at hclamp
  simp [State.storeReading, State.setChannel, hr, hclamp, hv]

/-- A reading of a channel, stored and at a node with WEATHER judged (R178, R182). -/
theorem State.takeReading_of_lt (s : State) {ch : Byte} {c : Fin 8} (h : ch.toNat = c) (value : BitVec 16) (valid : Bool) :
    s.takeReading ch value valid =
      if (s.storeReading c value.toInt valid).weatherActs && valid then
        (s.storeReading c value.toInt valid).evaluateSource (.channel c)
          ((s.storeReading c value.toInt valid).weather.channels[c]).value
      else s.storeReading c value.toInt valid := by
  obtain ⟨m, hm⟩ := c
  obtain rfl : ch.toNat = m := h
  exact dif_pos hm

/-- Settles O48, by the channel, then the value against its range. -/
theorem readingsFillTheirChannel : Obligations.ReadingsFillTheirChannel := by
  intro s ch value valid c run old range put v taken judged
  have hjudged (hr : s.node = .running) (hc : ch.toNat = c) {w : Int} {n : Counter}
      (hstore : s.storeReading c value.toInt valid = taken w n) : judged w n := by
    have hrun : run = .next (s.takeReading ch value valid) := congrArg _ (State.dispatch_running hr rfl)
    rw [s.takeReading_of_lt hc, hstore] at hrun
    have hvalue : ((taken w n).weather.channels[c]).value = w := by simp [taken, put]
    have hacts : (taken w n).weatherActs = true ↔ s.cfg.services.weather = true := by
      rw [State.weatherActs_iff]; exact and_iff_right hr
    refine ⟨fun h => hrun.trans (congrArg _ (if_neg ?_)), fun hw hv => hrun.trans (congrArg _ ?_)⟩
    · simp only [Bool.and_eq_true, hacts]
      rcases h with h | h <;> simp [h]
    · rw [if_pos (by simp [hacts, hw, hv]), hvalue]
      rfl
  refine ⟨fun hr hc h => ⟨fun hlo hhi => hjudged hr hc (State.storeReading_inside rfl hlo hhi valid),
      fun hlt => hjudged hr hc (State.storeReading_below rfl h hlt valid),
      fun hlt => hjudged hr hc (State.storeReading_above rfl h hlt valid)⟩,
    fun hr hc => ?_, fun hs => congrArg _ (State.dispatch_scanning hs),
    fun hr hs => congrArg _ (State.dispatch_unreceived hs hr),
    fun ht => congrArg _ (if_pos (Option.isSome_iff_ne_none.2 ht)), fun ht => congrArg _ (if_neg (by simp [old] at ht; simp [ht]))⟩
  have hrun : run = .next (s.takeReading ch value valid) := congrArg _ (State.dispatch_running hr rfl)
  exact hrun.trans (congrArg _ (dif_neg (by omega)))

end Sys2Proof.Machine
end

section
/-! SUPPORT. The call table, a roadside entry's attempts and timers, releases and tones (R71 to R83, R86, R97, R98). -/

namespace Sys2Proof.Machine

/-! ### Places of the call table (R71) -/

@[simp] theorem State.setCall_setCall (s : State) (e : Fin 8) (c d : Option CallEntry) :
    (s.setCall e c).setCall e d = s.setCall e d := by
  simp [State.setCall]

/-- A timer of an entry acts where the condition holds. -/
theorem State.onEntry_of {s : State} {e : Fin 8} {c : CallEntry} (hc : s.call e = some c) {cond : CallEntry → Bool}
    (h : cond c = true) (act : CallEntry → State) : s.onEntry e cond act = act c := by
  simp [State.onEntry, hc, h]

theorem State.onEntry_of_not {s : State} {e : Fin 8} {c : CallEntry} (hc : s.call e = some c) {cond : CallEntry → Bool}
    (h : cond c = false) (act : CallEntry → State) : s.onEntry e cond act = s := by
  simp [State.onEntry, hc, h]

/-- A running timer in the state it belongs to. -/
theorem runsIn_iff (t : Timer) (st st' : CallState) : (t.isSome && st == st') = true ↔ t ≠ none ∧ st = st' := by
  simp [Option.isSome_iff_ne_none]

theorem runsIn_eq_false {t : Timer} {st st' : CallState} (h : t = none ∨ st ≠ st') : (t.isSome && st == st') = false := by
  rcases h with h | h <;> simp [h]

/-! ### An attempt (R74, R76) -/

/-- The phone port code of an entry's near end (12.3). -/
def NearEnd.code : NearEnd → Byte
  | .phone .phoneA => 1
  | .phone .phoneB => 2
  | .console => 0

/-- A CREQ of an entry, on its port toward its far node (R74). -/
def State.sentCreq (s : State) (d : CallEntry) (request : Byte) : State :=
  s.offerCall d.far d.port .creq [d.ref.origin, d.ref.num, request, d.near.code, BitVec.ofNat 8 d.attempts]

theorem State.offerCall_some (s : State) (n : Nat) (p : PortId) (k : FrameKind) (payload : List Byte) :
    s.offerCall (some n) (some p) k payload = s.offer p
      { kind := k, hops := 0, hopLimit := 255, origin := s.cfg.number, target := n, payload := payload } := rfl

theorem State.offerCall_none (s : State) {far : Option Nat} {port : Option PortId} (h : far = none ∨ port = none)
    (k : FrameKind) (payload : List Byte) : s.offerCall far port k payload = s := by
  rcases h with rfl | rfl
  · rfl
  · cases far <;> rfl

theorem State.offerCreq_eq (s : State) (d : CallEntry) (q : CallRequest) :
    s.offerCreq d q d.phonePort = s.sentCreq d (BitVec.ofNat 8 q.code) := by
  obtain ⟨_, near, _⟩ := d
  rcases near with ⟨_ | _⟩ | _ <;> rfl

theorem CallEntry.request_code (c : CallEntry) :
    BitVec.ofNat 8 c.request.code = if c.state = .resuming then 2 else 1 := by
  unfold CallEntry.request
  split <;> rfl

/-- An attempt of an entry that has settled on a far node and a port. -/
theorem State.attempt_settled {s : State} {e : Fin 8} {c d : CallEntry} (h : c.settleFar s = d) {us : Nat}
    (hus : (if c.slow || c.busyWait then 5000000 else 1000000) = us) {u : CallEntry}
    (hu : { d with attempts := min 255 (c.attempts + 1), attemptTimer := some ⟨s.refTime, us⟩ } = u) :
    s.attempt e c = (s.setCall e (some u)).sentCreq u (if u.state = .resuming then 2 else 1) := by
  subst h hus hu
  rw [State.attempt]
  refine (State.offerCreq_eq _ _ _).trans ?_
  exact congrArg (State.sentCreq _ _) (CallEntry.request_code _)

theorem CallEntry.settleFar_of_present {s : State} {c : CallEntry} {p : PortId}
    (h : c.far.bind s.terminusPresence = some p) : c.settleFar s = { c with port := some p } := by
  simp [CallEntry.settleFar, h]

theorem CallEntry.settleFar_of_absent {s : State} {c : CallEntry} (h : c.far.bind s.terminusPresence = none) :
    c.settleFar s = { c with far := s.choiceFar.1, port := s.choiceFar.2 } := by
  simp [CallEntry.settleFar, CallEntry.toChoice, h]

/-! ### What settling leaves, and the attempt of R77 -/

section Settle
variable (s : State) (c : CallEntry)

theorem CallEntry.settleFar_ref : (c.settleFar s).ref = c.ref := by unfold CallEntry.settleFar; split <;> rfl

theorem CallEntry.settleFar_near : (c.settleFar s).near = c.near := by unfold CallEntry.settleFar; split <;> rfl

theorem CallEntry.settleFar_state : (c.settleFar s).state = c.state := by unfold CallEntry.settleFar; split <;> rfl

theorem CallEntry.settleFar_busyWait (b : Bool) :
    CallEntry.settleFar { c with busyWait := b } s = { c.settleFar s with busyWait := b } := by
  unfold CallEntry.settleFar
  dsimp only
  split <;> rfl

theorem CallEntry.settleFar_waits (b w : Bool) :
    CallEntry.settleFar { c with busyWait := b, slow := w } s = { c.settleFar s with busyWait := b, slow := w } := by
  unfold CallEntry.settleFar
  dsimp only
  split <;> rfl

end Settle

section Ask
variable {s : State} {c : CallEntry} (e : Fin 8)

theorem State.askAgain_early (h5 : c.attempts ≠ 5) (h10 : c.attempts < 10) :
    s.askAgain e c = s.attempt e c := by
  simp [State.askAgain, h5, Nat.not_le.2 h10]

theorem State.askAgain_alternate {n : Nat} {p : PortId} {h : Nat} (h5 : c.attempts = 5)
    (ha : s.alternateChoice c.far = .terminus n p h) :
    s.askAgain e c = s.attempt e { c with far := some n, port := some p } := by
  simp [State.askAgain, h5, ha]

theorem State.askAgain_no_alternate (h5 : c.attempts = 5) (ha : s.alternateChoice c.far = .none) :
    s.askAgain e c = s.slowAttempt e c := by
  simp [State.askAgain, h5, ha]

theorem State.askAgain_late (h10 : 10 ≤ c.attempts) : s.askAgain e c = s.slowAttempt e c := by
  simp [State.askAgain, h10, show c.attempts ≠ 5 by omega]

end Ask

/-- The alternate terminus is in view on the port that the choice gives (R35, R36). -/
theorem State.presence_of_alternate {s : State} {far : Option Nat} {n : Nat} {p : PortId} {h : Nat}
    (ha : s.alternateChoice far = .terminus n p h) : s.terminusPresence n = some p := by
  obtain ⟨-, -, halternate, hpresence, -⟩ := terminusChoiceIsTheFirstCandidate s
  obtain ⟨hnone, hsome⟩ := halternate far
  by_cases hex : ∃ p, ∃ e ∈ s.reach.part p, e.role = .terminus ∧ far ≠ some e.node
  · obtain ⟨_, _, _, hc, ⟨e, he, ⟨hrole, hfar⟩, hnode, hhops⟩, hbest⟩ := hsome hex
    obtain ⟨rfl, rfl, rfl⟩ : n = _ ∧ p = _ ∧ h = _ := by simpa [ha] using hc
    obtain ⟨p', h', hp', ⟨e', he', ⟨hrole', hnode'⟩, hhops'⟩, hbest'⟩ := (hpresence n).2 ⟨p, e, he, hrole, hnode⟩
    have hle := hbest p' e' he' ⟨hrole', by rw [hnode', ← hnode]; exact hfar⟩
    have hge := hbest' p e he ⟨hrole, hnode⟩
    have heast : p ≠ p' → p = .east ∧ p' = .east := fun hne =>
      ⟨(hle.resolve_left (by omega)).2.2 hne, (hge.resolve_left (by omega)).2 (Ne.symm hne)⟩
    have hpp : p = p' := Classical.byContradiction fun hne => hne ((heast hne).1.trans (heast hne).2.symm)
    rw [hp', hpp]
  · have := hnone fun p e he hg => hex ⟨p, e, he, hg⟩
    simp [ha] at this

/-- An attempt of the slow phase sounds the fault tone (R77). -/
def State.faultTone (s : State) (near : NearEnd) : State :=
  match near with
  | .phone ph => s.earpiece ph (some .fault)
  | .console => s

theorem State.faultTone_cfg (s : State) (near : NearEnd) : (s.faultTone near).cfg = s.cfg := by
  cases near <;> rfl

theorem State.faultTone_refTime (s : State) (near : NearEnd) : (s.faultTone near).refTime = s.refTime := by
  cases near <;> rfl

theorem State.slowAttempt_eq (s : State) (e : Fin 8) (c : CallEntry) :
    s.slowAttempt e c = (s.faultTone c.near).attempt e { c with slow := true } := by
  obtain ⟨_, near, _⟩ := c
  cases near <;> rfl

theorem CallEntry.settleFar_faultTone (s : State) (near : NearEnd) (c : CallEntry) :
    c.settleFar (s.faultTone near) = c.settleFar s := by
  cases near <;> rfl

/-- Settles O25, by the entry's state and its attempt count. -/
theorem attemptsGoOnAtEachExpiry : Obligations.AttemptsGoOnAtEachExpiry := by
  intro s e c hc offered raised settled attempted faultTone
  have hrun (ht : c.attemptTimer ≠ none) (hst : c.state = .asking ∨ c.state = .resuming) {t : State}
      (h : (if c.state = .asking then s.askAgain e { c with busyWait := false }
        else s.attempt e { c with busyWait := false }) = t) : exec (.attemptTimerExpiry e) s = .next t := by
    refine congrArg Host.Outcome.next (Eq.trans (State.onEntry_of hc ?_ _) h)
    simpa [CallEntry.attempting, Option.isSome_iff_ne_none] using ⟨ht, hst⟩
  have hfault : s.faultTone c.near = faultTone := rfl
  have hsettled : settled = c.settleFar s := rfl
  have hsent {t : State} (ht : t.cfg = s.cfg) {d : CallEntry} (hr : d.ref = c.ref) (hn : d.near = c.near)
      (hs : d.state = c.state) : (t.setCall e (some d)).sentCreq d (if d.state = .resuming then 2 else 1) =
        attempted t d := by
    have hcfg : (t.setCall e (some d)).cfg = s.cfg := ht
    rw [State.sentCreq, hr, hn, hs]
    rcases hf : d.far with _ | n
    · rw [State.offerCall_none _ (.inl rfl)]
      simp only [attempted, offered, hf]
    rcases hp : d.port with _ | p
    · rw [State.offerCall_none _ (.inr rfl)]
      simp only [attempted, offered, hf, hp]
    · rw [State.offerCall_some, hcfg]
      simp only [attempted, offered, hf, hp]
      rfl
  refine ⟨fun h => ?_, fun ht hst => hrun ht (by tauto) ?_, fun ht hst hat n p h ha => hrun ht (.inl hst) ?_,
    fun ht hst hat => hrun ht (.inl hst) ?_⟩
  · refine congrArg Host.Outcome.next (State.onEntry_of_not hc ?_ _)
    rcases h with h | ⟨h1, h2⟩ <;> simp [CallEntry.attempting, *]
  · have hu : { c.settleFar s with attempts := min 255 (c.attempts + 1), busyWait := false,
                                   attemptTimer := some ⟨s.refTime, if c.slow then 5000000 else 1000000⟩ } =
        raised settled (if c.slow then 5000000 else 1000000) := rfl
    have hattempt := State.attempt_settled (e := e) (CallEntry.settleFar_busyWait s c false) (by rw [Bool.or_false]) hu
    have hask : (if c.state = .asking then s.askAgain e { c with busyWait := false }
        else s.attempt e { c with busyWait := false }) = s.attempt e { c with busyWait := false } := by
      split
      next ha => exact State.askAgain_early e (by simp [ha] at hst; exact hst.1) (by simp [ha] at hst; exact hst.2)
      next => rfl
    exact (hask.trans hattempt).trans (hsent rfl (c.settleFar_ref s) (c.settleFar_near s) (c.settleFar_state s))
  · have hfar : CallEntry.settleFar { c with busyWait := false, far := some n, port := some p } s =
        { c with busyWait := false, far := some n, port := some p } :=
      CallEntry.settleFar_of_present (c := { c with busyWait := false, far := some n, port := some p })
        (State.presence_of_alternate ha)
    have hattempt := State.attempt_settled (e := e) hfar (us := if c.slow then 5000000 else 1000000)
      (by rw [Bool.or_false]) rfl
    have hask : s.askAgain e { c with busyWait := false } =
        s.attempt e { c with busyWait := false, far := some n, port := some p } :=
      State.askAgain_alternate (c := { c with busyWait := false }) e hat ha
    rw [if_pos hst]
    exact (hask.trans hattempt).trans (hsent rfl rfl rfl rfl)
  · have hask : s.askAgain e { c with busyWait := false } = s.slowAttempt e { c with busyWait := false } := by
      rcases hat with ⟨h5, ha⟩ | h10
      · exact State.askAgain_no_alternate (c := { c with busyWait := false }) e h5 ha
      · exact State.askAgain_late (c := { c with busyWait := false }) e h10
    have hfar : CallEntry.settleFar { c with busyWait := false, slow := true } (s.faultTone c.near) =
        { settled with busyWait := false, slow := true } := by
      rw [CallEntry.settleFar_faultTone]
      exact c.settleFar_waits s false true
    have hattempt := State.attempt_settled (s := s.faultTone c.near) (e := e) hfar (us := 5000000) (by simp)
      (u := raised { settled with slow := true } 5000000) (by simp only [State.faultTone_refTime]; rfl)
    rw [if_pos hst]
    exact (hask.trans ((s.slowAttempt_eq e _).trans hattempt)).trans 
      (hsent (s.faultTone_cfg c.near) (d := raised { settled with slow := true } 5000000) (c.settleFar_ref s) (c.settleFar_near s) (c.settleFar_state s))

end Sys2Proof.Machine
end

section
/-! SUPPORT. The other timers of a roadside entry, releases, voice and cadences (R79, R81 to R83, R86, R93, R97, R98). -/

namespace Sys2Proof.Machine

/-! ### A roadside entry (R79, R81, R82, R86) -/

/-- The terminus that the choice gives is in view on the port it gives (R35, R36). -/
theorem State.presence_of_choice {s : State} {n : Nat} {p : PortId} {h : Nat} (hc : s.terminusChoice = .terminus n p h) :
    s.terminusPresence n = some p := by
  have hall : s.alternateChoice none = s.terminusChoice := by
    unfold State.terminusChoice at hc ⊢
    split at hc
    · cases hc
    next ht =>
      have hfilter : (s.reach.termini.filter fun c => some c.1.node != none) = s.reach.termini :=
        List.filter_eq_self.2 fun _ _ => rfl
      rw [if_neg ht, State.alternateChoice, hfilter]
  exact State.presence_of_alternate (hall.trans hc)

/-- A choice taken anew settles on itself. -/
theorem CallEntry.settleFar_toChoice (c : CallEntry) (s : State) : (c.toChoice s).settleFar s = c.toChoice s := by
  have hchoice : s.choiceFar.1.bind s.terminusPresence = s.choiceFar.2 := by
    unfold State.choiceFar
    split
    next n p h hc => exact State.presence_of_choice hc
    next => rfl
  rcases hp : s.choiceFar.2 with _ | p
  · exact CallEntry.settleFar_of_absent (c := c.toChoice s) (hchoice.trans hp)
  · refine (CallEntry.settleFar_of_present (c := c.toChoice s) (hchoice.trans hp)).trans ?_
    rw [← hp]
    rfl

/-- The entry in RESUMING after the attempt it makes at once (R79, R81). -/
def CallEntry.resumed (c : CallEntry) (s : State) : CallEntry :=
  { c with far := s.choiceFar.1, port := s.choiceFar.2, state := .resuming, resume := true, attempts := 1,
           slow := false, busyWait := false, attemptTimer := some ⟨s.refTime, 1000000⟩, silenceTimer := none,
           keepTimer := none, ringTimer := none, playout := { c.playout with timer := none } }

theorem State.enterResuming_eq (s : State) (e : Fin 8) (c : CallEntry) :
    s.enterResuming e c = ((s.faultTone c.near).setCall e (some (c.resumed s))).sentCreq (c.resumed s) 2 := by
  have hsettle : CallEntry.settleFar
      { c.stopTimers.toChoice s with state := .resuming, resume := true, attempts := 0, slow := false, busyWait := false }
        (s.faultTone c.near) =
      { c.stopTimers.toChoice s with state := .resuming, resume := true, attempts := 0, slow := false, busyWait := false } := by
    rw [CallEntry.settleFar_faultTone]
    exact CallEntry.settleFar_toChoice
      { c.stopTimers with state := .resuming, resume := true, attempts := 0, slow := false, busyWait := false } s
  have hattempt := State.attempt_settled (e := e) hsettle (us := 1000000) rfl (u := c.resumed s)
    (by simp only [State.faultTone_refTime]; rfl)
  refine Eq.trans ?_ hattempt
  obtain ⟨_, near, _⟩ := c
  cases near <;> rfl

theorem State.freePhoneCall_eq (s : State) (e : Fin 8) {c : CallEntry} {ph : PhoneId} (h : c.near = .phone ph) :
    s.freePhoneCall e c = ((s.setCall e none).earpiece ph none).stopRing ph := by
  obtain ⟨_, near, _⟩ := c
  obtain rfl : near = .phone ph := h
  rfl

/-- Settles O26, timer by timer, then the report by the entry's state. -/
theorem timersOfARoadsideEntry : Obligations.TimersOfARoadsideEntry := by
  intro s e c ph hc hnear code creq resumed kept
  have hfault : s.faultTone c.near = s.earpiece ph (some .fault) := by rw [hnear]; rfl
  have hsent {t : State} (ht : t.cfg = s.cfg) {d : CallEntry} (hr : d.ref = c.ref) (hn : d.near = c.near) (x : Byte) :
      t.sentCreq d x = creq d x t := by
    have hcode : d.near.code = code := by rw [hn, hnear]; cases ph <;> rfl
    rw [State.sentCreq, hr, hcode]
    rcases hf : d.far with _ | n
    · rw [State.offerCall_none _ (.inl rfl)]
      simp only [creq, hf]
    rcases hp : d.port with _ | p
    · rw [State.offerCall_none _ (.inr rfl)]
      simp only [creq, hf, hp]
    · rw [State.offerCall_some, ht]
      simp only [creq, hf, hp]
  have hresume : s.enterResuming e c = creq resumed 2 ((s.earpiece ph (some .fault)).setCall e (some resumed)) := by
    rw [State.enterResuming_eq, hfault]
    exact hsent (t := (s.earpiece ph (some .fault)).setCall e (some resumed)) rfl (d := resumed) rfl rfl 2
  refine ⟨fun h => congrArg _ (State.onEntry_of_not hc (runsIn_eq_false h) _),
    fun ht hst => ⟨fun p hp => congrArg _ ((State.onEntry_of hc ((runsIn_iff _ _ _).2 ⟨ht, hst⟩) _).trans ?_),
      fun hp => congrArg _ ((State.onEntry_of hc ((runsIn_iff _ _ _).2 ⟨ht, hst⟩) _).trans ?_)⟩,
    fun h => congrArg _ (State.onEntry_of_not hc (runsIn_eq_false h) _),
    fun ht hst => congrArg _ ((State.onEntry_of hc ((runsIn_iff _ _ _).2 ⟨ht, hst⟩) _).trans ?_),
    fun h => congrArg _ (State.onEntry_of_not hc (runsIn_eq_false h) _),
    fun ht hst => congrArg _ ((State.onEntry_of hc ((runsIn_iff _ _ _).2 ⟨ht, hst⟩) _).trans ?_),
    fun n => rfl, fun n p => rfl, rfl, rfl, fun n hn => ⟨fun hst => ?_, fun hst => ?_, fun h1 h2 h3 => ?_⟩, fun n hn => ?_,
    fun n p hp => ?_⟩
  · simp only [hp]; rfl
  · simp only [hp]; exact hresume
  · exact ((s.setCall e (some kept)).offerCreq_eq kept .ask).trans
      (hsent (t := s.setCall e (some kept)) rfl (d := kept) rfl rfl 1)
  · exact State.freePhoneCall_eq s e hnear
  · have hloss : State.lossForCall n s e = s.setCall e (some (c.toChoice s)) := by
      rcases hst with hst | hst <;> simp [State.lossForCall, hc, hn, hst]
    exact hloss
  · have hloss : State.lossForCall n s e = s.enterResuming e c := by simp [State.lossForCall, hc, hn, hst]
    exact hloss.trans hresume
  · unfold State.lossForCall
    simp only [hc, hn, if_true]
  · simp [State.lossForCall, hc, hn]
  · intro seeking d late slow
    have hsettle : CallEntry.settleFar { c with far := some n, port := some p } s = { c with far := some n, port := some p } :=
      CallEntry.settleFar_of_present (c := { c with far := some n, port := some p }) hp
    have hchoice (hs : seeking) (hf : c.far = none) :
        State.choiceForCall n p s e = s.choiceAttempt e { c with far := some n, port := some p } := by
      rcases hs with hs | hs <;> simp [State.choiceForCall, hc, hs, hf]
    refine ⟨fun hl hf => (hchoice (.inl hl.1) hf).trans ?_, fun hs hl hf => (hchoice hs hf).trans ?_, fun h => ?_⟩
    · have hslow : CallEntry.settleFar { c with far := some n, port := some p, slow := true } (s.faultTone c.near) =
          { c with far := some n, port := some p, slow := true } := by
        rw [CallEntry.settleFar_faultTone]
        exact CallEntry.settleFar_of_present (c := { c with far := some n, port := some p, slow := true }) hp
      have hattempt := State.attempt_settled (e := e) hslow (us := 5000000) rfl (u := slow)
        (by simp only [State.faultTone_refTime]; rfl)
      have hnot : ¬slow.state = .resuming := by rw [show slow.state = .asking from hl.1]; decide
      have hlate : s.choiceAttempt e { c with far := some n, port := some p } =
          s.slowAttempt e { c with far := some n, port := some p } := if_pos hl
      rw [hlate, State.slowAttempt_eq, hattempt, if_neg hnot, hfault]
      exact hsent (t := (s.earpiece ph (some .fault)).setCall e (some slow)) rfl (d := slow) rfl rfl 1
    · have hattempt := State.attempt_settled (e := e) hsettle (us := if c.slow ∨ c.busyWait then 5000000 else 1000000)
        (by simp) (u := d) rfl
      have hearly : s.choiceAttempt e { c with far := some n, port := some p } =
          s.attempt e { c with far := some n, port := some p } := if_neg hl
      rw [hearly, hattempt]
      exact hsent (t := s.setCall e (some d)) rfl (d := d) rfl rfl _
    · unfold State.choiceForCall
      simp only [hc]
      exact if_neg (by tauto)

/-! ### Releases (R83) -/

theorem State.offerRelease_eq (s : State) (r : Release) {p : PortId} (h : r.port = some p) :
    s.offerRelease r = s.offer p
      { kind := .crel, hops := 0, hopLimit := 255, origin := s.cfg.number, target := r.far,
        payload := [r.ref.origin, r.ref.num, BitVec.ofNat 8 r.cause.code] } := by
  rw [State.offerRelease, h]
  rfl

/-- A release whose wait of 100 ms ends goes on to its next CREL, or off the list with its last (R83). -/
theorem State.releaseExpiry_of {s : State} {i : Fin 8} {older newer : List Release} {r : Release}
    (hl : s.calls.releases = older ++ r :: newer) (hi : older.length = i) (ht : r.timer ≠ none) :
    s.releaseExpiry i = { s with calls := { s.calls with releases :=
      if r.left ≤ 1 then older ++ newer
      else older ++ { r with left := r.left - 1, timer := s.startTimer 100000 } :: newer } }.offerRelease r := by
  have hget : (older ++ r :: newer)[(i : Nat)]? = some r := by rw [← hi]; simp
  have herase : (older ++ r :: newer).eraseIdx i = older ++ newer := by
    rw [← hi]; simp [List.eraseIdx_append_of_length_le]
  have hset (x : Release) : (older ++ r :: newer).set i x = older ++ x :: newer := by rw [← hi]; simp
  simp only [State.releaseExpiry, hl, hget, Option.isSome_iff_ne_none.2 ht, if_true, herase, hset]

/-- Settles O28, by the place in the list and the CRELs left. -/
theorem releasesSendThreeCrels : Obligations.ReleasesSendThreeCrels := by
  intro s r p hp code crel withList
  have hcode : BitVec.ofNat 8 r.cause.code = code := by rcases h : r.cause <;> simp [code, h, ReleaseCause.code]
  have hcrel (l : List Release) {x : Release} (href : x.ref = r.ref) (hfar : x.far = r.far) (hport : x.port = r.port)
      (hcause : x.cause = r.cause) : (withList l).offerRelease x = crel (withList l) := by
    rw [State.offerRelease_eq _ x (hport.trans hp), href, hfar, hcause, hcode]
  refine ⟨fun l hl => ?_, fun i older newer hl hi => ⟨fun ht => ?_, fun ht hleft => ?_, fun ht hleft => ?_⟩⟩
  · subst hl
    have hkept : (if s.calls.releases.length < 8 then s.calls.releases else s.calls.releases.tail) =
        if s.calls.releases.length < 8 then s.calls.releases else s.calls.releases.drop 1 := by rw [List.drop_one]
    rw [hkept]
    exact hcrel _ rfl rfl rfl rfl
  · have hget : s.calls.releases[(i : Nat)]? = some r := by rw [hl, ← hi]; simp
    refine congrArg Host.Outcome.next ?_
    simp [State.releaseExpiry, hget, ht]
  · refine congrArg Host.Outcome.next ((State.releaseExpiry_of hl hi ht).trans ?_)
    rw [if_neg (by omega), hleft]
    exact hcrel _ rfl rfl rfl rfl
  · refine congrArg Host.Outcome.next ((State.releaseExpiry_of hl hi ht).trans ?_)
    rw [if_pos (by omega)]
    exact hcrel _ rfl rfl rfl rfl

/-! ### Voice (R93) -/

theorem mem_allCalls : ∀ e : Fin 8, e ∈ allCalls := by decide

/-- The first place that an entry satisfying a condition holds, where it is the only one. -/
theorem State.findCall_of_unique {s : State} {e : Fin 8} {c : CallEntry} {f : CallEntry → Bool} (hc : s.call e = some c)
    (hf : f c = true) (hunique : ∀ k d, s.call k = some d → f d = true → k = e) : s.findCall f = some e := by
  unfold State.findCall
  rcases hfind : allCalls.find? (fun k => (s.call k).any f) with _ | k
  · have hnot := List.find?_eq_none.1 hfind e (mem_allCalls e)
    simp [hc, hf] at hnot
  · rcases hd : s.call k with _ | d
    · simpa [hd] using List.find?_some hfind
    · rw [hunique k d hd (by simpa [hd] using List.find?_some hfind)]

theorem State.findCall_none {s : State} {f : CallEntry → Bool} (h : ∀ k d, s.call k = some d → f d = false) :
    s.findCall f = none := by
  unfold State.findCall
  rw [List.find?_eq_none]
  intro k _
  rcases hd : s.call k with _ | d
  · simp
  · simp [h k d hd]

theorem State.sendVoice_eq (s : State) (e : Fin 8) {c : CallEntry} {n : Nat} {p : PortId} (hn : c.far = some n)
    (hp : c.port = some p) (samples : List Byte) :
    s.sendVoice e c samples = (s.setCall e (some { c with outSeq := c.outSeq + 1 })).offer p
      { kind := .voic, hops := 0, hopLimit := 255, origin := s.cfg.number, target := n,
        payload := [c.ref.origin, c.ref.num] ++ bytesBE 2 c.outSeq.toNat ++ samples } := by
  rw [State.sendVoice, hn, hp]
  rfl

/-- Settles O30, the phone's samples by its entry, the centre's by the entry named, then by node state and role. -/
theorem voiceIsSentInSequence : Obligations.VoiceIsSentInSequence := by
  refine ⟨fun s e c n p samples hr hc hn hp hlen => ?_, fun s r samples => ?_⟩
  · intro sent
    have hsent : s.sendVoice e c samples = sent := s.sendVoice_eq e hn hp samples
    have hphone {ph : PhoneId} {t : State} (hb : s.boundCall ph = some e)
        (h : s.onEntry e (fun c => c.state == .talking) (fun c => s.sendVoice e c samples) = t) :
        exec (.voiceSamplesComplete ph samples) s = .next t := by
      refine congrArg Host.Outcome.next (Eq.trans ?_ h)
      simp only [State.takeSamples, State.isRunning, hr, hb]; rfl
    have hconsole (hrole : s.cfg.role = .terminus) (r : CallRef) {t : State} (h : s.takeConsoleVoice r samples = t) :
        exec (.consoleVoice r samples) s = .next t := by
      have hgood : (samples.length == 40) = true := by simp [hlen]
      refine congrArg Host.Outcome.next (Eq.trans ?_ h)
      rw [hgood]
      exact State.dispatch_running hr ((State.isTerminus_running hr).2 hrole)
    refine ⟨fun ph hb => ⟨fun hst => hphone hb ?_, fun hst => hphone hb ?_⟩, fun ph hb => ?_, fun hrole hst hu => hconsole hrole _ ?_,
      fun r hrole hno => hconsole hrole r ?_⟩
    · exact (State.onEntry_of hc (by simp [hst]) _).trans hsent
    · exact State.onEntry_of_not hc (by simp [hst]) _
    · refine congrArg Host.Outcome.next ?_
      simp [State.takeSamples, hb]
    · have hfind : s.findCall (fun d => d.ref == c.ref && d.state == .connected) = some e :=
        State.findCall_of_unique hc (by simp [hst]) fun k d hk hd => hu k d hk (by simp at hd; exact hd.1)
      simp only [State.takeConsoleVoice, hfind]
      exact (State.onEntry_of hc rfl _).trans hsent
    · have hfind : s.findCall (fun d => d.ref == r && d.state == .connected) = none :=
        State.findCall_none fun k d hk => by
          by_cases hd : d.ref = r
          · simp [hno k d hk hd]
          · simp [hd]
      simp only [State.takeConsoleVoice, hfind]
  · intro run counted
    have hdispatch {ok : Bool} (hok : (samples.length == 40) = ok) {t : State}
        (h : s.dispatch ok s.isTerminus (fun t => t.takeConsoleVoice r samples) id = t) : run = .next t := by
      refine congrArg Host.Outcome.next (Eq.trans ?_ h)
      rw [hok]
    exact ⟨fun hr hrole hlen => hdispatch (by simp [hlen]) (State.dispatch_misdirected hr (by simp [State.isTerminus, hrole])),
      fun hs hlen => hdispatch (by simp [hlen]) (State.dispatch_scanning hs),
      fun hn hlen => hdispatch (by simp [hlen]) (State.dispatch_bad hn.symm),
      fun hr hs => congrArg _ (State.dispatch_unreceived hs hr)⟩

/-! ### Tones and ringing (R97, R98) -/

theorem State.cadenceStep_of {s : State} {ph : PhoneId} {x : Tone} (hx : (s.calls.phone ph).tone = some x)
    (ht : (s.calls.phone ph).toneTimer ≠ none) {n us : Nat}
    (hn : ((s.calls.phone ph).tonePeriod + 1) % x.cadence.length = n) (hus : x.cadence[n]? = some us) :
    s.cadenceStep ph = { s with
      calls := s.calls.setPhone ph
        { s.calls.phone ph with tonePeriod := n, toneTimer := some ⟨s.refTime, us⟩ } } := by
  simp [State.cadenceStep, hx, Option.isSome_iff_ne_none.2 ht, hn, State.cadenceTimer, hus]

/-- Settles O31, by the tone and the period of its cadence, then by the part of the ringing. -/
theorem cadencesStepThroughTheirPeriods : Obligations.CadencesStepThroughTheirPeriods := by
  intro s ph q put stepTo
  refine ⟨fun t ht => ?_, fun t ht => ?_, rfl, rfl, fun h => ?_, fun ht => ?_, fun h => ?_, fun h hr => ?_, fun h hr => ?_⟩
  · exact congrArg (fun u => put u) (if_pos ht)
  · refine congrArg (fun u => put u) ((if_neg ht).trans ?_)
    rcases t with _ | ⟨_ | _ | _ | _⟩ <;> rfl
  · refine congrArg Host.Outcome.next ?_
    unfold State.cadenceStep
    rcases h with h | h
    · simp only [show (s.calls.phone ph).tone = none from h]
    · simp only [show (s.calls.phone ph).toneTimer = none from h]
      split <;> rfl
  · have hstep {x : Tone} (hx : q.tone = some x) {k n us : Nat} (hk : q.tonePeriod = k)
        (hn : (k + 1) % x.cadence.length = n) (hus : x.cadence[n]? = some us) : stepTo n us :=
      congrArg Host.Outcome.next (State.cadenceStep_of hx ht (hk ▸ hn) hus)
    exact ⟨fun hx => ⟨fun hk => hstep hx hk rfl rfl, fun hk => hstep hx hk rfl rfl⟩,
      fun hx => ⟨fun hk => hstep hx hk rfl rfl, fun hk => hstep hx hk rfl rfl, fun hk => hstep hx hk rfl rfl,
        fun hk => hstep hx hk rfl rfl⟩,
      fun hx => ⟨fun hk => hstep hx hk rfl rfl, fun hk => hstep hx hk rfl rfl⟩⟩
  · exact congrArg _ (if_neg (by simp [show (s.calls.phone ph).ringTimer = none from h]))
  · have hring : (s.calls.phone ph).ring = true := hr
    refine congrArg Host.Outcome.next ((if_pos (Option.isSome_iff_ne_none.2 h)).trans ?_)
    rw [hring]
    rfl
  · have hring : (s.calls.phone ph).ring = false := hr
    refine congrArg Host.Outcome.next ((if_pos (Option.isSome_iff_ne_none.2 h)).trans ?_)
    rw [hring]
    rfl

end Sys2Proof.Machine
end

section
/-! SUPPORT. A terminus's call entries, the centre's messages and the playout (R87 to R96). -/

namespace Sys2Proof.Machine

/-! ### A terminus's entries (R87 to R91) -/

theorem CallEntry.holdsChannel_iff (c : CallEntry) : c.holdsChannel = true ↔ c.state = .connected ∨ c.state = .calling := by
  simp [CallEntry.holdsChannel]

/-- An entry freed gives the channel it held to the head of the wait order (R89). -/
theorem State.freeConsoleCall_of_channel (s : State) (e : Fin 8) {c : CallEntry}
    (h : c.state = .connected ∨ c.state = .calling) (m : CabMsg) :
    s.freeConsoleCall e c m = (((s.setCall e none).leaveWait e).callMessage m).promote :=
  if_pos (c.holdsChannel_iff.2 h)

theorem State.freeConsoleCall_of_no_channel (s : State) (e : Fin 8) {c : CallEntry} (h : c.state ≠ .connected)
    (h' : c.state ≠ .calling) (m : CabMsg) :
    s.freeConsoleCall e c m = ((s.setCall e none).leaveWait e).callMessage m :=
  if_neg fun hc => (c.holdsChannel_iff.1 hc).elim h h'

/-- An entry in CONNECTED with its timers started anew (R87, R89, R91). -/
def CallEntry.connected (c : CallEntry) (now : Nat) : CallEntry :=
  { c with state := .connected, attemptTimer := none, silenceTimer := some ⟨now, 10000000⟩, keepTimer := none,
           ringTimer := none, playout := Playout.initial }

theorem State.connect_eq (s : State) (e : Fin 8) (c : CallEntry) :
    s.connect e c = s.setCall e (some (c.connected s.refTime)) := rfl

theorem State.channelFree_iff (s : State) : s.channelFree = true ↔ s.channelsHeld < s.cfg.consoleChannels := by
  simp [State.channelFree]

theorem State.promote_of_none {s : State} (h : s.calls.waitOrder = [] ∨ s.cfg.consoleChannels ≤ s.channelsHeld) :
    s.promote = s := by
  unfold State.promote
  rcases hw : s.calls.waitOrder with _ | ⟨e, rest⟩
  · rfl
  · have hfull : ¬s.channelFree = true := by
      rw [State.channelFree_iff]
      exact Nat.not_lt.2 (h.resolve_left (by simp [hw]))
    exact if_neg hfull

/-- A list's head leaves it alone where it stands there once. -/
theorem filter_ne_head {e : Fin 8} {rest : List (Fin 8)} (h : e ∉ rest) : ((e :: rest).filter fun x => x != e) = rest := by
  rw [List.filter_cons_of_neg (by simp), List.filter_eq_self]
  rintro x hx
  simpa using fun he : x = e => h (he ▸ hx)

/-- The head of the wait order takes a free channel (R89). -/
theorem State.promote_head {s : State} {e : Fin 8} {rest : List (Fin 8)} {c : CallEntry} (hc : s.call e = some c)
    (hw : s.calls.waitOrder = e :: rest) (he : e ∉ rest) (hfree : s.channelsHeld < s.cfg.consoleChannels) :
    s.promote =
      ((({ s with calls := { s.calls with waitOrder := rest } }.setCall e (some (c.connected s.refTime))).offerCall
        c.far c.port .cacc [c.ref.origin, c.ref.num, 1, 0]).callMessage (callIn c)) := by
  have hleft : s.leaveWait e = { s with calls := { s.calls with waitOrder := rest } } := by
    rw [State.leaveWait, hw, filter_ne_head he]
  unfold State.promote
  simp only [hw, s.channelFree_iff.2 hfree, if_true, hleft]
  have hcall : State.call { s with calls := { s.calls with waitOrder := rest } } e = some c := hc
  simp only [hcall]
  rfl

/-- The bytes of a CALL-IN (12.4). -/
theorem callIn_eq {c : CallEntry} {n : Nat} (hn : c.far = some n) :
    callIn c = ⟨0x89, [c.ref.origin, c.ref.num, BitVec.ofNat 8 n, BitVec.ofNat 8 (phoneCode c.callersPort),
      if c.resume then 1 else 0]⟩ := by
  simp [callIn, hn, bytesNode, bytesRef, flagByte]

theorem State.releaseEntry_eq (s : State) {c : CallEntry} {n : Nat} (hn : c.far = some n) (cause : ReleaseCause) :
    s.releaseEntry c cause = s.placeRelease c.ref n c.port cause := by
  simp [State.releaseEntry, hn]

/-- Settles O27, timer by timer, then the wait order. -/
theorem timersOfATerminusEntry : Obligations.TimersOfATerminusEntry := by
  intro s e c n hc hn lost freed rung phone connected
  have hphone : BitVec.ofNat 8 (phoneCode c.callersPort) = phone := by
    rcases h : c.callersPort with _ | ⟨_ | _⟩ <;> simp [phone, h, phoneCode]
  have hlost (cause : LostCause) : callLost c.ref (bytesNode c.far) cause c.conceal = lost cause.code := by
    rw [hn]; rfl
  refine ⟨fun h => congrArg _ (State.onEntry_of_not hc (runsIn_eq_false h) _),
    fun ht hst => congrArg _ ((State.onEntry_of hc ((runsIn_iff _ _ _).2 ⟨ht, hst⟩) _).trans ?_),
    fun h => congrArg _ (State.onEntry_of_not hc (runsIn_eq_false h) _),
    fun ht hst => congrArg _ ((State.onEntry_of hc ((runsIn_iff _ _ _).2 ⟨ht, hst⟩) _).trans ?_),
    fun h => congrArg _ (State.onEntry_of_not hc (runsIn_eq_false h) _),
    fun ht hst => congrArg _ ((State.onEntry_of hc ((runsIn_iff _ _ _).2 ⟨ht, hst⟩) _).trans ?_),
    fun h => congrArg _ (State.onEntry_of_not hc (runsIn_eq_false h) _),
    fun ht hst p hp => congrArg _ ((State.onEntry_of hc ((runsIn_iff _ _ _).2 ⟨ht, hst⟩) _).trans ?_),
    State.promote_of_none, fun rest hw he hfree => ?_⟩
  · rw [s.releaseEntry_eq hn, hlost]
    exact State.freeConsoleCall_of_channel _ e (.inl hst) _
  · rw [hlost]
    exact State.freeConsoleCall_of_no_channel _ e (by simp [hst]) (by simp [hst]) _
  · rw [s.releaseEntry_eq hn, hlost]
    exact State.freeConsoleCall_of_channel _ e (.inr hst) _
  · have hcreq : s.ringAttempt e c = (s.setCall e (some rung)).offerCall rung.far rung.port .creq
        [c.ref.origin, c.ref.num, 3, BitVec.ofNat 8 (phoneCode c.callersPort), BitVec.ofNat 8 rung.attempts] := rfl
    rw [hcreq, hphone, show rung.far = some n from hn, show rung.port = some p from hp]
    rfl
  · intro left answered
    refine (State.promote_head hc hw he hfree).trans ?_
    rw [callIn_eq hn, hphone]
    refine congrArg (fun t : State => t.callMessage _) ?_
    rw [hn]
    rcases hp : c.port with _ | p
    · simp only [answered, hp]; rfl
    · simp only [answered, hp]; rfl

/-! ### A frame's arrival at the playout (R94, R95) -/

theorem seqLater_iff (a b : BitVec 16) : seqLater a b = true ↔ 0 < (a - b).toInt := by simp [seqLater]

/-- The place of a frame among those held: behind the earlier ones, before the first later one (R94, log entry 31). -/
theorem insertVoice_between (v : VoiceFrame) {earlier later : List VoiceFrame}
    (hearlier : ∀ x ∈ earlier, ¬0 < (x.seq - v.seq).toInt) (hlater : ∀ x ∈ later.head?, 0 < (x.seq - v.seq).toInt) :
    insertVoice v (earlier ++ later) = earlier ++ v :: later := by
  induction earlier with
  | nil =>
    rcases later with _ | ⟨x, rest⟩
    · rfl
    · exact if_pos ((seqLater_iff _ _).2 (hlater x (by simp)))
  | cons x rest ih =>
    have hx : ¬seqLater x.seq v.seq = true := by rw [seqLater_iff]; exact hearlier x (by simp)
    have hrest := ih fun y hy => hearlier y (by simp [hy])
    exact (if_neg hx).trans (congrArg (List.cons x) hrest)

section Judge
variable {q : Playout} {v : VoiceFrame}

theorem Playout.late_iff : q.lastPlayed.any (fun l => !seqLater v.seq l) = true ↔
    ∃ l, q.lastPlayed = some l ∧ ¬0 < (v.seq - l).toInt := by
  rcases h : q.lastPlayed with _ | l
  · simp
  · have := seqLater_iff v.seq l
    simp only [Option.any_some, Bool.not_eq_true', Option.some.injEq, exists_eq_left', ← this, Bool.not_eq_true]

theorem Playout.holds_iff : q.frames.any (fun x => x.seq == v.seq) = true ↔ ∃ x ∈ q.frames, x.seq = v.seq := by simp

variable (hlate : ¬∃ l, q.lastPlayed = some l ∧ ¬0 < (v.seq - l).toInt) (hheld : ¬∃ x ∈ q.frames, x.seq = v.seq)

theorem Playout.judge_counted (h : (∃ l, q.lastPlayed = some l ∧ ¬0 < (v.seq - l).toInt) ∨ ∃ x ∈ q.frames, x.seq = v.seq) :
    q.judge v = .late ∨ q.judge v = .duplicate := by
  by_cases hl : ∃ l, q.lastPlayed = some l ∧ ¬0 < (v.seq - l).toInt
  · exact .inl (if_pos (Playout.late_iff.2 hl))
  · exact .inr ((if_neg (mt Playout.late_iff.1 hl)).trans (if_pos (Playout.holds_iff.2 (h.resolve_left hl))))

include hlate hheld

theorem Playout.judge_overflow (h : 8 ≤ q.frames.length) : q.judge v = .overflow :=
  (if_neg (mt Playout.late_iff.1 hlate)).trans ((if_neg (mt Playout.holds_iff.1 hheld)).trans (if_pos h))

theorem Playout.judge_kept (h : q.frames.length < 8) : q.judge v = .kept :=
  (if_neg (mt Playout.late_iff.1 hlate)).trans ((if_neg (mt Playout.holds_iff.1 hheld)).trans (if_neg (Nat.not_le.2 h)))

end Judge

section Play
variable {s : State} {e : Fin 8} {c : CallEntry}

theorem State.startPlayout_not (h : c.playout.started = true ∨ c.playout.frames.length < 3) : s.startPlayout e c = s :=
  if_pos (by simpa using h)

theorem State.startPlayout_first {f : VoiceFrame} {rest : List VoiceFrame} (hs : c.playout.started = false)
    (hf : c.playout.frames = f :: rest) (hlen : 3 ≤ (f :: rest).length) :
    s.startPlayout e c = (s.setCall e (some { c with playout := playedFrame f rest (s.startTimer 5000) })).emitVoice
      { c with playout := playedFrame f rest (s.startTimer 5000) } f.samples := by
  have hnot : ¬(c.playout.started || decide (c.playout.frames.length < 3)) = true := by
    rw [hs, hf]; simp at hlen ⊢; omega
  rw [State.startPlayout, if_neg hnot]
  simp only [hf]

/-! ### The play timer's expiry (R95) -/

theorem CallEntry.playStep_expected {f : VoiceFrame} {rest : List VoiceFrame} {l : BitVec 16}
    (hl : c.playout.lastPlayed = some l) (hf : c.playout.frames = f :: rest) (h : f.seq = l + 1) (timer : Timer) :
    c.playStep timer = ({ c with playout := playedFrame f rest timer }, f.samples) := by
  simp [CallEntry.playStep, hl, hf, h]

theorem CallEntry.playStep_skips {f : VoiceFrame} {rest : List VoiceFrame} {l : BitVec 16}
    (hl : c.playout.lastPlayed = some l) (hf : c.playout.frames = f :: rest) (h : f.seq ≠ l + 1) (hlen : 2 ≤ rest.length)
    (timer : Timer) :
    c.playStep timer = ({ c with playout := playedFrame f rest timer, conceal := bump c.conceal }, f.samples) := by
  have hne : ¬f.seq = l + 1#16 := h
  simp [CallEntry.playStep, hl, hf, hne, hlen]

/-- Without the expected frame, and with at most two held, the last real frame is repeated twice (R95). -/
theorem CallEntry.playStep_repeats {l : BitVec 16} (hl : c.playout.lastPlayed = some l)
    (h : ∀ f ∈ c.playout.frames.head?, f.seq ≠ l + 1) (hlen : c.playout.frames.length < 3) (hr : c.playout.repeats < 2)
    (timer : Timer) :
    c.playStep timer = ({ c with playout := { c.playout with lastPlayed := some (l + 1), repeats := c.playout.repeats + 1,
                                                             timer := timer },
                                 conceal := bump c.conceal }, c.playout.lastReal.getD silenceSamples) := by
  rcases hf : c.playout.frames with _ | ⟨f, rest⟩
  · simp [CallEntry.playStep, hl, hf, hr]
  · have hrest : ¬2 ≤ rest.length := by simp [hf] at hlen; omega
    have hne : ¬f.seq = l + 1#16 := h f (by simp [hf])
    simp [CallEntry.playStep, hl, hf, hr, hrest, hne]

/-- After two repeats silence is played (R95). -/
theorem CallEntry.playStep_silent {l : BitVec 16} (hl : c.playout.lastPlayed = some l)
    (h : ∀ f ∈ c.playout.frames.head?, f.seq ≠ l + 1) (hlen : c.playout.frames.length < 3) (hr : 2 ≤ c.playout.repeats)
    (timer : Timer) :
    c.playStep timer = ({ c with playout := { c.playout with lastPlayed := some (l + 1), timer := timer },
                                 conceal := bump c.conceal }, silenceSamples) := by
  rcases hf : c.playout.frames with _ | ⟨f, rest⟩
  · simp [CallEntry.playStep, hl, hf, Nat.not_lt.2 hr]
  · have hrest : ¬2 ≤ rest.length := by simp [hf] at hlen; omega
    have hne : ¬f.seq = l + 1#16 := h f (by simp [hf])
    simp [CallEntry.playStep, hl, hf, Nat.not_lt.2 hr, hrest, hne]

/-! ### Where the samples go (R96) -/

theorem State.emitVoice_earpiece {ph : PhoneId} (h : c.near = .phone ph) (ht : (s.calls.phone ph).tone = none)
    (samples : List Byte) :
    s.emitVoice c samples = { s with calls := s.calls.setPhone ph { s.calls.phone ph with played := samples } } := by
  simp [State.emitVoice, CallEntry.phonePort, h, ht]

theorem State.emitVoice_under_tone {ph : PhoneId} (h : c.near = .phone ph) (ht : (s.calls.phone ph).tone ≠ none)
    (samples : List Byte) : s.emitVoice c samples = s := by
  simp [State.emitVoice, CallEntry.phonePort, h, ht]

theorem State.emitVoice_console (h : c.near = .console) (hroom : s.equip.outbound.length < 32)
    (hpending : s.calls.pendingMsgs = []) (samples : List Byte) :
    s.emitVoice c samples = { s with
      equip := { s.equip with outbound := s.equip.outbound ++ [⟨0x8E, [c.ref.origin, c.ref.num] ++ samples⟩] } } := by
  simp [State.emitVoice, CallEntry.phonePort, h, State.queueRoom, hroom, hpending, State.placeTail, bytesRef]

theorem State.emitVoice_dropped (h : c.near = .console) (hfull : 32 ≤ s.equip.outbound.length ∨ s.calls.pendingMsgs ≠ [])
    (samples : List Byte) :
    s.emitVoice c samples = { s with calls := { s.calls with consoleDrop := bump s.calls.consoleDrop } } := by
  have hnot : ¬(s.queueRoom && s.calls.pendingMsgs.isEmpty) = true := by
    simp [State.queueRoom]
    intro hlt
    exact hfull.resolve_left (Nat.not_le.2 hlt)
  simp only [State.emitVoice, CallEntry.phonePort, h]
  exact if_neg hnot

end Play

/-- Settles O29, the arrival by the cases of R94, the expiry by those of R95, the samples by their way of R96. -/
theorem playoutMovesOnByOnePosition : Obligations.PlayoutMovesOnByOnePosition := by
  intro s e c lastSeq hc
  refine ⟨fun v => ?_, fun h => ?_, fun ht hst hlast => ?_⟩
  · intro q after late held t
    refine ⟨fun h => ?_, fun hl hh hlen => ?_, fun earlier later hl hh hlen hq hearlier hlater => ?_⟩
    · have hcounted : c.playout.judge v = .late ∨ c.playout.judge v = .duplicate := Playout.judge_counted h
      rcases hcounted with hj | hj <;> simp only [t, State.playoutArrival, hj]
    · have hj : c.playout.judge v = .overflow := Playout.judge_overflow hl hh hlen
      simp only [t, State.playoutArrival, hj]
    · intro frames put
      have hj : c.playout.judge v = .kept := Playout.judge_kept hl hh hlen
      have hins : insertVoice v c.playout.frames = frames :=
        (congrArg (insertVoice v) hq).trans (insertVoice_between v hearlier hlater)
      have harrive : t = (put { c with playout := { q with frames := frames } }).startPlayout e
          { c with playout := { q with frames := frames } } := by
        simp only [t, State.playoutArrival, hj, hins]; rfl
      refine ⟨fun h => harrive.trans (State.startPlayout_not h), fun f rest hs hf h3 => ?_⟩
      refine harrive.trans ((State.startPlayout_first (c := { c with playout := { q with frames := frames } }) hs hf (hf ▸ h3)).trans ?_)
      rw [State.setCall_setCall]
      rfl
  · refine congrArg Host.Outcome.next (State.onEntry_of_not hc ?_ _)
    rcases h with h | ⟨h1, h2⟩ <;> simp [*]
  · intro anew expected silence produced playedOn
    have hproduced {d : CallEntry} (hnear : d.near = c.near) (href : d.ref = c.ref) (samples : List Byte) :
        produced d samples ((s.setCall e (some d)).emitVoice d samples) := by
      refine ⟨fun ph hn htone => State.emitVoice_earpiece (s := s.setCall e (some d)) (hnear.trans hn) htone samples,
        fun ph hn htone => State.emitVoice_under_tone (s := s.setCall e (some d)) (hnear.trans hn) htone samples, fun hn hroom hpending => ?_,
        fun hn hfull => State.emitVoice_dropped (s := s.setCall e (some d)) (hnear.trans hn) hfull samples⟩
      rw [← href]
      exact State.emitVoice_console (s := s.setCall e (some d)) (hnear.trans hn) hroom hpending samples
    have hstep {d : CallEntry} {samples : List Byte} (h : c.playStep anew = (d, samples)) (hnear : d.near = c.near)
        (href : d.ref = c.ref) : produced d samples
          ((s.setCall e (some (c.playStep anew).1)).emitVoice (c.playStep anew).1 (c.playStep anew).2) := by
      rw [h]
      exact hproduced hnear href samples
    refine ⟨_, congrArg Host.Outcome.next (State.onEntry_of hc ?_ _), fun f rest hf hs => ?_, fun f rest hf hs hlen => ?_,
      fun hs hlen hr => ?_, fun hs hlen hr => ?_⟩
    · rcases hst with hst | hst <;> simp [Option.isSome_iff_ne_none.2 ht, hst]
    · exact hstep (CallEntry.playStep_expected hlast hf hs anew) rfl rfl
    · exact hstep (CallEntry.playStep_skips hlast hf hs hlen anew) rfl rfl
    · exact hstep (CallEntry.playStep_repeats hlast hs hlen hr anew) rfl rfl
    · exact hstep (CallEntry.playStep_silent hlast hs hlen hr anew) rfl rfl

/-! ### The centre's messages (R90, R92, R192) -/

theorem State.queueRoom_iff (s : State) : s.queueRoom = true ↔ s.equip.outbound.length < 32 := by simp [State.queueRoom]

section Message
variable {s : State} (m : CabMsg)

theorem State.callMessage_placed (hp : s.calls.pendingMsgs = []) (hq : s.equip.outbound.length < 32) :
    s.callMessage m = { s with equip := { s.equip with outbound := s.equip.outbound ++ [m] } } :=
  if_pos ⟨hp, s.queueRoom_iff.2 hq⟩

theorem State.callMessage_pending (h : s.calls.pendingMsgs ≠ [] ∨ 32 ≤ s.equip.outbound.length)
    (hp : s.calls.pendingMsgs.length < 16) :
    s.callMessage m = { s with calls := { s.calls with pendingMsgs := s.calls.pendingMsgs ++ [m] } } := by
  have hnot : ¬(s.calls.pendingMsgs = [] ∧ s.queueRoom = true) := by
    rw [State.queueRoom_iff]
    rintro ⟨hnil, hlt⟩
    exact h.elim (fun hne => hne hnil) (Nat.not_le.2 hlt)
  exact (if_neg hnot).trans (if_pos hp)

theorem State.callMessage_dropped (hp : 16 ≤ s.calls.pendingMsgs.length) :
    s.callMessage m = { s with calls := { s.calls with signallingDrop := bump s.calls.signallingDrop } } := by
  have hnot : ¬(s.calls.pendingMsgs = [] ∧ s.queueRoom = true) := by
    rintro ⟨hnil, -⟩
    simp [hnil] at hp
  exact (if_neg hnot).trans (if_neg (Nat.not_lt.2 hp))

end Message

theorem State.callMessage_cfg (s : State) (m : CabMsg) : (s.callMessage m).cfg = s.cfg :=
  s.callMessage_item m (part := .cfg) (by decide)

theorem State.callMessage_refTime (s : State) (m : CabMsg) : (s.callMessage m).refTime = s.refTime :=
  s.callMessage_item m (part := .refTime) (by decide)

/-- A phone port byte of a RING-OUT names a port where it is 1 or 2. -/
theorem phoneOf_isSome_iff (b : Byte) : (phoneOf b.toNat).isSome = true ↔ b = 1 ∨ b = 2 := by
  have h1 : b = 1 ↔ b.toNat = 1 := BitVec.toNat_eq
  have h2 : b = 2 ↔ b.toNat = 2 := BitVec.toNat_eq
  rw [phoneOf_eq, h1, h2]
  split
  · simp [*]
  · split <;> simp [*]

/-- A ring-out that is not refused (R90). -/
theorem State.takeRingOut_free {s : State} (hphone : s.cfg.services.phone = true)
    (hch : s.channelsHeld < s.cfg.consoleChannels) {e : Fin 8} (hplace : s.freeCallPlace = some e) {node phone : Byte}
    {p : PortId} (hport : s.nodePort node.toNat = some p) :
    s.takeRingOut node phone = (s.takeRef.2.callMessage ⟨0x8A, bytesRef s.takeRef.1 ++ [0, 0]⟩).ringAttempt e
      { CallEntry.fresh s.takeRef.1 .console (some node.toNat) (some p) .calling with
        callersPort := phoneOf phone.toNat, ringTimer := s.startTimer 60000000 } := by
  simp only [State.takeRingOut, hphone, s.channelFree_iff.2 hch, hplace, hport]
  rfl

/-- One CREQ RING of an entry with a far node and a port (R90). -/
theorem State.ringAttempt_eq (s : State) (e : Fin 8) {c : CallEntry} {n : Nat} {p : PortId} (hn : c.far = some n)
    (hp : c.port = some p) :
    s.ringAttempt e c =
      (s.setCall e (some { c with attempts := min 255 (c.attempts + 1), attemptTimer := some ⟨s.refTime, 1000000⟩ })).offer p
        { kind := .creq, hops := 0, hopLimit := 255, origin := s.cfg.number, target := n,
          payload := [c.ref.origin, c.ref.num, 3, BitVec.ofNat 8 (phoneCode c.callersPort),
            BitVec.ofNat 8 (min 255 (c.attempts + 1))] } := by
  simp only [State.ringAttempt, State.offerCreq, hn, hp]
  rfl

/-- Settles O32, the RING-OUT by what refuses it, the HANGUP by its entry, a message by its way. -/
theorem theCentreRingsAndHangsUp : Obligations.TheCentreRingsAndHangsUp := by
  intro s node phone ref busy full
  have hring (hr : s.node = .running) (hrole : s.cfg.role = .terminus) (hph : phone = 1 ∨ phone = 2) {t : State}
      (h : s.takeRingOut node phone = t) : exec (.ringOut node phone) s = .next t := by
    refine congrArg Host.Outcome.next (Eq.trans ?_ h)
    rw [(phoneOf_isSome_iff phone).2 hph]
    exact State.dispatch_running hr ((State.isTerminus_running hr).2 hrole)
  have hhang (hr : s.node = .running) (hrole : s.cfg.role = .terminus) {t : State} (h : s.takeHangup ref = t) :
      exec (.hangup ref) s = .next t :=
    congrArg Host.Outcome.next ((State.dispatch_running hr ((State.isTerminus_running hr).2 hrole)).trans h)
  have hfree : ¬(s.cfg.services.phone = false ∨ s.channelFree = false) ↔
      s.cfg.services.phone = true ∧ s.channelsHeld < s.cfg.consoleChannels := by
    rw [← State.channelFree_iff]; simp
  refine ⟨fun hr hrole hph => ⟨fun h => hring hr hrole hph ?_, fun hphone hch hplace hport => hring hr hrole hph ?_,
      fun e p hphone hch hplace hport => ?_⟩, ?_, fun hr hrole href => hhang hr hrole ?_,
    fun e c n hr hrole href hc hn => ?_, fun m => ⟨fun hp hq => State.callMessage_placed m hp hq,
      fun h hp => State.callMessage_pending m h hp, fun hp => State.callMessage_dropped m hp⟩, fun h => ?_,
    fun m rest hm hq => ?_⟩
  · have hbusy : callBusy ⟨0, 0⟩ node phone = ⟨0x8D, [0, 0, node, phone]⟩ := rfl
    unfold State.takeRingOut
    rw [hbusy]
    by_cases hcond : s.cfg.services.phone = false ∨ s.channelFree = false
    · exact if_pos hcond
    · refine (if_neg hcond).trans ?_
      obtain ⟨hphone, hch⟩ := hfree.1 hcond
      have hfull : s.freeCallPlace = none := by
        rcases h with h | h | h
        · simp [hphone] at h
        · exact absurd hch (Nat.not_lt.2 h)
        · exact h
      simp only [hfull]
      rfl
  · obtain ⟨e, he⟩ := Option.ne_none_iff_exists'.1 hplace
    unfold State.takeRingOut
    refine (if_neg (hfree.2 ⟨hphone, hch⟩)).trans ?_
    simp only [he, hport]
    rfl
  · intro r c t
    refine hring hr hrole hph ((State.takeRingOut_free hphone hch hplace hport).trans ?_)
    have hcfg : t.cfg = s.cfg := State.callMessage_cfg _ _
    have hnow : t.refTime = s.refTime := State.callMessage_refTime _ _
    have hattempt := t.ringAttempt_eq e (c := { CallEntry.fresh s.takeRef.1 .console (some node.toNat) (some p) .calling with
      callersPort := phoneOf phone.toNat, ringTimer := s.startTimer 60000000 }) rfl rfl
    rw [hnow, hcfg] at hattempt
    refine hattempt.trans ?_
    rcases hph with rfl | rfl <;> rfl
  · intro good ring hang misdirected notReady
    have hok {ok : Bool} (h : (phoneOf phone.toNat).isSome = ok) {t : State}
        (ht : s.dispatch ok s.isTerminus (fun t => t.takeRingOut node phone) id = t) : ring = .next t := by
      refine congrArg Host.Outcome.next (Eq.trans ?_ ht)
      rw [h]
    have hgood : good → (phoneOf phone.toNat).isSome = true := (phoneOf_isSome_iff phone).2
    refine ⟨fun hn hbad => hok ?_ (State.dispatch_bad hn.symm), fun hr hrole => ?_, fun hs => ?_, fun hr hs => ?_⟩
    · simpa using mt (phoneOf_isSome_iff phone).1 hbad
    · have hnot : s.isTerminus = false := by simp [State.isTerminus, hrole]
      exact ⟨fun hg => hok (hgood hg) (State.dispatch_misdirected hr hnot),
        congrArg Host.Outcome.next (State.dispatch_misdirected hr hnot)⟩
    · exact ⟨fun hg => hok (hgood hg) (State.dispatch_scanning hs), congrArg Host.Outcome.next (State.dispatch_scanning hs)⟩
    · exact ⟨congrArg Host.Outcome.next (State.dispatch_unreceived hs hr),
        congrArg Host.Outcome.next (State.dispatch_unreceived hs hr)⟩
  · simp [State.takeHangup, href]
  · intro freed
    have htake : s.takeHangup ref = (s.placeRelease c.ref n c.port .hangup).freeConsoleCall e c
        ⟨0x8C, [c.ref.origin, c.ref.num, 2] ++ bytesBE 2 c.conceal.toNat⟩ := by
      simp only [State.takeHangup, href, hc, s.releaseEntry_eq hn]
      rfl
    refine ⟨fun hst => hhang hr hrole (htake.trans (State.freeConsoleCall_of_channel _ e hst _)),
      fun hst => hhang hr hrole (htake.trans (State.freeConsoleCall_of_no_channel _ e (by simp [hst]) (by simp [hst]) _))⟩
  · refine congrArg Host.Outcome.next ?_
    unfold State.drainPending
    split
    next m rest hm =>
      refine if_neg (mt s.queueRoom_iff.1 (Nat.not_lt.2 (h.resolve_left (by simp [hm]))))
    next => rfl
  · refine congrArg Host.Outcome.next ?_
    simp only [State.drainPending, hm]
    exact if_pos (s.queueRoom_iff.2 hq)

end Sys2Proof.Machine
end

section
/-! SUPPORT. Call frames delivered to Call Control (R72, R78, R84, R85, R87, R91, R94). -/

namespace Sys2Proof.Machine

/-! ### What a message for the centre leaves of the call table -/

theorem State.callMessage_table (s : State) (m : CabMsg) : (s.callMessage m).calls.table = s.calls.table := by
  unfold State.callMessage
  (repeat' split) <;> rfl

theorem State.callMessage_waitOrder (s : State) (m : CabMsg) : (s.callMessage m).calls.waitOrder = s.calls.waitOrder := by
  unfold State.callMessage
  (repeat' split) <;> rfl

theorem State.call_of_table {s t : State} (h : t.calls.table = s.calls.table) (e : Fin 8) : t.call e = s.call e := by
  rw [State.call, h, State.call]

/-- A promotion leaves an entry that does not wait (R89). -/
theorem State.promote_call {s : State} {e : Fin 8} (h : e ∉ s.calls.waitOrder) : s.promote.call e = s.call e := by
  unfold State.promote
  split
  next => rfl
  next k rest hw =>
    have hne : e ≠ k := by rintro rfl; exact h (by simp [hw])
    split
    · split
      next c hc =>
        refine (State.call_of_table (State.callMessage_table _ _) e).trans ?_
        have hsent : (((s.leaveWait k).connect k c).sendAnswer c .accept 0).calls = ((s.leaveWait k).connect k c).calls :=
          State.sendAnswer_item _ c .accept 0 (part := .calls) (by decide)
        refine (State.call_of_table (s := (s.leaveWait k).connect k c) (by rw [hsent]) e).trans ?_
        exact State.call_setCall_ne (s.leaveWait k) _ hne
      next => rfl
    · rfl

/-! ### A roadside entry's answers (R78) -/

section Roadside
variable (s : State) (e : Fin 8) {c : CallEntry} {ph : PhoneId} (h : c.near = .phone ph)
include h

theorem State.entryTone_phone (t : Option Tone) : s.entryTone c t = s.earpiece ph t := by
  simp [State.entryTone, CallEntry.phonePort, h]

theorem State.enterTalking_eq : s.enterTalking e c =
    (s.setCall e (some { c.stopTimers with
      state := .talking, resume := false, slow := false, busyWait := false, silenceTimer := s.startTimer 1000000,
      playout := Playout.initial })).earpiece ph none :=
  State.entryTone_phone _ h none

theorem State.enterWaiting_eq (position : Nat) : s.enterWaiting e c position =
    (s.setCall e (some { c.stopTimers with
      state := .waiting, resume := false, slow := false, busyWait := false, keepTimer := s.startTimer 5000000,
      position := position })).earpiece ph (some .waiting) :=
  State.entryTone_phone _ h _

theorem State.backToAsking_eq : s.backToAsking e c =
    (s.setCall e (some { c.stopTimers with
      state := .asking, attempts := 0, slow := false, busyWait := true,
      attemptTimer := s.startTimer 5000000 })).earpiece ph (some .asking) :=
  State.entryTone_phone _ h _

theorem State.enterCleared_eq : s.enterCleared e c =
    (s.setCall e (some { c.stopTimers with
      state := .cleared, slow := false, busyWait := false })).earpiece ph (some .clear) :=
  State.entryTone_phone _ h _

end Roadside

/-! ### The entry that a frame matches (R72) -/

section Matched
variable {s : State} {p : PortId} {origin : Nat} {e : Fin 8} {c : CallEntry} (hc : s.call e = some c)
include hc

theorem State.takeCacc_roadside {a : Cacc} (hm : s.callMatch a.ref origin = some e) (hr : s.isTerminus = false) :
    s.takeCacc p origin a = (s.setCall e (some { c with port := some p })).roadsideAnswer e { c with port := some p } a := by
  simp only [State.takeCacc, hm, hc, hr]
  rfl

theorem State.takeCacc_terminus {a : Cacc} (hm : s.callMatch a.ref origin = some e) (hr : s.isTerminus = true) :
    s.takeCacc p origin a = (s.setCall e (some { c with port := some p })).terminusAnswer e { c with port := some p } a := by
  simp only [State.takeCacc, hm, hc, hr, if_true]

theorem State.takeCrel_roadside {r : CallRef} (cause : ReleaseCause) (hm : s.callMatch r origin = some e)
    (hr : s.isTerminus = false) :
    (c.state = .ringing → s.takeCrel p origin r cause =
      (s.setCall e (some { c with port := some p })).freePhoneCall e { c with port := some p }) ∧
    (c.state = .cleared → s.takeCrel p origin r cause = s.setCall e (some { c with port := some p })) ∧
    (c.state ≠ .ringing → c.state ≠ .cleared → s.takeCrel p origin r cause =
      (s.setCall e (some { c with port := some p })).enterCleared e { c with port := some p }) := by
  refine ⟨fun hst => ?_, fun hst => ?_, fun h1 h2 => ?_⟩
  · simp [State.takeCrel, hm, hc, hr, hst]
  · simp [State.takeCrel, hm, hc, hr, hst]
  · simp only [State.takeCrel, hm, hc, hr]
    rcases hst : c.state <;> simp_all

theorem State.takeCrel_terminus {r : CallRef} (cause : ReleaseCause) (hm : s.callMatch r origin = some e)
    (hr : s.isTerminus = true) : s.takeCrel p origin r cause =
      (s.setCall e (some { c with port := some p })).freeConsoleCall e { c with port := some p }
        (callEnd { c with port := some p } cause) := by
  simp [State.takeCrel, hm, hc, hr]

section Voice
variable {r : CallRef} (hm : s.callMatch r origin = some e) (v : VoiceFrame)
include hm

theorem State.takeVoic_talking (hst : c.state = .talking) : s.takeVoic p origin r v =
    (s.setCall e (some { c with port := some p, silenceTimer := some ⟨s.refTime, 1000000⟩ })).playoutArrival e
      { c with port := some p, silenceTimer := some ⟨s.refTime, 1000000⟩ } v := by
  unfold State.takeVoic
  simp only [hm, hc]
  rw [hst]
  rfl

theorem State.takeVoic_connected (hst : c.state = .connected) : s.takeVoic p origin r v =
    (s.setCall e (some { c with port := some p, silenceTimer := some ⟨s.refTime, 10000000⟩ })).playoutArrival e
      { c with port := some p, silenceTimer := some ⟨s.refTime, 10000000⟩ } v := by
  unfold State.takeVoic
  simp only [hm, hc]
  rw [hst]
  rfl

/-- A frame for a ring-out answers it, and reaches the playout of the entry that is then CONNECTED (R91, R94). -/
theorem State.takeVoic_calling (hst : c.state = .calling) (hw : e ∉ s.calls.waitOrder) : s.takeVoic p origin r v =
    (((s.setCall e (some (CallEntry.connected { c with port := some p } s.refTime))).callMessage
      (callIn { c with port := some p })).promote).playoutArrival e
        (CallEntry.connected { c with port := some p } s.refTime) v := by
  have hanswered : s.callingAnswered e { c with port := some p } =
      ((s.setCall e (some (CallEntry.connected { c with port := some p } s.refTime))).callMessage
        (callIn { c with port := some p })).promote := rfl
  have hcall : (s.callingAnswered e { c with port := some p }).call e =
      some (CallEntry.connected { c with port := some p } s.refTime) := by
    rw [hanswered, State.promote_call (by rw [State.callMessage_waitOrder]; exact hw)]
    exact (State.call_of_table (State.callMessage_table _ _) e).trans (State.call_setCall _ _ _)
  rw [← hanswered]
  unfold State.takeVoic
  simp only [hm, hc]
  generalize { c with port := some p } = d at hcall ⊢
  rw [hst]
  simp only [hcall]

theorem State.takeVoic_other (h1 : c.state ≠ .talking) (h2 : c.state ≠ .connected) (h3 : c.state ≠ .calling) :
    s.takeVoic p origin r v = s.setCall e (some { c with port := some p }) := by
  unfold State.takeVoic
  simp only [hm, hc]

end Voice

end Matched

/-! ### A CREQ (R71 to R73, R85, R87) -/

theorem State.sendAnswer_eq (s : State) (c : CallEntry) (a : CallAnswer) (position : Nat) :
    s.sendAnswer c a position =
      s.offerCall c.far c.port .cacc [c.ref.origin, c.ref.num, BitVec.ofNat 8 a.code, BitVec.ofNat 8 position] := rfl

section Request
variable {s : State} (p : PortId) {origin : Nat} {q : Creq}

theorem State.takeCreq_unnamed (h : ¬(q.request = .ask → q.ref.origin.toNat = origin)) : s.takeCreq p origin q = s :=
  if_pos (by tauto)

variable (hn : q.request = .ask → q.ref.origin.toNat = origin)
include hn

theorem State.takeCreq_terminus_busy (hr : s.isTerminus = true) (h : s.cfg.services.phone = false ∨ q.request = .ring) :
    s.takeCreq p origin q = s.busyCreq p origin q :=
  (if_neg (by tauto)).trans ((if_pos hr).trans (if_pos h))

section Terminus
variable (hr : s.isTerminus = true) (hphone : s.cfg.services.phone = true) (hask : q.request = .ask ∨ q.request = .resume)
include hr hphone hask

theorem State.takeCreq_repeat {e : Fin 8} {c : CallEntry} (href : s.callByRef q.ref = some e) (hc : s.call e = some c) :
    s.takeCreq p origin q = s.repeatRequest p e c q := by
  have hnot : ¬(s.cfg.services.phone = false ∨ q.request = .ring) := by
    rcases hask with h | h <;> simp [hphone, h]
  refine (if_neg (by tauto)).trans ((if_pos hr).trans ((if_neg hnot).trans ?_))
  simp only [href, hc]

theorem State.takeCreq_new (href : s.callByRef q.ref = none) : s.takeCreq p origin q = s.newRequest p origin q := by
  have hnot : ¬(s.cfg.services.phone = false ∨ q.request = .ring) := by
    rcases hask with h | h <;> simp [hphone, h]
  refine (if_neg (by tauto)).trans ((if_pos hr).trans ((if_neg hnot).trans ?_))
  simp only [href]

end Terminus

section Roadside
variable (hr : s.isTerminus = false)
include hr

theorem State.takeCreq_roadside_asks (hask : q.request = .ask ∨ q.request = .resume) : s.takeCreq p origin q = s := by
  have hring : q.request ≠ .ring := by rcases hask with h | h <;> simp [h]
  exact (if_neg (by tauto)).trans ((if_neg (by simp [hr])).trans (if_neg hring))

variable (hring : q.request = .ring)
include hring

theorem State.takeCreq_roadside_busy (hphone : s.cfg.services.phone = false) :
    s.takeCreq p origin q = s.busyCreq p origin q :=
  (if_neg (by tauto)).trans ((if_neg (by simp [hr])).trans ((if_pos hring).trans (if_neg (by simp [hphone]))))

theorem State.takeCreq_rings (hphone : s.cfg.services.phone = true) : s.takeCreq p origin q = s.ringRequest p origin q :=
  (if_neg (by tauto)).trans ((if_neg (by simp [hr])).trans ((if_pos hring).trans (if_pos hphone)))

end Roadside

end Request

theorem takeWhile_ne_append {e : Fin 8} {l : List (Fin 8)} (h : e ∉ l) : ((l ++ [e]).takeWhile fun x => x != e) = l := by
  rw [List.takeWhile_append_of_pos fun x hx => by simpa using fun he : x = e => h (he ▸ hx)]
  simp

section NewRequest
variable {s : State} (p : PortId) (origin : Nat) {q : Creq}

theorem State.newRequest_full (h : s.freeCallPlace = none) : s.newRequest p origin q =
    (s.sendBusy q.ref origin p).callMessage (callBusy q.ref (bytesNode (some origin)) 0) := by
  unfold State.newRequest
  simp only [h]

/-- The entry of a new request (R87). -/
def Creq.entry (q : Creq) (p : PortId) (origin : Nat) : CallEntry :=
  { CallEntry.fresh q.ref .console (some origin) (some p) .queued with
    callersPort := q.phone, attempts := q.attempts, resume := q.request == .resume }

variable {e : Fin 8} (h : s.freeCallPlace = some e)
include h

theorem State.newRequest_connects (hfree : s.channelFree = true) : s.newRequest p origin q =
    ((s.connect e (q.entry p origin)).sendAnswer (q.entry p origin) .accept 0).callMessage (callIn (q.entry p origin)) := by
  unfold State.newRequest
  simp only [h]
  exact if_pos hfree

/-- A request for which no channel is free waits, a RESUME at the head (R87, R88). -/
theorem State.newRequest_queues (hfree : ¬s.channelFree = true) {order : List (Fin 8)}
    (horder : (if q.request = .resume then e :: s.calls.waitOrder else s.calls.waitOrder ++ [e]) = order)
    {position : Nat} (hpos : (order.takeWhile fun x => x != e).length + 1 = position) : s.newRequest p origin q =
    (({ s.setCall e (some { q.entry p origin with keepTimer := some ⟨s.refTime, 15000000⟩ }) with
        calls := { (s.setCall e (some { q.entry p origin with keepTimer := some ⟨s.refTime, 15000000⟩ })).calls with
          waitOrder := order } }).sendAnswer (q.entry p origin) .queued position).callMessage
            (callWait (q.entry p origin) position) := by
  have horder : (if (q.request == .resume) = true then e :: s.calls.waitOrder else s.calls.waitOrder ++ [e]) = order := by
    simpa using horder
  subst hpos
  unfold State.newRequest
  simp only [h]
  refine (if_neg hfree).trans ?_
  rw [horder]
  rfl

end NewRequest

section Repeat
variable {s : State} {p : PortId} {e : Fin 8} {c : CallEntry} {q : Creq}

theorem State.repeatRequest_connected (hst : c.state = .connected) : s.repeatRequest p e c q =
    (s.setCall e (some { c with port := some p, attempts := q.attempts })).sendAnswer
      { c with port := some p, attempts := q.attempts } .accept 0 := by
  unfold State.repeatRequest
  rw [hst]
  rfl

theorem State.repeatRequest_queued (hst : c.state = .queued) : s.repeatRequest p e c q =
    (s.setCall e (some { c with
      port := some p, attempts := q.attempts, keepTimer := some ⟨s.refTime, 15000000⟩ })).sendAnswer
        { c with port := some p, attempts := q.attempts, keepTimer := some ⟨s.refTime, 15000000⟩ } .queued
          (s.waitPosition e) := by
  unfold State.repeatRequest
  rw [hst]
  rfl

theorem State.repeatRequest_other (h1 : c.state ≠ .connected) (h2 : c.state ≠ .queued) : s.repeatRequest p e c q =
    s.setCall e (some { c with port := some p, attempts := q.attempts }) := by
  unfold State.repeatRequest
  simp only [if_neg h2]

end Repeat

section RepeatRing
variable {s : State} {p : PortId} {e : Fin 8} {c : CallEntry}

theorem State.repeatRing_ringing (hst : c.state = .ringing) : s.repeatRing p e c =
    (s.setCall e (some { c with port := some p })).sendAnswer { c with port := some p } .ringing 0 := by
  unfold State.repeatRing
  rw [hst]

theorem State.repeatRing_cleared (hst : c.state = .cleared) : s.repeatRing p e c =
    s.setCall e (some { c with port := some p }) := by
  unfold State.repeatRing
  rw [hst]

theorem State.repeatRing_other (h1 : c.state ≠ .ringing) (h2 : c.state ≠ .cleared) : s.repeatRing p e c =
    (s.setCall e (some { c with port := some p })).sendAnswer { c with port := some p } .accept 0 := by
  unfold State.repeatRing
  simp only

end RepeatRing

/-- A port rings where it is idle and its watched hook line returned (R85). -/
theorem State.ringable_iff (s : State) (ph : PhoneId) : s.ringable ph = true ↔ s.boundCall ph = none ∧
    s.watched (hookOf ph) = true ∧ (s.inputs.line (hookOf ph)).filtered = s.cfg.resting.getLsbD (lineBit (hookOf ph)) := by
  simp only [State.ringable, State.watchDeparted, State.departed, Bool.and_eq_true, Option.isNone_iff_eq_none, and_assoc]
  refine and_congr_right fun _ => and_congr_right fun hw => ?_
  simp [hw]

theorem State.busyCreq_unknown {s : State} {q : Creq} (h : s.callByRef q.ref = none) (p : PortId) (origin : Nat) :
    s.busyCreq p origin q = s.sendBusy q.ref origin p := by
  rw [State.busyCreq, h]
  rfl

theorem State.busyCreq_known {s : State} {q : Creq} {e : Fin 8} {c : CallEntry} (h : s.callByRef q.ref = some e)
    (hc : s.call e = some c) (p : PortId) (origin : Nat) :
    s.busyCreq p origin q = (s.setCall e (some { c with port := some p })).sendBusy q.ref origin p := by
  rw [State.busyCreq, h]
  simp only [State.matchedPort, hc]

theorem State.roadsideAnswer_ignored (s : State) (e : Fin 8) {c : CallEntry} {a : Cacc}
    (h : a.answer = .ringing ∨ (¬(c.state = .asking ∨ c.state = .resuming) ∧ c.state ≠ .waiting)) :
    s.roadsideAnswer e c a = s := by
  rcases h with h | ⟨h1, h2⟩
  · simp [State.roadsideAnswer, h]
  · obtain ⟨h3, h4⟩ := not_or.1 h1
    simp [State.roadsideAnswer, h2, h3, h4]

theorem State.terminusAnswer_ignored (s : State) (e : Fin 8) {c : CallEntry} {a : Cacc}
    (h : c.state ≠ .calling ∨ a.answer = .queued) : s.terminusAnswer e c a = s := by
  rcases h with h | h <;> simp [State.terminusAnswer, h]

/-- Settles O33, frame by frame, by the role and then the entry's state. -/
theorem answersMoveARoadsideEntry : Obligations.AnswersMoveARoadsideEntry := by
  intro s p origin put cacc sent moved still connected phoneByte callIn' gone rungOff
  have hin (c : CallEntry) : callIn c = callIn' c := by
    have hphone : BitVec.ofNat 8 (phoneCode c.callersPort) = phoneByte c := by
      rcases h : c.callersPort with _ | ⟨_ | _⟩ <;> simp [phoneByte, h, phoneCode]
    simp only [callIn, hphone]
    rfl
  refine ⟨fun e c ph a hr hm hc hnear => ?_, fun a hm => ?_, fun e c a hr hm hc => ?_, fun q => ?_, fun r cause => ?_,
    fun r v => ?_⟩
  · intro talking waiting asking t seeking
    have ht := State.takeCacc_roadside (p := p) hc hm hr
    refine ⟨fun ha hst => ht.trans ?_, fun ha hst => ht.trans ?_, fun ha hst => ht.trans ?_, fun ha hst => ht.trans ?_,
      fun ha hst => ht.trans ?_, fun h => ht.trans ?_⟩
    · have hroad : (s.setCall e (some (moved c))).roadsideAnswer e (moved c) a =
          (s.setCall e (some (moved c))).enterTalking e (moved c) := by
        rcases hst with (hst | hst) | hst <;> simp [State.roadsideAnswer, moved, hst, ha]
      refine hroad.trans ((State.enterTalking_eq _ e (c := moved c) hnear).trans ?_)
      rw [State.setCall_setCall]
      rfl
    · have hroad : (s.setCall e (some (moved c))).roadsideAnswer e (moved c) a =
          (s.setCall e (some (moved c))).enterWaiting e (moved c) a.position := by
        rcases hst with hst | hst <;> simp [State.roadsideAnswer, moved, hst, ha]
      refine hroad.trans ((State.enterWaiting_eq _ e (c := moved c) hnear _).trans ?_)
      rw [State.setCall_setCall]
      rfl
    · have hroad : (s.setCall e (some (moved c))).roadsideAnswer e (moved c) a =
          (s.setCall e (some (moved c))).setCall e (some { moved c with position := a.position }) := by
        simp [State.roadsideAnswer, moved, hst, ha]
      rw [State.setCall_setCall] at hroad
      exact hroad
    · have hroad : (s.setCall e (some (moved c))).roadsideAnswer e (moved c) a =
          (s.setCall e (some (moved c))).waitAfterBusy e (moved c) := by
        rcases hst with hst | hst <;> simp [State.roadsideAnswer, moved, hst, ha]
      refine hroad.trans ?_
      rw [State.waitAfterBusy, State.setCall_setCall]
      rfl
    · have hroad : (s.setCall e (some (moved c))).roadsideAnswer e (moved c) a =
          (s.setCall e (some (moved c))).backToAsking e (moved c) := by
        simp [State.roadsideAnswer, moved, hst, ha]
      refine hroad.trans ((State.backToAsking_eq _ e (c := moved c) hnear).trans ?_)
      rw [State.setCall_setCall]
      rfl
    · exact State.roadsideAnswer_ignored _ e (c := moved c) h
  · intro known
    refine ⟨fun hk => ?_, fun hk => ?_⟩
    · have hk : s.isTerminus = false ∧ (s.callByRef a.ref).isSome = true ∧ (a.answer = .accept ∨ a.answer = .queued) := by
        rwa [Option.isSome_iff_ne_none]
      simp only [State.takeCacc, hm]
      exact if_pos hk
    · have hk : ¬(s.isTerminus = false ∧ (s.callByRef a.ref).isSome = true ∧
          (a.answer = .accept ∨ a.answer = .queued)) := by rwa [Option.isSome_iff_ne_none]
      simp only [State.takeCacc, hm]
      exact if_neg hk
  · intro t
    have ht := State.takeCacc_terminus (p := p) hc hm hr
    refine ⟨fun hst ha => ht.trans ?_, fun hst ha => ht.trans ?_, fun hst ha => ht.trans ?_, fun h => ht.trans ?_⟩
    · have hterm : (s.setCall e (some (moved c))).terminusAnswer e (moved c) a =
          (s.setCall e (some (moved c))).callingAnswered e (moved c) := by
        simp [State.terminusAnswer, moved, hst, ha]
      refine hterm.trans ?_
      rw [State.callingAnswered, State.connect_eq, State.setCall_setCall, hin]
      rfl
    · have hterm : (s.setCall e (some (moved c))).terminusAnswer e (moved c) a =
          (s.setCall e (some (moved c))).setCall e (some { moved c with attemptTimer := none }) := by
        simp [State.terminusAnswer, moved, hst, ha]
      rw [State.setCall_setCall] at hterm
      exact hterm
    · have hterm : (s.setCall e (some (moved c))).terminusAnswer e (moved c) a =
          (s.setCall e (some (moved c))).freeConsoleCall e (moved c) (callBusy c.ref (bytesNode c.far) 0) := by
        simp [State.terminusAnswer, moved, hst, ha]
      refine hterm.trans ((State.freeConsoleCall_of_channel _ e (c := moved c) (.inr hst) _).trans ?_)
      rw [State.setCall_setCall]
      rfl
    · exact State.terminusAnswer_ignored _ e (c := moved c) h
  · intro t asks busy busied named
    have hbusy : s.busyCreq p origin q = t → busied t := fun h =>
      ⟨fun href => h.symm.trans (State.busyCreq_unknown href p origin),
        fun e c href hc => h.symm.trans (State.busyCreq_known href hc p origin)⟩
    have hsent {d : CallEntry} {u : State} (hu : u.cfg = s.cfg) (a : CallAnswer) (k : Nat) :
        u.sendAnswer d a k = sent d [BitVec.ofNat 8 a.code, BitVec.ofNat 8 k] u := by
      rw [State.sendAnswer_eq]
      rcases hf : d.far with _ | n
      · rw [State.offerCall_none _ (.inl rfl)]
        simp only [sent, hf]
      rcases hp : d.port with _ | x
      · rw [State.offerCall_none _ (.inr rfl)]
        simp only [sent, hf, hp]
      · rw [State.offerCall_some, hu]
        simp only [sent, hf, hp]
        rfl
    refine ⟨State.takeCreq_unnamed p, fun hr hn h => hbusy (State.takeCreq_terminus_busy p hn hr h).symm,
      fun hr hn hphone hask => ⟨fun e c href hc => ?_, fun href => ⟨fun hfull hch => ?_, fun e he hw => ?_⟩⟩,
      fun hr hn hask => State.takeCreq_roadside_asks p hn hr hask,
      fun hr hring hphone => hbusy (State.takeCreq_roadside_busy p (by simp [hring]) hr hring hphone).symm,
      fun hr hring hphone => ?_⟩
    · intro d kept
      have ht := State.takeCreq_repeat p hn hr hphone hask href hc
      refine ⟨fun hst => ht.trans ((State.repeatRequest_connected hst).trans (hsent (u := put e d) rfl .accept 0)),
        fun hst => ht.trans ((State.repeatRequest_queued hst).trans (hsent (u := put e kept) rfl .queued _)),
        fun h1 h2 => ht.trans (State.repeatRequest_other h1 h2)⟩
    · have ht := State.takeCreq_new p hn hr hphone hask href
      exact ht.trans (State.newRequest_full p origin hfull)
    · have ht := State.takeCreq_new p hn hr hphone hask href
      intro c
      refine ⟨fun hch => ?_, fun hch => ?_⟩
      · refine ht.trans ((State.newRequest_connects p origin he (s.channelFree_iff.2 hch)).trans ?_)
        rw [hin]
        rfl
      · intro order place u
        have hfull : ¬s.channelFree = true := mt s.channelFree_iff.1 (Nat.not_lt.2 hch)
        have hflag : flagByte (q.request == .resume) = if q.request = .resume then 1 else 0 := by
          by_cases h : q.request = .resume <;> simp [flagByte, h]
        have hpos : (order.takeWhile fun x => x != e).length + 1 =
            if q.request = .resume then 1 else s.calls.waitOrder.length + 1 := by
          by_cases h : q.request = .resume
          · simp [order, h]
          · simp only [order, if_neg h, takeWhile_ne_append hw]
        have hplace : BitVec.ofNat 8 (if q.request = .resume then 1 else s.calls.waitOrder.length + 1) = place := by
          by_cases h : q.request = .resume <;> simp [place, h]
        refine ht.trans ((State.newRequest_queues p origin he hfull rfl hpos).trans ?_)
        have hwait : callWait (q.entry p origin) (if q.request = .resume then 1 else s.calls.waitOrder.length + 1) =
            ⟨0x8A, [q.ref.origin, q.ref.num, place, if q.request = .resume then 1 else 0]⟩ := by
          rw [← hplace, ← hflag]; rfl
        rw [hwait, State.sendAnswer_eq, hplace]
        rfl
    · have ht := State.takeCreq_rings p (origin := origin) (by simp [hring]) hr hring hphone
      refine ⟨fun e c href hc => ?_, fun href => ⟨fun hnone => ht.trans ?_, fun ph e hph he => ?_⟩⟩
      · have hrepeat : t = s.repeatRing p e c := by
          refine ht.trans ?_
          unfold State.ringRequest
          simp only [href, hc]
        refine ⟨fun hst => hrepeat.trans ((State.repeatRing_ringing hst).trans (hsent (u := put e (moved c)) rfl .ringing 0)),
          fun hst => hrepeat.trans (State.repeatRing_cleared hst),
          fun h1 h2 => hrepeat.trans ((State.repeatRing_other h1 h2).trans (hsent (u := put e (moved c)) rfl .accept 0))⟩
      · unfold State.ringRequest
        simp only [href, hnone]
        rfl
      · intro hook rings c
        have hhook : hookOf ph = hook := by cases ph <;> rfl
        have hrings : s.ringable ph = true ↔ rings := by rw [State.ringable_iff, hhook]
        have hring : t = if s.ringable ph then s.beginRing p origin q.ref ph e else s.sendBusy q.ref origin p := by
          refine ht.trans ?_
          unfold State.ringRequest
          simp only [href, hph, he]
        exact ⟨fun h => hring.trans (if_pos (hrings.2 h)), fun h => hring.trans (if_neg (mt hrings.1 h))⟩
  · intro t code
    have hcode : BitVec.ofNat 8 cause.code = code := by rcases cause <;> rfl
    refine ⟨fun hm => by simp only [t, State.takeCrel, hm], fun e c hm hc => ⟨fun ph hr hnear => ?_, fun hr => ?_⟩⟩
    · obtain ⟨hringing, hcleared, hother⟩ := State.takeCrel_roadside (p := p) hc cause hm hr
      refine ⟨fun hst => (hringing hst).trans ?_, hcleared, fun h1 h2 => (hother h1 h2).trans ?_⟩
      · rw [State.freePhoneCall_eq _ e (c := { c with port := some p }) hnear, State.setCall_setCall]
      · refine (State.enterCleared_eq _ e (c := { c with port := some p }) hnear).trans ?_
        rw [State.setCall_setCall]
        rfl
    · have ht := State.takeCrel_terminus (p := p) hc cause hm hr
      have hend : callEnd { c with port := some p } cause =
          ⟨0x8C, [c.ref.origin, c.ref.num, code] ++ bytesBE 2 c.conceal.toNat⟩ := by rw [← hcode]; rfl
      rw [hend] at ht
      refine ⟨fun hst => ht.trans ?_, fun h1 h2 => ht.trans ?_⟩
      · refine (State.freeConsoleCall_of_channel _ e (c := { c with port := some p }) hst _).trans ?_
        rw [State.setCall_setCall]
      · refine (State.freeConsoleCall_of_no_channel _ e (c := { c with port := some p }) h1 h2 _).trans ?_
        rw [State.setCall_setCall]
  · intro t
    refine ⟨fun hm => by simp only [t, State.takeVoic, hm], fun e c hm hc => ?_⟩
    intro heard
    refine ⟨State.takeVoic_talking hc hm v, State.takeVoic_connected hc hm v,
      fun hst hw => (State.takeVoic_calling hc hm v hst hw).trans ?_, State.takeVoic_other hc hm v⟩
    rw [hin]
    rfl

end Sys2Proof.Machine
end

section
/-! SUPPORT. Level lines, hook events and contact events (R60 to R66, R75, R80, R83, R86). -/

namespace Sys2Proof.Machine

/-! ### Pins and filter waits (R60 to R62) -/

theorem State.departed_iff (s : State) (l : LevelLine) :
    s.departed l = true ↔ (s.inputs.line l).filtered ≠ s.cfg.resting.getLsbD (lineBit l) := by
  simp [State.departed]

section Event
variable (t : State) {l : LevelLine}

theorem State.lineEvent_contact {i : Fin 6} (h : l = .contact i) : t.lineEvent l = t.contactEvent i := by subst h; rfl

theorem State.lineEvent_hookA (h : l = .hookA) :
    t.lineEvent l = if t.departed l then t.hookDepart .phoneA else t.hookReturn .phoneA := by subst h; rfl

theorem State.lineEvent_hookB (h : l = .hookB) :
    t.lineEvent l = if t.departed l then t.hookDepart .phoneB else t.hookReturn .phoneB := by subst h; rfl

theorem State.lineEvent_powerWarn (h : l = .powerWarn) :
    t.lineEvent l = if t.departed l then t.powerDepart else t.powerReturn := by subst h; rfl

end Event

theorem State.eventSent_iff (s : State) (l : LevelLine) (h : s.node = .scanning ∨ s.node = .running) :
    s.eventSent l = true ↔ s.watched l = true ∧ (s.node = .running ∨ l = .powerWarn) := by
  rcases h with h | h <;> simp [State.eventSent, State.isRunning, h]

/-- A filter wait's end gives the line its pin's level, and tells the owner of a change (R60, R62). -/
theorem State.endWait_of {s : State} {l : LevelLine} (hn : s.node = .scanning ∨ s.node = .running)
    (hw : (s.inputs.line l).wait ≠ none) {t : State}
    (ht : s.setLine l { s.inputs.line l with filtered := (s.inputs.line l).pin, wait := none } = t) :
    ((s.inputs.line l).pin = (s.inputs.line l).filtered ∨ ¬(s.watched l = true ∧ (s.node = .running ∨ l = .powerWarn)) →
      s.endWait l = t) ∧
    ((s.inputs.line l).pin ≠ (s.inputs.line l).filtered → s.watched l = true ∧ (s.node = .running ∨ l = .powerWarn) →
      s.endWait l = t.lineEvent l) := by
  subst ht
  have hwait : (s.numberKnown && (s.inputs.line l).wait.isSome) = true := by
    simp [s.numberKnown_iff.2 hn, Option.isSome_iff_ne_none.2 hw]
  have hsent := State.eventSent_iff (s.setLine l { s.inputs.line l with filtered := (s.inputs.line l).pin, wait := none }) l hn
  refine ⟨fun h => (if_pos hwait).trans (if_neg ?_), fun hne htold => (if_pos hwait).trans (if_pos ⟨Ne.symm hne, hsent.2 htold⟩)⟩
  rintro ⟨hne, hs⟩
  exact h.elim (fun he => hne he.symm) fun hnot => hnot (hsent.1 hs)

/-! ### Hook events (R75, R80, R83, R86) -/

theorem State.phonesAct_iff (s : State) : s.phonesAct = true ↔
    (s.node = .scanning ∨ s.node = .running) ∧ s.cfg.role = .roadside ∧ s.cfg.services.phone = true := by
  simp [State.phonesAct, State.isRoadside, State.numberKnown, and_assoc]

theorem State.hookReturn_unbound {s : State} {ph : PhoneId} (hb : s.boundCall ph = none) : s.hookReturn ph = s := by
  unfold State.hookReturn
  simp only [hb, ite_self]

/-- The far node is settled by the role and the view alone (R35, R36, R76). -/
theorem CallEntry.settleFar_congr {c : CallEntry} {s t : State} (hn : t.node = s.node) (hc : t.cfg = s.cfg)
    (hr : t.reach = s.reach) : c.settleFar t = c.settleFar s := by
  have hpresence : t.terminusPresence = s.terminusPresence := by funext n; simp only [State.terminusPresence, hr]
  have hterminus : t.terminusChoice = s.terminusChoice := by
    have hrole : t.isTerminus = s.isTerminus := by simp only [State.isTerminus, State.numberKnown, hn, hc]
    rw [State.terminusChoice, hrole, hr, State.terminusChoice]
  have hchoice : t.choiceFar = s.choiceFar := by rw [State.choiceFar, hterminus, State.choiceFar]
  simp only [CallEntry.settleFar, CallEntry.toChoice, hpresence, hchoice]

/-! ### Contact events (R65, R66) -/

/-- The group of a mask is departed when one of its lines is watched and departed (R64, R65). -/
theorem State.groupDeparted_eq {s t : State} (hcfg : t.cfg = s.cfg) (hin : t.inputs = s.inputs) (mask : BitVec 6) :
    t.groupDeparted mask = ([0, 1, 2, 3, 4, 5] : List (Fin 6)).any fun j => mask.getLsbD j && s.watched (.contact j) &&
      (s.inputs.line (.contact j)).filtered != s.cfg.resting.getLsbD (2 + j) := by
  simp only [State.groupDeparted, State.watchDeparted, State.watched, State.departed, hcfg, hin, lineBit, Bool.and_assoc]

/-- A contact event at a rule of contacts (R66, log entry 27). -/
theorem State.contactForRule_of {t : State} {n : Fin 8} {mask : BitVec 6} (h : (t.rule n).source = .contacts mask)
    {i : Fin 6} : State.contactForRule i t n =
      if (t.rule n).kind = 0 ∨ mask.getLsbD i = false ∨ t.groupDeparted mask = (t.weather.rules[n]).group then t
      else (t.setRule n { t.weather.rules[n] with group := t.groupDeparted mask }).evaluate n (t.groupDeparted mask)
        (!t.groupDeparted mask) := by
  unfold State.contactForRule
  simp only [h]
  by_cases hused : (t.rule n).kind ≠ 0 ∧ mask.getLsbD i = true
  · rw [if_pos hused]
    simp only [hused.1, hused.2, Bool.true_eq_false, false_or]
  · rw [if_neg hused, if_pos]
    rcases not_and_or.1 hused with hk | hm
    · exact .inl (not_not.1 hk)
    · exact .inr (.inl (by simpa using hm))

/-- Settles O23, pin by pin, then the owners of the lines. -/
theorem filteredLevelsFollowTheirPins : Obligations.FilteredLevelsFollowTheirPins := by
  intro s l level v known interval put ended told
  have hmove (h : level ≠ v.pin) {t : State}
      (ht : (if s.numberKnown then s.setLine l { v with pin := level, wait := if level = v.filtered then none else s.startTimer (filterInterval l) }
        else s.setLine l { v with pin := level }) = t) : exec (.pinChange l level) s = .next t :=
    congrArg Host.Outcome.next ((if_neg h).trans ht)
  have hinterval : filterInterval l = interval := by cases l <;> rfl
  refine ⟨fun h => congrArg Host.Outcome.next (if_pos h), fun h hk => hmove h (if_neg (mt s.numberKnown_iff.1 hk)),
    fun h hk hf => hmove h ((if_pos (s.numberKnown_iff.2 hk)).trans ?_),
    fun h hk hf => hmove h ((if_pos (s.numberKnown_iff.2 hk)).trans ?_), fun h => congrArg Host.Outcome.next (if_neg ?_),
    fun hk hw h => congrArg Host.Outcome.next ((State.endWait_of hk hw rfl).1 h), fun hk hw hne htold => ?_, fun ph => ?_, fun i => ?_⟩
  · rw [if_neg hf, hinterval]; rfl
  · rw [if_pos hf]; rfl
  · rcases h with h | h
    · simp [mt s.numberKnown_iff.1 h]
    · simp [show (s.inputs.line l).wait = none from h]
  · have hevent {u : State} (hu : ended.lineEvent l = u) : exec (.filterWaitEnd l) s = .next u :=
      congrArg Host.Outcome.next (((State.endWait_of hk hw rfl).2 hne htold).trans hu)
    have hline : (ended.inputs.line l).filtered = v.pin := by
      rw [show ended.inputs = s.inputs.setLine l { v with filtered := v.pin, wait := none } from rfl, Inputs.line_setLine]
    have hdeparted : ended.departed l = true ↔ v.pin ≠ s.cfg.resting.getLsbD (lineBit l) := by
      rw [State.departed_iff, hline]
    refine ⟨fun i hl => hevent ?_, fun hd => ⟨fun hl => hevent ?_, fun hl => hevent ?_, fun hl => hevent ?_⟩,
      fun hd => ⟨fun hl => hevent ?_, fun hl => hevent ?_, fun hl => hevent ?_⟩⟩
    · exact ended.lineEvent_contact hl
    · exact (ended.lineEvent_hookA hl).trans (if_pos (hdeparted.2 hd))
    · exact (ended.lineEvent_hookB hl).trans (if_pos (hdeparted.2 hd))
    · exact (ended.lineEvent_powerWarn hl).trans (if_pos (hdeparted.2 hd))
    · exact (ended.lineEvent_hookA hl).trans (if_neg fun h => hdeparted.1 h hd)
    · exact (ended.lineEvent_hookB hl).trans (if_neg fun h => hdeparted.1 h hd)
    · exact (ended.lineEvent_powerWarn hl).trans (if_neg fun h => hdeparted.1 h hd)
  · intro acts sent
    have hacts : s.phonesAct = true ↔ acts := s.phonesAct_iff
    have hsent {d : CallEntry} {kind : FrameKind} {rest : List Byte} {t u : State} (ht : t = u) (hcfg : u.cfg = s.cfg) :
        t.offerCall d.far d.port kind ([d.ref.origin, d.ref.num] ++ rest) = sent d kind rest u := by
      subst ht
      rcases hf : d.far with _ | n
      · rw [State.offerCall_none _ (.inl rfl)]
        simp only [sent, hf]
      rcases hp : d.port with _ | p
      · rw [State.offerCall_none _ (.inr rfl)]
        simp only [sent, hf, hp]
      · rw [State.offerCall_some, hcfg]
        simp only [sent, hf, hp]
    refine ⟨fun h => ⟨if_neg (mt hacts.1 h), if_neg (mt hacts.1 h)⟩,
      fun h hb => ⟨State.hookReturn_unbound hb, fun e he => ?_⟩, fun h e c hb hc hnear => ?_⟩
    · intro c asked item walr alerted
      have halert : asked.incidentAlert = alerted := rfl
      have hstart : s.hookDepart ph = asked.incidentAlert.attempt e { c with attempts := 0, attemptTimer := none } := by
        refine (if_pos (hacts.2 h)).trans ?_
        simp only [hb, State.startEmergencyCall, he]
        rfl
      have hcfg : alerted.cfg = s.cfg := asked.incidentAlert_item (part := .cfg) (by decide)
      have hnow : alerted.refTime = s.refTime := asked.incidentAlert_item (part := .refTime) (by decide)
      have hsettle : CallEntry.settleFar { c with attempts := 0, attemptTimer := none } alerted =
          { c with attempts := 0, attemptTimer := none } := by
        exact (CallEntry.settleFar_congr (s := s) (t := alerted) (asked.incidentAlert_item (part := .node) (by decide)) hcfg
          (asked.incidentAlert_item (part := .reach) (by decide))).trans
            (CallEntry.settleFar_toChoice { c with attempts := 0, attemptTimer := none } s)
      have hattempt := State.attempt_settled (e := e) hsettle (us := 1000000) rfl (u := c) (by rw [hnow]; rfl)
      refine hstart.trans (hattempt.trans ?_)
      have hcode : NearEnd.code (.phone ph) = if ph = .phoneA then 1 else 2 := by cases ph <;> rfl
      have hcreq : ((alerted.setCall e (some c)).sentCreq c (if c.state = .resuming then 2 else 1)) =
          (alerted.setCall e (some c)).offerCall c.far c.port .creq
            ([c.ref.origin, c.ref.num] ++ [1, if ph = .phoneA then 1 else 2, 1]) := by rw [← hcode]; rfl
      exact hcreq.trans (hsent rfl hcfg)
    · intro talking freed
      have hdepart : s.hookDepart ph = if c.state = .ringing then s.answerRing e c ph else s := by
        refine (if_pos (hacts.2 h)).trans ?_
        simp only [hb, hc]
      have hfreed : s.freePhoneCall e c = freed := s.freePhoneCall_eq e hnear
      have hreturn : s.hookReturn ph =
          if c.state = .cleared then s.freePhoneCall e c else (s.freePhoneCall e c).releaseEntry c .clear := by
        refine (if_pos (hacts.2 h)).trans ?_
        simp only [hb, hc]
      rw [hfreed] at hreturn
      refine ⟨fun hst => hdepart.trans (if_neg hst), fun hst => hdepart.trans ((if_pos hst).trans ?_), fun hst => hreturn.trans ?_,
        fun n hst hf => hreturn.trans ((if_neg hst).trans (State.releaseEntry_eq _ hf _))⟩
      · rw [State.answerRing, State.sendAnswer_eq]
        exact hsent (State.enterTalking_eq _ e hnear) rfl
      · rcases hst with hst | hst
        · exact if_pos hst
        · rw [State.releaseEntry, hst]
          split <;> rfl
  · intro applied
    by_cases hacts : s.node = .running ∧ s.cfg.services.weather = true
    · rw [if_pos hacts]
      refine (if_pos (s.weatherActs_iff.2 hacts)).trans ?_
      refine foldl_eq_of_inv (P := fun t => t.cfg = s.cfg ∧ t.inputs = s.inputs) (fun t n ⟨hcfg, hin⟩ => ?_) _ s ⟨rfl, rfl⟩
      have hrule : t.rule n = s.rule n := State.rule_of_cfg hcfg
      have hsame : State.contactForRule i t n = applied t n := by
        rcases hsrc : (s.rule n).source with _ | _ | _ | mask
        · simp only [State.contactForRule, hrule, applied, hsrc]
        · simp only [State.contactForRule, hrule, applied, hsrc]
        · simp only [State.contactForRule, hrule, applied, hsrc]
        · simp only [applied, hsrc]
          rw [State.contactForRule_of (hrule ▸ hsrc), State.groupDeparted_eq hcfg hin, hrule]
      rw [← hsame]
      exact ⟨rfl, (t.contactForRule_item i n (part := .cfg) (by decide)).trans hcfg,
        (t.contactForRule_item i n (part := .inputs) (by decide)).trans hin⟩
    · rw [if_neg hacts]
      exact if_neg (mt s.weatherActs_iff.1 hacts)

end Sys2Proof.Machine
end

section
/-! SUPPORT. Toll Spool: the answer place, submissions and the moments of the arbiter (R104, R105, R107, R114, R117). -/

namespace Sys2Proof.Machine

/-! ### The answer place (R107) -/

theorem State.drainAnswer_held {s : State} {m : CabMsg} (h : s.spool.answer = some m) (hq : s.equip.outbound.length < 32) :
    s.drainAnswer = { s with spool := { s.spool with answer := none },
                             equip := { s.equip with outbound := s.equip.outbound ++ [m] } } := by
  simp [State.drainAnswer, h, State.queueRoom, hq, State.placeTail]

theorem State.drainAnswer_not {s : State} (h : s.spool.answer = none ∨ 32 ≤ s.equip.outbound.length) : s.drainAnswer = s := by
  unfold State.drainAnswer
  split
  next m hm => exact if_neg (mt s.queueRoom_iff.1 (Nat.not_lt.2 (h.resolve_left (by simp [hm]))))
  next => rfl

/-- Settles O38, item by item. -/
theorem suspensionsCloseTimersAndAnswers : Obligations.SuspensionsCloseTimersAndAnswers := by
  intro s
  refine ⟨fun e he hp => congrArg Host.Outcome.next ?_, fun h => congrArg Host.Outcome.next ?_,
    fun b hb ht => congrArg Host.Outcome.next ?_, fun h => congrArg Host.Outcome.next ?_,
    fun m hm hq => congrArg Host.Outcome.next (State.drainAnswer_held hm hq),
    fun h => congrArg Host.Outcome.next (State.drainAnswer_not h)⟩
  · simp only [State.suspensionDone, he]
    exact if_pos hp
  · unfold State.suspensionDone
    split
    next e he => exact if_neg (h e he)
    next => rfl
  · simp only [State.closeBatch, hb]
    exact if_pos (Option.isSome_iff_ne_none.2 ht)
  · unfold State.closeBatch
    split
    next b hb => exact if_neg (by simp [h b hb])
    next => rfl

/-! ### The arbiter's first branches (R104, R117) -/

theorem Spool.programWaits_idle {p : Spool} (h : p.op = .idle) : p.programWaits = p.held.isSome := by
  simp [Spool.programWaits, h]

/-- An operation on the array leaves the arbiter nothing to give. -/
theorem State.pump_busy {s : State} (h : s.spool.op ≠ .idle) : s.pump = s :=
  if_neg fun hc => h hc.2

section Pump
variable {s : State} (hr : s.node = .running) (ho : s.spool.op = .idle)
include hr ho

theorem State.pump_free (he : s.spool.erase = none) : s.pump = s.grant := by
  unfold State.pump
  rw [if_pos ⟨hr, ho⟩]
  simp only [he]

variable {e : EraseRun} (he : s.spool.erase = some e)
include he

theorem State.pump_suspended (hp : e.phase = .suspended) : s.pump = s.grant := by
  unfold State.pump
  rw [if_pos ⟨hr, ho⟩]
  simp only [he, hp]

theorem State.pump_suspending (hp : e.phase = .suspending) : s.pump = s := by
  unfold State.pump
  rw [if_pos ⟨hr, ho⟩]
  simp only [he, hp]

/-- An ACTIVE erase is suspended for a waiting record or read (R117). -/
theorem State.pump_suspends (hp : e.phase = .active) (hw : s.spool.held ≠ none ∨ s.spool.reads ≠ []) :
    s.pump = { s with spool := { s.spool with
      erase := some { e with phase := .suspending, gathered := e.gathered + (s.refTime - e.since) } } } := by
  have hwaits : (s.spool.programWaits || !s.spool.reads.isEmpty) = true := by
    rw [Spool.programWaits_idle ho]
    rcases hw with h | h
    · simp [Option.isSome_iff_ne_none.2 h]
    · simp [h]
  unfold State.pump
  rw [if_pos ⟨hr, ho⟩]
  simp only [he, hp, hwaits, if_true, State.activeErasePeriods]

theorem State.pump_active (hp : e.phase = .active) (hh : s.spool.held = none) (hreads : s.spool.reads = []) :
    s.pump = s := by
  have hwaits : ¬(s.spool.programWaits || !s.spool.reads.isEmpty) = true := by
    rw [Spool.programWaits_idle ho]
    simp [hh, hreads]
  unfold State.pump
  rw [if_pos ⟨hr, ho⟩]
  simp only [he, hp]
  exact if_neg hwaits

end Pump

/-- The held submission takes the free array first (R104). -/
theorem State.grant_record {s : State} (ho : s.spool.op = .idle) {h : HeldSubmission} (hh : s.spool.held = some h)
    (hf : ¬s.powerFailing = true) {k : Nat} (hk : s.spool.nextSlot = some k) : s.grant = s.startRecord k false := by
  have hwaits : (s.spool.programWaits && !s.powerFailing) = true := by simp [Spool.programWaits_idle ho, hh, hf]
  unfold State.grant
  rw [if_pos hwaits]
  simp only [hk]

/-! ### A submission (R105) -/

theorem State.answerSpool_room {s : State} (h : s.spool.answer = none) (hq : s.equip.outbound.length < 32) (m : CabMsg) :
    s.answerSpool m = { s with equip := { s.equip with outbound := s.equip.outbound ++ [m] } } := by
  rw [State.answerSpool, State.drainAnswer_not (.inl h)]
  exact if_pos (s.queueRoom_iff.2 hq)

theorem State.answerSpool_full {s : State} (hq : 32 ≤ s.equip.outbound.length) (m : CabMsg) :
    s.answerSpool m = { s with spool := { s.spool with answer := some m } } := by
  rw [State.answerSpool, State.drainAnswer_not (.inr hq)]
  exact if_neg (mt s.queueRoom_iff.1 (Nat.not_lt.2 hq))

theorem State.powerFailing_iff (s : State) : s.powerFailing = true ↔
    s.cfg.watch[8] = true ∧ s.inputs.powerWarn.filtered ≠ s.cfg.resting[8] := by
  simp [State.powerFailing, State.watchDeparted, State.watched, State.departed, lineBit, Inputs.line]

/-- What becomes of a submission that a condition of R105 refuses. -/
theorem State.submit_refused {s : State} (ha : s.spool.answer = none) {c : TollCause} (h : s.refusal = some c) (tag : Byte)
    (gantry : BitVec 16) (lane : Byte) (body : List Byte) :
    s.submit tag gantry lane body = s.answerSpool (tollRefused tag c) := by
  unfold State.submit
  rw [if_neg (by simp [ha])]
  simp only [h]

theorem State.submit_taken {s : State} (ha : s.spool.answer = none) (h : s.refusal = none) (tag : Byte)
    (gantry : BitVec 16) (lane : Byte) (body : List Byte) :
    s.submit tag gantry lane body = (s.holdSubmission tag gantry lane body).pump := by
  unfold State.submit
  rw [if_neg (by simp [ha])]
  simp only [h]

/-- Settles O34, by the first condition that holds, then the array. -/
theorem submissionsAreJudgedInOrder : Obligations.SubmissionsAreJudgedInOrder := by
  intro s tag gantry lane body run answered failing h holding
  have hok {ok : Bool} (hl : (body.length == 40) = ok) {t : State}
      (ht : s.dispatch ok true (fun t => t.submit tag gantry lane body)
        (fun t => t.placeOrDrop (tollRefused tag .notReady)) = t) : run = .next t := by
    refine congrArg Host.Outcome.next (Eq.trans ?_ ht)
    rw [hl]
  have hsubmit (hr : s.node = .running) (hl : body.length = 40) {t : State} (ht : s.submit tag gantry lane body = t) :
      run = .next t := hok (by simp [hl]) ((State.dispatch_running hr rfl).trans ht)
  refine ⟨fun hr hl => ⟨fun ha => hsubmit hr hl (if_pos (Option.isSome_iff_ne_none.2 ha)), fun ha => ?_⟩, fun hs hl => ?_,
    fun hn hl => hok (by simp [hl]) (State.dispatch_bad hn.symm), fun hr hs => hok rfl (State.dispatch_unreceived hs hr)⟩
  · have hanswer (c : TollCause) : s.answerSpool (tollRefused tag c) = answered c.code := by
      by_cases hq : s.equip.outbound.length < 32
      · exact (State.answerSpool_room ha hq _).trans (if_pos hq).symm
      · exact (State.answerSpool_full (Nat.not_lt.1 hq) _).trans (if_neg hq).symm
    have hrefused {c : TollCause} (h : s.refusal = some c) : run = .next (answered c.code) :=
      hsubmit hr hl ((State.submit_refused ha h _ _ _ _).trans (hanswer c))
    refine ⟨fun ht => hrefused (if_pos ht), fun ht => ?_⟩
    have htoll : ¬s.cfg.services.toll = false := by simp [ht]
    refine ⟨fun hm => hrefused ((if_neg htoll).trans (if_pos hm)), fun hm => ?_⟩
    have hmark : ¬s.spool.markFault = true := by simp [hm]
    refine ⟨fun hf => hrefused ((if_neg htoll).trans ((if_neg hmark).trans (if_pos (s.powerFailing_iff.2 hf)))), fun hf => ?_⟩
    have hfail : ¬s.powerFailing = true := mt s.powerFailing_iff.1 hf
    refine ⟨fun hb => hrefused ((if_neg htoll).trans ((if_neg hmark).trans ((if_neg hfail).trans (if_pos ?_)))),
      fun hh hg => ?_⟩
    · simpa [Option.isSome_iff_ne_none] using hb
    have hidle : ¬(s.spool.held.isSome || s.spool.genJob.isSome) = true := by simp [hh, hg]
    refine ⟨fun hfill => hrefused ((if_neg htoll).trans ((if_neg hmark).trans ((if_neg hfail).trans
      ((if_neg hidle).trans (if_pos (by simp [hfill])))))), fun hfill => ?_⟩
    have hnone : s.refusal = none := (if_neg htoll).trans ((if_neg hmark).trans ((if_neg hfail).trans
      ((if_neg hidle).trans (if_neg (by simp [hfill])))))
    have htaken {t : State} (ht : (s.holdSubmission tag gantry lane body).pump = t) : run = .next t :=
      hsubmit hr hl ((State.submit_taken ha hnone _ _ _ _).trans ht)
    refine ⟨fun k ho he hk => htaken ?_, fun e ho he hp => htaken ?_, fun hbusy => htaken ?_⟩
    · have hgrant : (s.holdSubmission tag gantry lane body).grant =
          (s.holdSubmission tag gantry lane body).startRecord k false :=
        State.grant_record (s := s.holdSubmission tag gantry lane body) ho rfl hfail hk
      have hpump : (s.holdSubmission tag gantry lane body).pump = (s.holdSubmission tag gantry lane body).grant := by
        rcases hs : s.spool.erase with _ | e
        · exact State.pump_free (s := s.holdSubmission tag gantry lane body) hr ho hs
        · exact State.pump_suspended (s := s.holdSubmission tag gantry lane body) hr ho hs (he e hs)
      exact hpump.trans hgrant
    · exact State.pump_suspends (s := s.holdSubmission tag gantry lane body) hr ho he hp (.inl (by simp [State.holdSubmission]))
    · by_cases ho : s.spool.op = .idle
      · obtain ⟨e, he, hp⟩ := hbusy.resolve_left (not_not.2 ho)
        exact State.pump_suspending (s := s.holdSubmission tag gantry lane body) hr ho he hp
      · exact State.pump_busy (s := s.holdSubmission tag gantry lane body) ho
  · intro counted
    have hplace {t : State} (ht : s.countNotReady.placeOrDrop (tollRefused tag .notReady) = t) : run = .next t :=
      hok (by simp [hl]) ((State.dispatch_scanning hs).trans ht)
    refine ⟨fun hq => hplace ?_, fun hq => hplace ?_⟩
    · exact if_pos (s.queueRoom_iff.2 hq)
    · exact if_neg (mt s.queueRoom_iff.1 (Nat.not_lt.2 hq))

end Sys2Proof.Machine
end

section
/-! SUPPORT. Toll Delivery: the TACK, the receipt's judgement, the window and the TRECs that are built (R126 to R139). -/

namespace Sys2Proof.Machine

/-! ### Positions (R111, R135) -/

theorem posLt_iff (a b : Position) : posLt a b = true ↔ a.gen < b.gen ∨ (a.gen = b.gen ∧ a.seq < b.seq) := by
  simp [posLt]

theorem posBad_eq_false_iff (p : Position) : posBad p = false ↔ p.gen ≠ 0 ∧ p.seq ≠ 0 := by simp [posBad]

/-- The position that six bytes lay out. -/
theorem posAt_bytes {g q : Nat} (hg : g < 65536) (hq : q < 4294967296) : posAt (bytesBE 2 g ++ bytesBE 4 q) 0 = ⟨g, q⟩ := by
  have hgen : field (bytesBE 2 g ++ bytesBE 4 q) 0 2 = g := by
    rw [field, List.drop_zero, List.take_left' (bytesBE_length 2 g), natBE_bytesBE (by omega)]
  have hseq : field (bytesBE 2 g ++ bytesBE 4 q) (0 + 2) 4 = q := by
    rw [field, Nat.zero_add, List.drop_left' (bytesBE_length 2 g), List.take_of_length_le (by simp), natBE_bytesBE (by omega)]
  rw [posAt, hgen, hseq]

/-! ### The TACK (R125, R131, R132) -/

/-- The entries that a TACK names: sent, of its generation, at or before its ack point (R132). -/
theorem ackedBy_eq (a : Position) (e : WindowEntry) :
    ackedBy a e = (e.sent && decide (e.pos.gen = a.gen) && decide (e.pos.seq ≤ a.seq)) := by
  by_cases hg : e.pos.gen = a.gen
  · simp only [ackedBy, posLe, posLt, hg, Nat.lt_irrefl, decide_false, beq_self_eq_true, decide_true, Bool.and_true, Bool.false_or,
      Bool.true_and, ← decide_not, Nat.not_lt]
  · simp [ackedBy, hg]

section Tack
variable {s : State} {a : Position}

theorem State.takeTack_none (h : ∀ e ∈ s.sending.window, ackedBy a e = false) : s.takeTack a = s :=
  if_pos (List.filter_eq_nil_iff.2 fun e he => by simp [h e he])

theorem State.takeTack_some (h : ∃ e ∈ s.sending.window, ackedBy a e = true) :
    s.takeTack a = { s with
      spool := (s.sending.window.filter (ackedBy a)).foldl (fun (x : Spool) (e : WindowEntry) => x.deliver e.pos) s.spool
      sending := { s.sending with window := s.sending.window.filter fun e => !ackedBy a e } }.windowIntake := by
  refine if_neg fun hnil => ?_
  obtain ⟨e, he, hack⟩ := h
  exact absurd hack (List.filter_eq_nil_iff.1 hnil e he)

end Tack

section Delivered
variable {s : State} {f : Frame} (ht : s.cfg.services.toll = true)
include ht

theorem State.tackDelivered_bad (h : parseTack f.payload = none) :
    s.tackDelivered f = { s with sending := { s.sending with badTacks := bump s.sending.badTacks } } := by
  unfold State.tackDelivered
  rw [if_pos ht]
  simp only [h]

variable {a : Position} (h : parseTack f.payload = some a)
include h

theorem State.tackDelivered_taken {p : PortId} (hs : s.sending.steer = .via f.origin p) :
    s.tackDelivered f = (s.takeTack a).runToll := by
  unfold State.tackDelivered
  rw [if_pos ht]
  simp only [h, hs, if_true]

theorem State.tackDelivered_stray (hs : ∀ p, s.sending.steer ≠ .via f.origin p) :
    s.tackDelivered f = { s with sending := { s.sending with strayTacks := bump s.sending.strayTacks } } := by
  unfold State.tackDelivered
  rw [if_pos ht]
  simp only [h]
  split
  next n p hn => exact if_neg fun he => hs p (by rw [← he]; exact hn)
  next => rfl

end Delivered

theorem Spool.deliver_of {x : Spool} {a : Position} {k : Nat} (h : x.slotOf a = some k) :
    x.deliver a = { x with slots := keySet x.slots k (.delivered a true) } := by
  simp only [Spool.deliver, h]

theorem Spool.deliver_none {x : Spool} {a : Position} (h : x.slotOf a = none) : x.deliver a = x := by
  simp only [Spool.deliver, h]

/-- Settles O42, by the TACK's checks, the steer and the entries it names. -/
theorem tacksActOnTheSteersWindow : Obligations.TacksActOnTheSteersWindow := by
  intro s f bad
  refine ⟨fun ht => if_neg (by simp [ht]), fun ht hl => State.tackDelivered_bad ht (if_neg (by tauto)),
    fun g q ht hg hq hp => ?_, fun x a => ⟨fun k hk => Spool.deliver_of hk, Spool.deliver_none⟩, fun a => ?_⟩
  · intro hit
    have hlen : f.payload.length = 6 := by rw [hp]; simp
    have hpos : posAt f.payload 0 = ⟨g, q⟩ := by rw [hp]; exact posAt_bytes hg hq
    have hhit : ackedBy ⟨g, q⟩ = hit := funext fun e => ackedBy_eq _ e
    have hgood (h1 : g ≠ 0) (h2 : q ≠ 0) : parseTack f.payload = some ⟨g, q⟩ := by
      rw [parseTack, hpos]
      exact if_pos ⟨hlen, (posBad_eq_false_iff _).2 ⟨h1, h2⟩⟩
    refine ⟨fun h => State.tackDelivered_bad ht (if_neg ?_), fun h1 h2 hs => State.tackDelivered_stray ht (hgood h1 h2) hs,
      fun p h1 h2 hs => ⟨fun h => ?_, fun h => ?_⟩⟩
    · rw [hpos, posBad_eq_false_iff]
      rintro ⟨-, h1, h2⟩
      exact h.elim h1 h2
    · rw [State.tackDelivered_taken ht (hgood h1 h2) hs, State.takeTack_none (by rwa [hhit])]
    · rw [State.tackDelivered_taken ht (hgood h1 h2) hs, State.takeTack_some (by rwa [hhit]), hhit]
  · intro hit
    have hhit : ackedBy a = hit := funext fun e => ackedBy_eq _ e
    refine ⟨fun h => State.takeTack_none (by rwa [hhit]), fun h => ?_⟩
    rw [State.takeTack_some (by rwa [hhit]), hhit]

/-! ### Records and TRECs at a receipt (R135 to R139) -/

section Records
variable {s : State} {base : Position} {origin : Nat} {r : TollRecord} {rest : List TollRecord}

/-- An accepted record with room in the queue is placed and makes its origin's entry (R138). -/
theorem State.receiveRecords_room (h : judgeRecord base (keyGet s.receipt.table origin) r.pos = .accept)
    (hroom : s.equip.outbound.length < 32) :
    s.receiveRecords base origin (r :: rest) = (s.acceptRecord origin r).receiveRecords base origin rest := by
  simp only [State.receiveRecords, h]
  exact if_pos ((State.queueRoom_iff s).2 hroom)

theorem State.receiveRecords_full (h : judgeRecord base (keyGet s.receipt.table origin) r.pos = .accept)
    (hfull : 32 ≤ s.equip.outbound.length) :
    s.receiveRecords base origin (r :: rest) = { s with receipt := { s.receipt with queueFull := bump s.receipt.queueFull } } := by
  simp only [State.receiveRecords, h]
  exact if_neg fun hroom => absurd ((State.queueRoom_iff s).1 hroom) (Nat.not_lt.2 hfull)

theorem State.receiveRecords_duplicate (h : judgeRecord base (keyGet s.receipt.table origin) r.pos = .duplicate) :
    s.receiveRecords base origin (r :: rest) = State.receiveRecords base origin rest
      { s with receipt := { s.receipt with duplicate := bump s.receipt.duplicate } } := by
  simp only [State.receiveRecords, h]

theorem State.receiveRecords_outOfOrder (h : judgeRecord base (keyGet s.receipt.table origin) r.pos = .outOfOrder) :
    s.receiveRecords base origin (r :: rest) = { s with receipt := { s.receipt with outOfOrder := bump s.receipt.outOfOrder } } := by
  simp only [State.receiveRecords, h]

end Records

section Judge
variable {base r : Position} {e : ReceiptEntry}

/-- A record is accepted when it is the expected one, or the base of a count begun anew, or a base not before the expected
one (R137). -/
theorem judgeRecord_accept (h : r = e.expected ∨ (r = base ∧ (r.gen ≠ e.expected.gen ∨ posLt r e.expected = false))) :
    judgeRecord base (some e) r = .accept := by
  by_cases h1 : r = e.expected
  · exact if_pos h1
  · obtain ⟨hb, hg⟩ := h.resolve_left h1
    by_cases hgen : r.gen ≠ e.expected.gen
    · exact (if_neg h1).trans (if_pos ⟨hb, hgen⟩)
    · have hlt : ¬ posLt r e.expected = true := by simp [hg.resolve_left hgen]
      exact (if_neg h1).trans ((if_neg fun hn => hgen hn.2).trans ((if_neg hlt).trans (if_pos hb)))

theorem judgeRecord_duplicate (h1 : r ≠ e.expected) (h2 : ¬ (r = base ∧ r.gen ≠ e.expected.gen))
    (h3 : posLt r e.expected = true) : judgeRecord base (some e) r = .duplicate :=
  (if_neg h1).trans ((if_neg h2).trans (if_pos h3))

theorem judgeRecord_outOfOrder (h1 : r ≠ e.expected) (h2 : r ≠ base) (h3 : ¬ posLt r e.expected = true) :
    judgeRecord base (some e) r = .outOfOrder :=
  (if_neg h1).trans ((if_neg fun h => h2 h.1).trans ((if_neg h3).trans (if_neg h2)))

end Judge

section Trec
variable {s : State} {p : PortId} {f : Frame}

theorem State.receiveTrec_bad (h : parseTrec f.payload = none) :
    s.receiveTrec p f = { s with receipt := { s.receipt with badTrecs := bump s.receipt.badTrecs } } := by
  simp only [State.receiveTrec, h]

variable {base : Position} {rs : List TollRecord} (h : parseTrec f.payload = some (base, rs))
include h

theorem State.receiveTrec_unknown (ht : keyGet (s.receiveRecords base f.origin rs).receipt.table f.origin = none) :
    s.receiveTrec p f = s.receiveRecords base f.origin rs := by
  simp only [State.receiveTrec, h, ht]

theorem State.receiveTrec_answered {t : State} {e : ReceiptEntry} (ht : s.receiveRecords base f.origin rs = t)
    (he : keyGet t.receipt.table f.origin = some e) :
    s.receiveTrec p f = ({ t with receipt := { t.receipt with tacks := bump t.receipt.tacks } } : State).offer p
      (t.ownFrame .tack 255 f.origin (bytesPos e.last)) := by
  simp only [State.receiveTrec, h, ht, he]

end Trec

/-- Settles O43, by the judgement of a record and the checks of a TREC. -/
theorem recordsAreJudgedAgainstTheirOrigin : Obligations.RecordsAreJudgedAgainstTheirOrigin := by
  intro s base origin r rest run counted next body accept
  have haccept (h : judgeRecord base (keyGet s.receipt.table origin) r.pos = .accept) : accept :=
    ⟨State.receiveRecords_room h, State.receiveRecords_full h⟩
  refine ⟨fun h => haccept (by rw [h]; rfl), fun e he => ?_, fun p f => ?_⟩
  · intro before newCount
    have hbefore : posLt r.pos e.expected = true ↔ before := posLt_iff _ _
    refine ⟨fun h => haccept ?_, fun _ h => haccept ?_, fun h1 h2 h3 => State.receiveRecords_duplicate ?_,
      fun _ _ h3 h4 => haccept ?_, fun h1 h3 h4 => State.receiveRecords_outOfOrder ?_⟩ <;> rw [he]
    · exact judgeRecord_accept (.inl h)
    · exact judgeRecord_accept (.inr ⟨h.1, .inl h.2⟩)
    · exact judgeRecord_duplicate h1 h2 (hbefore.2 h3)
    · exact judgeRecord_accept (.inr ⟨h4, .inr (by simpa using mt hbefore.1 h3)⟩)
    · exact judgeRecord_outOfOrder h1 h4 (mt hbefore.1 h3)
  · intro n records first bad t
    have hbad : bad → parseTrec f.payload = none := fun hb => if_neg fun ⟨hn, hlen, hpos, hall⟩ => by
      obtain ⟨hg, hq⟩ := (posBad_eq_false_iff _).1 hpos
      rcases hb with hb | hb | hb | hb | ⟨x, hx, hb⟩
      · exact absurd hn (by tauto)
      · exact hb hlen
      · exact hg hb
      · exact hq hb
      · have hx' := List.all_eq_true.1 hall x hx
        simp [posBad] at hx'
        omega
    have hgood (hb : ¬ bad) : parseTrec f.payload = some (first, records) := by
      simp only [bad, not_or, not_exists, not_and] at hb
      obtain ⟨hn, hlen, hg, hq, hrs⟩ := hb
      refine if_pos ⟨by tauto, not_ne_iff.1 hlen, (posBad_eq_false_iff _).2 ⟨hg, hq⟩, List.all_eq_true.2 fun x hx => ?_⟩
      obtain ⟨h1, h2, h3⟩ := hrs x hx
      simp [posBad, h1, h2, Nat.not_lt.1 h3]
    refine ⟨fun hb => State.receiveTrec_bad (hbad hb), fun hb hk => State.receiveTrec_unknown (hgood hb) hk,
      fun e hb he => ?_⟩
    have hcfg : t.cfg = s.cfg := State.receiveRecords_item first f.origin records s (part := .cfg) (by decide)
    have hrun := State.receiveTrec_answered (p := p) (hgood hb) rfl he
    have hframe : t.ownFrame .tack 255 f.origin (bytesPos e.last) = s.ownFrame .tack 255 f.origin (bytesPos e.last) := by
      rw [State.ownFrame, hcfg, State.ownFrame]
    exact hrun.trans (congrArg _ hframe)

/-! ### The lowest of some positions (R101, R111) -/

theorem posLt_eq_false_iff (a b : Position) : posLt a b = false ↔ ¬ (a.gen < b.gen ∨ (a.gen = b.gen ∧ a.seq < b.seq)) := by
  rw [← posLt_iff, Bool.not_eq_true]

theorem eq_of_not_posLt {a b : Position} (h1 : posLt a b = false) (h2 : posLt b a = false) : a = b := by
  obtain ⟨ga, sa⟩ := a
  obtain ⟨gb, sb⟩ := b
  simp only [posLt_eq_false_iff] at h1 h2
  obtain ⟨rfl, rfl⟩ : ga = gb ∧ sa = sb := by omega
  rfl

theorem lowestPos_eq_none_iff (l : List Position) : lowestPos l = none ↔ l = [] := by
  cases l with
  | nil => simp [lowestPos]
  | cons a l =>
    unfold lowestPos
    split <;> (try split) <;> simp

theorem lowestPos_some {l : List Position} {q : Position} (h : lowestPos l = some q) :
    q ∈ l ∧ ∀ x ∈ l, posLt x q = false := by
  induction l generalizing q with
  | nil => cases h
  | cons a l ih =>
    rcases hl : lowestPos l with _ | b
    · obtain rfl : a = q := by simpa [lowestPos, hl] using h
      rw [(lowestPos_eq_none_iff l).1 hl]
      simp [posLt]
    · obtain ⟨hb, hmin⟩ := ih hl
      by_cases hba : posLt b a = true
      · obtain rfl : b = q := by simpa [lowestPos, hl, hba] using h
        refine ⟨.tail _ hb, fun x hx => ?_⟩
        rcases List.mem_cons.1 hx with rfl | hx
        · rw [posLt_iff] at hba
          rw [posLt_eq_false_iff]
          omega
        · exact hmin x hx
      · obtain rfl : a = q := by simpa [lowestPos, hl, hba] using h
        refine ⟨.head _, fun x hx => ?_⟩
        rcases List.mem_cons.1 hx with rfl | hx
        · simp [posLt]
        · have := hmin x hx
          rw [Bool.not_eq_true, posLt_eq_false_iff] at hba
          rw [posLt_eq_false_iff] at this ⊢
          omega

/-- The lowest of some positions is the one among them that none comes before. -/
theorem lowestPos_iff (l : List Position) (q : Position) : lowestPos l = some q ↔ q ∈ l ∧ ∀ x ∈ l, posLt x q = false := by
  refine ⟨lowestPos_some, fun ⟨hq, hmin⟩ => ?_⟩
  rcases h : lowestPos l with _ | b
  · rw [(lowestPos_eq_none_iff l).1 h] at hq
    cases hq
  · obtain ⟨hb, hbmin⟩ := lowestPos_some h
    rw [eq_of_not_posLt (hbmin q hq) (hmin b hb)]

theorem Spool.mem_filledPositions (p : Spool) (q : Position) : q ∈ p.filledPositions ↔ ∃ e ∈ p.slots, e.2 = .filled q := by
  rw [Spool.filledPositions, List.mem_filterMap]
  refine exists_congr fun e => and_congr_right fun _ => ?_
  cases h : e.2 <;> simp [SlotState.filledPos]

/-! ### The window's intake (R127) -/

/-- A record that the window may take in next: FILLED, and after the last entry when there is one (R127). -/
def State.Beyond (s : State) (q : Position) : Prop :=
  (∃ e ∈ s.spool.slots, e.2 = .filled q) ∧ ∀ e, s.sending.window.getLast? = some e → posLt e.pos q = true

/-- The lowest record that the window may take in next (R127). -/
def State.Offered (s : State) (q : Position) : Prop := s.Beyond q ∧ ∀ x, s.Beyond x → posLt x q = false

theorem State.windowNext_empty {s : State} (h : s.sending.window.getLast? = none) (q : Position) :
    s.windowNext = some q ↔ s.Offered q := by
  have hnext : s.windowNext = s.spool.oldestFilled := by simp only [State.windowNext, h]
  simp [hnext, State.Offered, State.Beyond, h, Spool.oldestFilled, lowestPos_iff, Spool.mem_filledPositions]

theorem State.nextFilled_iff {s : State} {e : WindowEntry} (h : s.sending.window.getLast? = some e) (q : Position) :
    s.spool.nextFilledAfter e.pos = some q ↔ s.Offered q := by
  simp [State.Offered, State.Beyond, h, Spool.nextFilledAfter, lowestPos_iff, Spool.mem_filledPositions]

theorem State.windowNext_after {s : State} {e : WindowEntry} (h : s.sending.window.getLast? = some e) (q : Position) :
    s.windowNext = some q ↔ s.Offered q ∧ q.gen = e.pos.gen := by
  rw [← State.nextFilled_iff h]
  unfold State.windowNext
  simp only [h]
  rcases s.spool.nextFilledAfter e.pos with _ | b
  · simp
  · by_cases hg : b.gen = e.pos.gen
    · simp only [hg, if_true, Option.some.injEq]
      exact ⟨fun hb => ⟨hb, hb ▸ hg⟩, And.left⟩
    · simp only [hg, if_false, Option.some.injEq, reduceCtorEq, false_iff]
      rintro ⟨rfl, h⟩
      exact hg h

/-- What the window takes in next is the lowest record offered, while of its generation (R127). -/
theorem State.windowNext_iff (s : State) (q : Position) :
    s.windowNext = some q ↔ s.Offered q ∧ ∀ e, s.sending.window.getLast? = some e → q.gen = e.pos.gen := by
  rcases h : s.sending.window.getLast? with _ | e
  · simp [State.windowNext_empty h]
  · simp [State.windowNext_after h]

section Intake
variable {s : State}

theorem State.fillWindow_stop (n : Nat) (h : ¬ (s.sending.steer ≠ .none ∧ s.sending.window.length < 16)) :
    s.fillWindow n = s := by
  cases n with
  | zero => rfl
  | succ n => exact if_neg h

theorem State.fillWindow_none (n : Nat) (h : s.windowNext = none) : s.fillWindow n = s := by
  cases n with
  | zero => rfl
  | succ n => simp [State.fillWindow, h]

theorem State.fillWindow_join (n : Nat) (h : s.sending.steer ≠ .none ∧ s.sending.window.length < 16) {q : Position}
    (hq : s.windowNext = some q) : s.fillWindow (n + 1) = (s.windowJoin q).fillWindow n := by
  refine (if_pos h).trans ?_
  simp only [hq]

end Intake

/-- A count that reaches the window's bound of 16 is as good as a larger one. -/
theorem State.fillWindow_enough (n : Nat) (s : State) (h : 16 ≤ s.sending.window.length + n) :
    s.fillWindow (n + 1) = s.fillWindow n := by
  induction n generalizing s with
  | zero => exact State.fillWindow_stop 1 fun hc => absurd hc.2 (by omega)
  | succ n ih =>
    by_cases hc : s.sending.steer ≠ .none ∧ s.sending.window.length < 16
    · rcases hq : s.windowNext with _ | q
      · rw [State.fillWindow_none _ hq, State.fillWindow_none _ hq]
      · rw [State.fillWindow_join _ hc hq, State.fillWindow_join _ hc hq]
        exact ih _ (by simp [State.windowJoin]; omega)
    · rw [State.fillWindow_stop _ hc, State.fillWindow_stop _ hc]

/-- One record joins the window and the intake goes on (R127). -/
theorem State.windowIntake_join {s : State} (h : s.sending.steer ≠ .none ∧ s.sending.window.length < 16) {q : Position}
    (hq : s.windowNext = some q) : s.windowIntake = (s.windowJoin q).windowIntake :=
  (State.fillWindow_join 15 h hq).trans (State.fillWindow_enough 15 _ (by simp [State.windowJoin])).symm

/-! ### Building TRECs (R129, R130) -/

theorem Sending.mayBuild_iff (d : Sending) : d.mayBuild = true ↔ d.steer ≠ .none ∧ d.retry = none ∧
    (∃ e ∈ d.window, e.due = true) ∧ ∀ e ∈ d.window, e.record.isSome = true := by
  simp [Sending.mayBuild, and_assoc]

section Run
variable {old due : List WindowEntry} (hold : ∀ e ∈ old, e.due = false) (hdue : ∀ e ∈ due, e.due = true)
include hold hdue

theorem filter_due : (old ++ due).filter (·.due) = due := by
  rw [List.filter_append, List.filter_eq_nil_iff.2 fun e he => by simp [hold e he], List.filter_eq_self.2 hdue, List.nil_append]

omit hold in
theorem sendDue_all (lt : LTime) (now n : Nat) : sendDue lt now n due =
    (due.take n).map (fun e => { e with due := false, sent := true, sendLT := lt, sentAt := now }) ++ due.drop n := by
  induction due generalizing n with
  | nil => cases n <;> rfl
  | cons e rest ih =>
    cases n with
    | zero => rfl
    | succ n =>
      rw [sendDue, if_pos (hdue e (.head _)), ih (fun x hx => hdue x (.tail _ hx))]
      rfl

omit hdue in
/-- Entries that are not due are passed over. -/
theorem sendDue_append (lt : LTime) (now n : Nat) : sendDue lt now n (old ++ due) = old ++ sendDue lt now n due := by
  induction old with
  | nil => rfl
  | cons e rest ih =>
    cases n with
    | zero => simp [sendDue]
    | succ n =>
      rw [List.cons_append, sendDue, if_neg (by simp [hold e (.head _)]), ih (fun x hx => hold x (.tail _ hx)), List.cons_append]

end Run

theorem runOf_le {due run : Nat} (h : 0 < due) : runOf due run ≤ due := by
  unfold runOf
  split
  · omega
  · split <;> omega

section Build
variable {s : State} {old due : List WindowEntry} (hw : s.sending.window = old ++ due)
  (hold : ∀ e ∈ old, e.due = false) (hdue : ∀ e ∈ due, e.due = true)
include hw hold hdue

theorem State.nextRun_eq : s.nextRun = due.take (runOf due.length s.cfg.runLength) := by
  rw [State.nextRun, hw, filter_due hold hdue]

/-- The due entries of the next TREC count as sent, the rest of the window stays (R130). -/
theorem State.countSent_eq (hne : due ≠ []) :
    let size := runOf due.length s.cfg.runLength
    s.countSent = { s with sending := { s.sending with
      trecs := bump s.sending.trecs
      window := old ++ (due.take size).map (fun (e : WindowEntry) =>
        { e with due := false, sent := true, sendLT := s.time.lt, sentAt := s.refTime }) ++ due.drop size } } := by
  intro size
  have hlen : (due.take size).length = size := by
    rw [List.length_take]
    exact Nat.min_eq_left (runOf_le (List.length_pos_iff.2 hne))
  rw [State.countSent, State.nextRun_eq hw hold hdue, hlen, hw, sendDue_append hold, sendDue_all hdue, List.append_assoc]

end Build

section BuildOne
variable {s : State}

theorem State.buildOne_self (hs : s.sending.steer = .self) {t : State}
    (ht : s.countSent.receiveRecords s.base s.cfg.number (s.nextRun.filterMap (·.record)) = t) :
    (keyGet t.receipt.table s.cfg.number = none → s.buildOne = t) ∧
    (∀ e, keyGet t.receipt.table s.cfg.number = some e → s.buildOne = t.takeTack e.last) := by
  unfold State.buildOne
  simp only [hs, ht]
  exact ⟨fun h => by rw [h], fun e h => by rw [h]⟩

variable {n : Nat} {p : PortId} (hs : s.sending.steer = .via n p) {f : Frame}
  (hf : s.ownFrame .trec 255 241 (trecPayload s.base (s.nextRun.filterMap (·.record))) = f)
include hs hf

/-- A refused TREC starts the retry timer (R130). -/
theorem State.buildOne_refused (h : (s.port p).offerAnswer f = .refused) :
    s.buildOne = { s.offer p f with sending := { s.sending with
      retry := some ⟨s.refTime, 10000⟩, refusedOffers := bump s.sending.refusedOffers } } := by
  have hsend : (s.offer p f).sending = s.sending := s.offer_item p f (part := .sending) (by cases p <;> decide)
  have href : (s.offer p f).refTime = s.refTime := s.offer_item p f (part := .refTime) (by cases p <;> decide)
  unfold State.buildOne
  simp only [hs, hf, h, hsend, State.startTimer, href]

theorem State.buildOne_offered (h : (s.port p).offerAnswer f ≠ .refused) : s.buildOne = s.countSent.offer p f := by
  unfold State.buildOne
  simp only [hs, hf]

end BuildOne

/-! ### Delivery's timers and the steer (R126, R130, R133) -/

theorem State.steerTo_same {s : State} {r : Route} (h : s.cfg.services.toll = false ∨ r = s.sending.steer) : s.steerTo r = s :=
  if_neg fun ⟨ht, hr⟩ => h.elim (by simp [ht]) hr

/-- Settles O41, by the timers, the steer, the window's intake and the TREC that is built. -/
theorem deliverySendsAgain : Obligations.DeliverySendsAgain := by
  intro s hz aged
  have hhz : referenceHz s.cfg.reference = hz := by
    show _ = if _ then _ else _
    cases s.cfg.reference <;> rfl
  have haged (e : WindowEntry) : s.sendAgeReached e = true ↔ aged e := by
    rw [State.sendAgeReached, hhz, decide_eq_true_iff]
  refine ⟨fun h => congrArg Host.Outcome.next (if_pos (Option.isSome_iff_ne_none.2 h)),
    fun h => congrArg Host.Outcome.next (if_neg (by simp [h])),
    fun e rest hw h1 h2 h3 => congrArg Host.Outcome.next ?_, fun h => congrArg Host.Outcome.next ?_,
    fun r => ⟨State.steerTo_same, fun ht hr => if_pos ⟨ht, hr⟩⟩, ?_, ?_⟩
  · unfold State.goBackNow
    rw [hw]
    exact if_pos ⟨h1, h2, (haged e).2 h3⟩
  · unfold State.goBackNow
    split
    next e _ hw =>
      refine if_neg fun ⟨h1, h2, h3⟩ => ?_
      have := h e (by simp [hw])
      simp [h1, h2, (haged e).1 h3] at this
    next => rfl
  · intro before filled last beyond offered takes
    have hbeyond (q : Position) : beyond q ↔ s.Beyond q :=
      and_congr_right fun _ => forall₂_congr fun e _ => (posLt_iff e.pos q).symm
    have hoffered (q : Position) : offered q ↔ s.Offered q :=
      and_congr (hbeyond q) (forall_congr' fun x => imp_congr (hbeyond x) (posLt_eq_false_iff x q).symm)
    refine ⟨State.fillWindow_stop 16, fun _ h => State.fillWindow_none 16 (Option.eq_none_iff_forall_ne_some.2 fun q hq => ?_),
      fun q ht ho hg => State.windowIntake_join ht ((s.windowNext_iff q).2 ⟨(hoffered q).1 ho, hg⟩)⟩
    obtain ⟨ho, hg⟩ := (s.windowNext_iff q).1 hq
    obtain ⟨e, he, hne⟩ := h q ((hoffered q).2 ho)
    exact hne (hg e he)
  · intro builds
    refine ⟨rfl, fun n hb => ?_, fun n hb => if_pos (s.sending.mayBuild_iff.2 hb),
      fun old due b hb hw hold hdue hbase => ?_⟩
    · cases n with
      | zero => rfl
      | succ n => exact if_neg (mt s.sending.mayBuild_iff.1 hb)
    · intro k size records counted trec
      have hne : due ≠ [] := by
        rintro rfl
        obtain ⟨-, -, ⟨e, he, hd⟩, -⟩ := hb
        rw [hw, List.append_nil] at he
        simp [hold e he] at hd
      have hrun : s.nextRun.filterMap (·.record) = records := by rw [State.nextRun_eq hw hold hdue]; rfl
      have hpos : s.base = b := by rw [State.base, hbase]; rfl
      have hcounted : s.countSent = counted := State.countSent_eq hw hold hdue hne
      have hframe : s.ownFrame .trec 255 241 (trecPayload s.base (s.nextRun.filterMap (·.record))) = trec := by
        rw [hrun, hpos]; rfl
      refine ⟨fun n p hs => ⟨State.buildOne_refused hs hframe, fun h => ?_⟩, fun hs => State.buildOne_self hs ?_⟩
      · rw [State.buildOne_offered hs hframe h, hcounted]
      · rw [hcounted, hpos, hrun]

end Sys2Proof.Machine
end

section
/-! SUPPORT. Toll Spool: what its sectors, slots, headers and batches read as after each operation on them, and the ends of marks,
reads and erases (R103, R109 to R117, R128). -/

namespace Sys2Proof.Machine

/-! ### Sparse stores -/

/-- The first of a row of values that passes. -/
theorem find_map_range {f : Nat → Nat} {p : Nat → Bool} {n i : Nat} (hi : i < n) (hp : p (f i) = true)
    (hlow : ∀ j, j < i → p (f j) = false) : ((List.range n).map f).find? p = some (f i) := by
  rw [List.find?_map, (List.find?_range_eq_some (i := i)).2 ⟨hp, List.mem_range.2 hi, fun j hj => by simp [hlow j hj]⟩]
  rfl

theorem find_map_range_none {f : Nat → Nat} {p : Nat → Bool} {n : Nat} (h : ∀ i, i < n → p (f i) = false) :
    ((List.range n).map f).find? p = none :=
  List.find?_eq_none.2 fun x hx => by
    obtain ⟨i, hi, rfl⟩ := List.mem_map.1 hx
    simp [h i (List.mem_range.1 hi)]

/-- Entries left out or changed under other keys do not change what a key reads as. -/
theorem keyGet_filterMap {α β : Type} (l : List (Nat × α)) {g : Nat × α → Option (Nat × β)} {k : Nat} {f : α → β}
    (hk : ∀ v, g (k, v) = some (k, f v)) (hg : ∀ e e', g e = some e' → e'.1 = e.1) :
    keyGet (l.filterMap g) k = (keyGet l k).map f := by
  induction l with
  | nil => rfl
  | cons c l ih =>
    obtain ⟨a, v⟩ := c
    by_cases ha : k = a
    · subst ha
      rw [List.filterMap_cons, hk]
      simp [keyGet]
    · have hne {x : β} {b : Nat} (h : g (a, v) = some (b, x)) : k ≠ b := by
        rw [show b = a from hg _ _ h]
        exact ha
      rw [List.filterMap_cons]
      rcases h : g (a, v) with _ | ⟨b, x⟩
      · simp [keyGet, ha, ih]
      · simp [keyGet, ha, hne h, ih]

/-- What a store reads as without the entries of some keys. -/
theorem keyGet_filter {α : Type} (l : List (Nat × α)) (p : Nat → Bool) (k : Nat) :
    keyGet (l.filter fun e => p e.1) k = if p k = true then keyGet l k else none := by
  induction l with
  | nil => simp [keyGet]
  | cons c l ih =>
    obtain ⟨a, v⟩ := c
    by_cases hp : p a = true
    · rw [List.filter_cons_of_pos (by simpa using hp), keyGet, keyGet, ih]
      by_cases ha : k = a
      · simp [ha, hp]
      · simp [ha]
    · rw [List.filter_cons_of_neg (by simpa using hp), ih, keyGet]
      by_cases ha : k = a
      · simp [ha, hp]
      · simp [ha]

/-! ### Sectors (R103) -/

/-- Putting a spool leaves every other item. -/
theorem State.item_put_spool (s : State) (p : Spool) {part : Part} (h : part ≠ .spool) :
    State.item { s with spool := p } part = s.item part := by
  cases part
  case spool => exact absurd rfl h
  all_goals rfl

theorem Spool.sector_setSector {p : Spool} (h : keysRising p.sectors = true) (n m : Nat) (w : SectorWork) :
    (p.setSector n w).sector m = if m = n then w else p.sector m := by
  unfold Spool.sector Spool.setSector
  by_cases hw : w = ⟨.empty, false, false, false⟩
  · simp only [hw, if_true, keyGet_keyDel h]
    split <;> rfl
  · simp only [hw, if_false, keyGet_keySet]
    split <;> rfl

theorem Spool.sector_setSector_ne (p : Spool) {n m : Nat} (w : SectorWork) (hm : m ≠ n) :
    (p.setSector n w).sector m = p.sector m := by
  unfold Spool.sector Spool.setSector
  by_cases hw : w = ⟨.empty, false, false, false⟩
  · simp only [hw, if_true, keyGet_keyDel_ne _ hm]
  · simp only [hw, if_false, keyGet_keySet, hm, if_false]

theorem Spool.setSector_rising {p : Spool} (h : keysRising p.sectors = true) (n : Nat) (w : SectorWork) :
    keysRising (p.setSector n w).sectors = true := keysRising_put h _ n w

/-- No sector is FILLING exactly when none reads so. -/
theorem Spool.filling_eq_none {p : Spool} (h : keysRising p.sectors = true) (hn : ∀ m, (p.sector m).state ≠ .filling) :
    p.filling = none := by
  rw [Spool.filling, Option.map_eq_none_iff, List.find?_eq_none]
  rintro ⟨m, w⟩ hw
  have := hn m
  rw [Spool.sector, (mem_iff_keyGet h m w).1 hw] at this
  simpa using this

/-- A sector is live while it holds a FILLED slot or a slot with a pending mark (R109, R113). -/
theorem Spool.sectorLive_iff (p : Spool) (n : Nat) : p.sectorLive n = true ↔
    ∃ e ∈ p.slots, e.1 / 32 = n ∧ ((∃ q, e.2 = .filled q) ∨ (∃ q, e.2 = .delivered q true)) := by
  simp only [Spool.sectorLive, Spool.sectorSlots, List.any_eq_true, List.mem_filter, beq_iff_eq, sectorOf, and_assoc]
  refine exists_congr fun e => and_congr_right fun _ => and_congr_right fun _ => ?_
  cases h : e.2 <;> simp [SlotState.filledPos, SlotState.markPending]

theorem Spool.emptySlot_some {p : Spool} {n i : Nat} (hi : i < 32) (h : keyGet p.slots (32 * n + i) = none)
    (hlow : ∀ j, j < i → keyGet p.slots (32 * n + j) ≠ none) : p.emptySlot n = some (32 * n + i) :=
  find_map_range (f := (32 * n + ·)) hi (by simp [h]) fun j hj => by
    simpa [Option.isSome_iff_ne_none] using hlow j hj

theorem Spool.emptySlot_none {p : Spool} {n : Nat} (h : ∀ i, i < 32 → keyGet p.slots (32 * n + i) ≠ none) :
    p.emptySlot n = none :=
  find_map_range_none (f := (32 * n + ·)) fun i hi => by
    simpa [Option.isSome_iff_ne_none] using h i hi

theorem Spool.emptySlot_isSome {p : Spool} {n : Nat} (h : ∃ i, i < 32 ∧ keyGet p.slots (32 * n + i) = none) :
    (p.emptySlot n).isSome = true := by
  obtain ⟨i, hi, h⟩ := h
  rw [Spool.emptySlot, List.find?_isSome]
  exact ⟨32 * n + i, List.mem_map.2 ⟨i, List.mem_range.2 hi, rfl⟩, by simp [h]⟩

/-! ### The ring order (R109) -/

section Ring
variable {p : Spool} {n : Nat}

/-- The first EMPTY sector in ring order becomes FILLING and the fill point. -/
theorem Spool.fillAfter_some {i : Nat} (hi : i < 63) (he : (p.sector ((n + 1 + i) % 63)).state = .empty)
    (hlow : ∀ j, j < i → (p.sector ((n + 1 + j) % 63)).state ≠ .empty) :
    p.fillAfter (some n) = { p.setSector ((n + 1 + i) % 63)
      { p.sector ((n + 1 + i) % 63) with state := .filling } with fillPoint := some ((n + 1 + i) % 63) } := by
  have hnext : p.nextEmpty (some n) = some ((n + 1 + i) % 63) :=
    find_map_range (f := fun i => (n + 1 + i) % 63) hi (by simpa using he) fun j hj => by simpa using hlow j hj
  simp only [Spool.fillAfter, hnext]

theorem Spool.fillAfter_none (h : ∀ i, i < 63 → (p.sector ((n + 1 + i) % 63)).state ≠ .empty) :
    p.fillAfter (some n) = p := by
  have hnext : p.nextEmpty (some n) = none :=
    find_map_range_none (f := fun i => (n + 1 + i) % 63) fun i hi => by simpa using h i hi
  simp only [Spool.fillAfter, hnext]

end Ring

/-! ### The pending batch (R114) -/

/-- A batch as it stands after sectors joined the old one: their numbers added, the close timer of an open batch anew. -/
def Batch.Joined (old : Option Batch) (new : Nat → Prop) (now : Nat) (b : Batch) : Prop :=
  (∀ m, m ∈ b.sectors ↔ new m ∨ ∃ o, old = some o ∧ m ∈ o.sectors) ∧
  (∀ o, old = some o → b.closed = o.closed) ∧ (old = none → b.closed = false) ∧
  b.timer = (if b.closed then none else some ⟨now, 80000⟩)

theorem State.joinBatch_joined (s : State) (n : Nat) : ∃ b, s.joinBatch n = { s with spool := { s.spool with batch := some b } } ∧
    b.Joined s.spool.batch (· = n) s.refTime := by
  refine ⟨_, rfl, ?_⟩
  rcases s.spool.batch with _ | b
  · simp [Batch.Joined, State.startTimer]
  · refine ⟨fun m => ?_, by simp, by simp, by simp [State.startTimer]⟩
    by_cases hc : n ∈ b.sectors
    · simp only [List.contains_iff_mem, hc, if_true, Option.some.injEq, exists_eq_left']
      exact ⟨.inr, fun h => h.elim (fun h => h ▸ hc) id⟩
    · simp [hc, or_comm]

/-- Sectors that join one after another. -/
theorem State.joinBatch_foldl (l : List Nat) (s : State) : ∃ o, l.foldl (fun u n => u.joinBatch n) s =
      { s with spool := { s.spool with batch := o } } ∧ (l = [] → o = s.spool.batch) ∧
    (l ≠ [] → ∃ b, o = some b ∧ b.Joined s.spool.batch (· ∈ l) s.refTime) := by
  induction l generalizing s with
  | nil => exact ⟨_, rfl, fun _ => rfl, fun h => absurd rfl h⟩
  | cons n l ih =>
    obtain ⟨b, hb, hj⟩ := s.joinBatch_joined n
    obtain ⟨o, ho, hnil, hcons⟩ := ih (s.joinBatch n)
    rw [hb] at ho hnil hcons
    refine ⟨o, by rw [List.foldl_cons, hb, ho], by simp, fun _ => ?_⟩
    by_cases hl : l = []
    · subst hl
      exact ⟨b, hnil rfl, by simpa using hj⟩
    · obtain ⟨b', hb', hm, hclosed, -, htimer⟩ := hcons hl
      obtain ⟨hm0, hclosed0, hopen0, -⟩ := hj
      refine ⟨b', hb', fun m => ?_, fun x hx => (hclosed b rfl).trans (hclosed0 x hx), fun hx => (hclosed b rfl).trans (hopen0 hx),
        htimer⟩
      simp only [hm, Option.some.injEq, exists_eq_left', hm0, List.mem_cons]
      tauto

/-! ### Retirement of a sector (R109, R113) -/

section Retire
variable {s : State} {n : Nat}

theorem State.retireSector_weak (h : (s.spool.sector n).weak = true) : s.retireSector n =
    { s with spool := s.spool.setSector n { s.spool.sector n with state := .bad, badMark := true } } := if_pos h

theorem State.retireSector_sound (h : (s.spool.sector n).weak = false) : s.retireSector n = State.joinBatch
    { s with spool := s.spool.setSector n { s.spool.sector n with state := .reclaim } } n := if_neg (by simp [h])

/-- What a sector that is not live leaves: BAD with its mark pending when weak, else RECLAIM in the batch; all else as it
was. -/
theorem State.retireSector_eq (h : keysRising s.spool.sectors = true) :
    let t := s.retireSector n
    let w := s.spool.sector n
    keysRising t.spool.sectors = true ∧ (∀ m, m ≠ n → t.spool.sector m = s.spool.sector m) ∧
    t.spool = { s.spool with sectors := t.spool.sectors, batch := t.spool.batch } ∧
    (w.weak = true → t.spool.sector n = { w with state := .bad, badMark := true } ∧ t.spool.batch = s.spool.batch) ∧
    (w.weak = false → t.spool.sector n = { w with state := .reclaim } ∧
      ∃ b, t.spool.batch = some b ∧ b.Joined s.spool.batch (· = n) s.refTime) := by
  intro t w
  by_cases hw : w.weak = true
  · have ht : t = _ := State.retireSector_weak hw
    rw [ht]
    exact ⟨Spool.setSector_rising h _ _, fun m hm => Spool.sector_setSector_ne _ _ hm, rfl,
      fun _ => ⟨(Spool.sector_setSector h n n _).trans (if_pos rfl), rfl⟩, fun h' => by simp [hw] at h'⟩
  · have ht : t = _ := State.retireSector_sound (Bool.eq_false_iff.2 hw)
    let reclaimed := s.spool.setSector n { w with state := .reclaim }
    obtain ⟨b, hb, hj⟩ := State.joinBatch_joined { s with spool := reclaimed } n
    have hsp : t.spool = { reclaimed with batch := some b } := by rw [ht, hb]
    have hsector : reclaimed.sector n = { w with state := .reclaim } := (Spool.sector_setSector h n n _).trans (if_pos rfl)
    rw [hsp]
    exact ⟨Spool.setSector_rising h n { w with state := .reclaim }, fun m hm => s.spool.sector_setSector_ne { w with state := .reclaim } hm, rfl,
      fun h' => absurd h' hw, fun _ => ⟨hsector, b, rfl, hj⟩⟩

end Retire

/-! ### The FILLING sector is left (R109) -/

/-- The FILLING sector, with no EMPTY slot, becomes FULL or is retired (R109). -/
def State.leaveFilling (s : State) (n : Nat) : State :=
  if s.spool.sectorLive n then { s with spool := s.spool.setSector n { s.spool.sector n with state := .full } }
  else s.retireSector n

theorem State.sectorChange_leaves {s : State} {n : Nat} (hf : s.spool.filling = some n) (h : s.spool.emptySlot n = none) :
    s.sectorChange = { s.leaveFilling n with spool := (s.leaveFilling n).spool.fillAfter (some n) } := by
  simp only [State.sectorChange, hf, h, State.leaveFilling]
  rfl

theorem State.leaveFilling_eq {s : State} {n : Nat} (h : keysRising s.spool.sectors = true) :
    let u := s.leaveFilling n
    let w := s.spool.sector n
    keysRising u.spool.sectors = true ∧ (∀ m, m ≠ n → u.spool.sector m = s.spool.sector m) ∧
    u.spool = { s.spool with sectors := u.spool.sectors, batch := u.spool.batch } ∧
    (s.spool.sectorLive n = true → u.spool.sector n = { w with state := .full } ∧ u.spool.batch = s.spool.batch) ∧
    (¬ s.spool.sectorLive n = true → w.weak = true →
      u.spool.sector n = { w with state := .bad, badMark := true } ∧ u.spool.batch = s.spool.batch) ∧
    (¬ s.spool.sectorLive n = true → w.weak = false → u.spool.sector n = { w with state := .reclaim } ∧
      ∃ b, u.spool.batch = some b ∧ b.Joined s.spool.batch (· = n) s.refTime) := by
  intro u w
  by_cases hl : s.spool.sectorLive n = true
  · have hu : u = _ := if_pos hl
    rw [hu]
    exact ⟨Spool.setSector_rising h _ _, fun m hm => Spool.sector_setSector_ne _ _ hm, rfl,
      fun _ => ⟨(Spool.sector_setSector h n n _).trans (if_pos rfl), rfl⟩, fun h' => absurd hl h', fun h' => absurd hl h'⟩
  · have hu : u = s.retireSector n := if_neg hl
    obtain ⟨h1, h2, h3, h4, h5⟩ := State.retireSector_eq (s := s) (n := n) h
    rw [hu]
    exact ⟨h1, h2, h3, fun h' => absurd h' hl, fun _ => h4, fun _ => h5⟩

/-- A sector that was FILLING is left in another state, and not EMPTY. -/
theorem State.leaveFilling_state {s : State} {n : Nat} (h : keysRising s.spool.sectors = true) :
    ((s.leaveFilling n).spool.sector n).state ≠ .empty ∧ ((s.leaveFilling n).spool.sector n).state ≠ .filling := by
  obtain ⟨-, -, -, hlive, hweak, hsound⟩ := State.leaveFilling_eq (s := s) (n := n) h
  by_cases hl : s.spool.sectorLive n = true
  · simp [(hlive hl).1]
  · by_cases hw : (s.spool.sector n).weak = true
    · simp [(hweak hl hw).1]
    · simp [(hsound hl (Bool.eq_false_iff.2 hw)).1]

/-- Settles O36, by what becomes of the FILLING sector and then the first EMPTY one in ring order. -/
theorem sectorsAreTakenInRingOrder : Obligations.SectorsAreTakenInRingOrder := by
  intro s n hr hn hf hst t next
  refine ⟨fun h => ?_, fun h => ?_⟩
  · show s.sectorChange = s
    simp only [State.sectorChange, hf]
    exact if_pos (Spool.emptySlot_isSome h)
  · intro live
    have hlive : s.spool.sectorLive n = true ↔ live := s.spool.sectorLive_iff n
    have ht : t = _ := State.sectorChange_leaves hf (Spool.emptySlot_none h)
    obtain ⟨hur, hother, hspool, hfull, hweak, hsound⟩ := State.leaveFilling_eq (s := s) (n := n) hr
    obtain ⟨hempty, hfilling⟩ := State.leaveFilling_state (s := s) (n := n) hr
    generalize hu : s.leaveFilling n = u at *
    have hpoint : u.spool.fillPoint = s.spool.fillPoint := by rw [hspool]
    have hslots : u.spool.slots = s.spool.slots := by rw [hspool]
    have hstate (m : Nat) : (u.spool.sector m).state = .empty ↔ (s.spool.sector m).state = .empty := by
      by_cases hm : m = n
      · subst hm
        simp [hempty, hst]
      · rw [hother m hm]
    have hne {i : Nat} (he : (s.spool.sector (next i)).state = .empty) : next i ≠ n := fun hin => by
      rw [hin, hst] at he
      cases he
    -- the sector that becomes FILLING is not the one that is left
    have hfill : (∃ i, i < 63 ∧ (s.spool.sector (next i)).state = .empty ∧
          (∀ j, j < i → (s.spool.sector (next j)).state ≠ .empty) ∧
          t.spool = { u.spool.setSector (next i) { s.spool.sector (next i) with state := .filling } with
            fillPoint := some (next i) }) ∨
        ((∀ i, i < 63 → (s.spool.sector (next i)).state ≠ .empty) ∧ t.spool = u.spool) := by
      by_cases hex : ∃ i, i < 63 ∧ (s.spool.sector (next i)).state = .empty
      · obtain ⟨hi, he⟩ := Nat.find_spec hex
        have hlow (j : Nat) (hj : j < Nat.find hex) : (s.spool.sector (next j)).state ≠ .empty := fun hj' =>
          Nat.find_min hex hj ⟨by omega, hj'⟩
        refine .inl ⟨_, hi, he, hlow, ?_⟩
        have hafter := Spool.fillAfter_some (p := u.spool) (n := n) hi ((hstate _).2 he) fun j hj => mt (hstate _).1 (hlow j hj)
        rw [hother _ (hne he)] at hafter
        rw [ht]
        exact hafter
      · have hnone : ∀ i, i < 63 → (s.spool.sector (next i)).state ≠ .empty := fun i hi he => hex ⟨i, hi, he⟩
        refine .inr ⟨hnone, ?_⟩
        rw [ht]
        exact Spool.fillAfter_none fun i hi => mt (hstate _).1 (hnone i hi)
    have hbatch : t.spool.batch = u.spool.batch := by
      obtain ⟨_, -, -, -, hsp⟩ | ⟨-, hsp⟩ := hfill
      · rw [hsp]
        rfl
      · rw [hsp]
    have hsector : t.spool.sector n = u.spool.sector n := by
      obtain ⟨i, -, he, -, hsp⟩ | ⟨-, hsp⟩ := hfill <;> rw [hsp]
      exact u.spool.sector_setSector_ne { s.spool.sector (next i) with state := .filling } (hne he).symm
    refine ⟨fun hl => ?_, fun hl hw => ?_, fun hl hw => ?_, fun i hi he hlow => ?_, fun hnone => ?_, ?_,
      fun k hk => s.sectorChange_item hk⟩
    · rw [hsector, hbatch]
      exact hfull (hlive.2 hl)
    · rw [hsector, hbatch]
      exact hweak (mt hlive.1 hl) hw
    · rw [hsector, hbatch]
      exact hsound (mt hlive.1 hl) hw
    · obtain ⟨i', hi', he', hlow', hsp⟩ | ⟨hnone, -⟩ := hfill
      · obtain rfl : i' = i := by
          by_contra hii
          rcases Nat.lt_or_gt_of_ne hii with hlt | hlt
          · exact hlow i' hlt he'
          · exact hlow' i hlt he
        rw [hsp]
        let w : SectorWork := { s.spool.sector (next i') with state := .filling }
        exact ⟨rfl, (Spool.sector_setSector hur (next i') (next i') w).trans (if_pos rfl),
          fun m hmn hmi => (u.spool.sector_setSector_ne w hmi).trans (hother m hmn)⟩
      · exact absurd he (hnone i hi)
    · obtain ⟨i, hi, he, -, -⟩ | ⟨-, hsp⟩ := hfill
      · exact absurd he (hnone i hi)
      · rw [hsp]
        refine ⟨hpoint, hother, fun hm => Spool.filling_eq_none hur fun m => ?_⟩
        by_cases hmn : m = n
        · rw [hmn]
          exact hfilling
        · rw [hother m hmn]
          exact hm m hmn
    · obtain ⟨_, -, -, -, hsp⟩ | ⟨-, hsp⟩ := hfill <;> (rw [hsp]; exact hslots)

/-! ### Marks and reads end (R111, R112, R113, R128) -/

section Marks
variable {s : State} {m : MarkTarget}

theorem State.markEnd_of (h : s.spool.op = .markProgram m) : s.markEnd = (State.reclaimFull
    { s with array := s.array.setMark m, spool := { s.spool.clearPending m with op := .idle } } m.sector).runToll := by
  simp only [State.markEnd, h]
  rfl

theorem State.markLimit_of (h : s.spool.op = .markProgram m) :
    s.markLimit = (State.reclaimFull { s with
      array := s.array.abandonMark (Config.freeBit s.freeCount) m
      freeCount := s.freeCount + 1
      spool := { (s.spool.clearPending m).weakenFor m with
        markFaults := bump ((s.spool.clearPending m).weakenFor m).markFaults, op := .idle } } m.sector).runToll := by
  simp only [State.markLimit, h]
  rfl

theorem State.markEnd_not (h : ∀ m, s.spool.op ≠ .markProgram m) : s.markEnd = s := by
  unfold State.markEnd
  split
  next m hm => exact absurd hm (h m)
  next => rfl

theorem State.markLimit_not (h : ∀ m, s.spool.op ≠ .markProgram m) : s.markLimit = s := by
  unfold State.markLimit
  split
  next m hm => exact absurd hm (h m)
  next => rfl

end Marks

section Reads
variable {s : State} {q : Position} {k : Nat}

theorem State.endRead_of (h : s.spool.op = .read q k) (ended : Bool) :
    s.endRead ended = (s.opDone.readResult q (if ended then s.array.recordOf k else none)).runToll := by
  simp only [State.endRead, h]

theorem State.endRead_not (h : ∀ q k, s.spool.op ≠ .read q k) (ended : Bool) : s.endRead ended = s := by
  unfold State.endRead
  split
  next q k hm => exact absurd hm (h q k)
  next => rfl

theorem window_any_iff (w : List WindowEntry) (q : Position) : (w.any fun e => e.pos == q) = true ↔ ∃ e ∈ w, e.pos = q := by
  simp

theorem State.readResult_unknown (h : ¬ ∃ e ∈ s.sending.window, e.pos = q) (r : Option TollRecord) : s.readResult q r = s :=
  if_neg (mt (window_any_iff _ q).1 h)

theorem State.readResult_some (h : ∃ e ∈ s.sending.window, e.pos = q) (r : TollRecord) : s.readResult q (some r) =
    { s with sending := { s.sending with
      window := s.sending.window.map fun e => if e.pos = q then { e with record := some r } else e } } :=
  if_pos ((window_any_iff _ q).2 h)

theorem State.readResult_none (h : ∃ e ∈ s.sending.window, e.pos = q) : s.readResult q none =
    { s with sending := { s.sending with window := s.sending.window.takeWhile fun e => e.pos != q } }.windowIntake :=
  if_pos ((window_any_iff _ q).2 h)

end Reads

/-- Settles O39, by the operation that ended and, for a mark, its target. -/
theorem marksAndReadsEnd : Obligations.MarksAndReadsEnd := by
  intro s
  refine ⟨fun k p c ho hk hc => ?_, fun n ho => ?_,
    fun h => ⟨congrArg Host.Outcome.next (State.markEnd_not h), congrArg Host.Outcome.next (State.markLimit_not h)⟩,
    fun q k ho => ?_,
    fun h => ⟨congrArg Host.Outcome.next (State.endRead_not h true), congrArg Host.Outcome.next (State.endRead_not h false)⟩,
    fun n hr => ?_⟩
  · intro cleared w
    have hclear : s.spool.clearPending (.delivered k) = { s.spool with slots := keySet s.spool.slots k (.delivered p false) } := by
      simp only [Spool.clearPending, hk]
    have hset : s.array.setMark (.delivered k) =
        { s.array with slots := keySet s.array.slots k { c with delivered := true } } := by
      simp only [TollArray.setMark, hc]
    refine ⟨congrArg Host.Outcome.next ((State.markEnd_of ho).trans ?_), congrArg Host.Outcome.next ((State.markLimit_of ho).trans ?_)⟩
    · rw [hclear, hset]
      rfl
    · rw [hclear]
      rfl
  · intro isWeak w unmarked cleared hd set
    rcases ho with ho | ho
    · have hw : isWeak = true := decide_eq_true ho
      have hun : unmarked = { w with weakMark := false } := by simp [unmarked, hw]
      have hset : set = s.array.setMark (.weak n) := by simp [set, hd, hw, TollArray.setMark]
      have hcl : cleared = { s.spool.clearPending (.weak n) with op := .idle } := by
        simp only [cleared, hun]
        rfl
      refine ⟨congrArg Host.Outcome.next ((State.markEnd_of ho).trans ?_), congrArg Host.Outcome.next ((State.markLimit_of ho).trans ?_)⟩
      · rw [hset, hcl]
        rfl
      · rw [hset, hcl]
        rfl
    · have hw : isWeak = false := decide_eq_false (by simp [ho])
      have hun : unmarked = { w with badMark := false } := by simp [unmarked, hw]
      have hset : set = s.array.setMark (.bad n) := by simp [set, hd, hw, TollArray.setMark]
      have hcl : cleared = { s.spool.clearPending (.bad n) with op := .idle } := by
        simp only [cleared, hun]
        rfl
      refine ⟨congrArg Host.Outcome.next ((State.markEnd_of ho).trans ?_), congrArg Host.Outcome.next ((State.markLimit_of ho).trans ?_)⟩
      · rw [hset, hcl]
        rfl
      · rw [hset, hcl]
        rfl
  · intro idle windowed found
    have hread (ended : Bool) {t : State} (ht : idle.readResult q (if ended then s.array.recordOf k else none) = t) :
        s.endRead ended = t.runToll := (State.endRead_of ho ended).trans (congrArg State.runToll ht)
    refine ⟨fun r hrec hf => congrArg Host.Outcome.next (hread true ?_),
      fun hf => congrArg Host.Outcome.next (hread false (State.readResult_none hf)),
      fun hf => ⟨congrArg Host.Outcome.next (hread true (State.readResult_unknown (s := idle) hf _)),
        congrArg Host.Outcome.next (hread false (State.readResult_unknown (s := idle) hf _))⟩⟩
    have hrecord : s.array.recordOf k = some r := hrec
    rw [if_pos rfl, hrecord]
    exact State.readResult_some (s := idle) hf r
  · intro t w live
    have hlive : s.spool.sectorLive n = true ↔ live := s.spool.sectorLive_iff n
    refine ⟨fun h => if_neg fun hc => ?_, fun hfull hl => ?_⟩
    · rcases h with h | h
      · exact h hc.1
      · exact absurd (hlive.2 h) (by simp [hc.2])
    · have ht : t = s.retireSector n := if_pos ⟨hfull, Bool.eq_false_iff.2 (mt hlive.1 hl)⟩
      obtain ⟨-, hother, hspool, hweak, hsound⟩ := State.retireSector_eq (s := s) (n := n) hr
      rw [ht]
      exact ⟨hother, fun k hk => s.retireSector_item n hk, hspool, hweak, hsound⟩

/-! ### Headers and slots of the array (R101, R116) -/

theorem TollArray.header_keyDel {a : TollArray} (h : a.Rising) (n m : Nat) :
    TollArray.header { a with headers := keyDel a.headers n } m = if m = n then ⟨false, false, false⟩ else a.header m := by
  unfold TollArray.header
  rw [keyGet_keyDel h.1]
  split <;> rfl

/-- An erase in part erases the sector's header and leaves the other sectors. -/
theorem TollArray.eraseInPart_other (a : TollArray) (free : Nat → Bool) {n m : Nat} (hm : m ≠ n) :
    (a.eraseInPart free n).header m = a.header m ∧
    ∀ k, k / 32 = m → keyGet (a.eraseInPart free n).slots k = keyGet a.slots k := by
  refine ⟨congrArg (Option.getD · _) (keyGet_keyDel_ne a.headers hm), fun k hk => ?_⟩
  refine (keyGet_filterMap (f := id) a.slots (fun v => if_pos (by simpa [sectorOf, hk] using hm)) fun e e' he => ?_).trans (by simp)
  (repeat' split at he) <;> cases he <;> rfl

theorem TollArray.eraseSector_same {a : TollArray} (h : a.Rising) (n : Nat) :
    (a.eraseSector n).header n = ⟨false, false, false⟩ ∧ ∀ k, k / 32 = n → keyGet (a.eraseSector n).slots k = none :=
  ⟨(TollArray.header_keyDel h n n).trans (if_pos rfl), fun k hk =>
    (keyGet_filter a.slots (fun k => sectorOf k != n) k).trans (if_neg (by simp [sectorOf, hk]))⟩

theorem TollArray.eraseSector_other (a : TollArray) {n m : Nat} (hm : m ≠ n) :
    (a.eraseSector n).header m = a.header m ∧ ∀ k, k / 32 = m → keyGet (a.eraseSector n).slots k = keyGet a.slots k :=
  ⟨congrArg (Option.getD · _) (keyGet_keyDel_ne a.headers hm), fun k hk =>
    (keyGet_filter a.slots (fun k => sectorOf k != n) k).trans (if_pos (by simpa [sectorOf, hk] using hm))⟩

/-! ### The sectors of an erase (R116) -/

/-- Whether the array reports a sector as not erased. -/
def Failed (failed : List (Fin 63)) (n : Nat) : Prop := ∃ i ∈ failed, (i : Nat) = n

/-- A sector as an erase that checked leaves it, in working memory and in the array. -/
def State.Erased (s : State) (n : Nat) : Prop :=
  s.spool.sector n = ⟨.empty, false, false, false⟩ ∧ s.array.header n = ⟨false, false, false⟩ ∧
  ∀ k, k / 32 = n → keyGet s.spool.slots k = none ∧ keyGet s.array.slots k = none

/-- A sector as an erase that did not check leaves it in working memory. -/
def State.EraseFailed (s : State) (n : Nat) : Prop := (s.spool.sector n).state = .bad ∧ (s.spool.sector n).badMark = true

/-- A sector, its header and its slots read in one state as in another. -/
def State.SameSector (s t : State) (n : Nat) : Prop :=
  t.spool.sector n = s.spool.sector n ∧ t.array.header n = s.array.header n ∧
  ∀ k, k / 32 = n → keyGet t.spool.slots k = keyGet s.spool.slots k ∧ keyGet t.array.slots k = keyGet s.array.slots k

theorem State.SameSector.trans {s t u : State} {n : Nat} (h : s.SameSector t n) (h' : t.SameSector u n) : s.SameSector u n :=
  ⟨h'.1.trans h.1, h'.2.1.trans h.2.1, fun k hk => ⟨((h'.2.2 k hk).1).trans (h.2.2 k hk).1, ((h'.2.2 k hk).2).trans (h.2.2 k hk).2⟩⟩

theorem State.Erased.of_same {s t : State} {n : Nat} (h : s.Erased n) (hs : s.SameSector t n) : t.Erased n :=
  ⟨hs.1.trans h.1, hs.2.1.trans h.2.1, fun k hk => ⟨((hs.2.2 k hk).1).trans (h.2.2 k hk).1, ((hs.2.2 k hk).2).trans (h.2.2 k hk).2⟩⟩

theorem State.EraseFailed.of_same {s t : State} {n : Nat} (h : s.EraseFailed n) (hs : s.SameSector t n) : t.EraseFailed n := by
  obtain ⟨hw, -, -⟩ := hs
  rw [State.EraseFailed, hw]
  exact h

section Check
variable {failed : List (Fin 63)} {s : State} {n : Nat}

theorem checkFails_iff : failed.any (fun i => (i : Nat) == n) = true ↔ Failed failed n := by
  simp [Failed]

theorem State.checkSector_failed (h : Failed failed n) : State.checkSector failed s n = s.sectorFailed n :=
  if_pos (checkFails_iff.2 h)

theorem State.checkSector_erased (h : ¬ Failed failed n) : State.checkSector failed s n = s.sectorErased n :=
  if_neg (mt checkFails_iff.1 h)

theorem State.checkSector_erases (hs : s.StoresRising) (h : ¬ Failed failed n) : (State.checkSector failed s n).Erased n := by
  rw [State.checkSector_erased h]
  obtain ⟨hheader, hslots⟩ := TollArray.eraseSector_same hs.array n
  refine ⟨(Spool.sector_setSector hs.spool.2 n n ⟨.empty, false, false, false⟩).trans (if_pos rfl), hheader,
    fun k hk => ⟨(keyGet_filter s.spool.slots (fun k => sectorOf k != n) k).trans (if_neg (by simp [sectorOf, hk])), hslots k hk⟩⟩

theorem State.checkSector_fails (hs : s.StoresRising) (h : Failed failed n) : (State.checkSector failed s n).EraseFailed n := by
  rw [State.checkSector_failed h]
  have hw : (s.sectorFailed n).spool.sector n = { s.spool.sector n with state := .bad, badMark := true } :=
    (Spool.sector_setSector hs.spool.2 n n _).trans (if_pos rfl)
  rw [State.EraseFailed, hw]
  exact ⟨rfl, rfl⟩

theorem State.checkSector_same {m : Nat} (hm : m ≠ n) : s.SameSector (State.checkSector failed s n) m := by
  by_cases h : Failed failed n
  · rw [State.checkSector_failed h]
    obtain ⟨hheader, hslots⟩ := s.array.eraseInPart_other (fun k => Config.freeBit (s.freeCount + k)) hm
    exact ⟨s.spool.sector_setSector_ne { s.spool.sector n with state := .bad, badMark := true } hm, hheader,
      fun k hk => ⟨rfl, hslots k hk⟩⟩
  · rw [State.checkSector_erased h]
    obtain ⟨hheader, hslots⟩ := s.array.eraseSector_other hm
    exact ⟨s.spool.sector_setSector_ne ⟨.empty, false, false, false⟩ hm, hheader, fun k hk =>
      ⟨(keyGet_filter s.spool.slots (fun k => sectorOf k != n) k).trans (if_pos (by simpa [sectorOf, hk] using hm)), hslots k hk⟩⟩

/-- Of the spool a check changes the slots and the sectors alone. -/
theorem State.checkSector_spool : (State.checkSector failed s n).spool = { s.spool with
    slots := (State.checkSector failed s n).spool.slots, sectors := (State.checkSector failed s n).spool.sectors } := by
  unfold State.checkSector
  split <;> rfl

theorem State.checkSector_marks : (State.checkSector failed s n).array.marks = s.array.marks := by
  unfold State.checkSector
  split <;> rfl

end Check

/-- A fold's step for one element, kept by the steps for the others, holds of the fold. -/
theorem foldl_establishes {α β : Type} {f : β → α → β} {I P : β → Prop} (hI : ∀ b a, I b → I (f b a)) {a : α}
    (hset : ∀ b, I b → P (f b a)) (hkeep : ∀ b a', a' ≠ a → P b → P (f b a')) {l : List α} (ha : a ∈ l) {b : β} (hb : I b) :
    P (l.foldl f b) := by
  have hrest (l : List α) {b : β} (hb : I b) (hP : P b) : P (l.foldl f b) := by
    induction l generalizing b with
    | nil => exact hP
    | cons x l ih =>
      refine ih (hI b x hb) ?_
      by_cases hx : x = a
      · exact hx ▸ hset b hb
      · exact hkeep b x hx hP
  induction l generalizing b with
  | nil => cases ha
  | cons x l ih =>
    rcases List.mem_cons.1 ha with rfl | hl
    · exact hrest l (hI b a hb) (hset b hb)
    · exact ih hl (hI b x hb)

/-- The state after each sector of a batch was checked. -/
def State.checked (s : State) (failed : List (Fin 63)) (l : List Nat) : State := l.foldl (State.checkSector failed) s

section Checked
variable (s : State) (failed : List (Fin 63)) (l : List Nat)

theorem State.checked_spool : (s.checked failed l).spool = { s.spool with
    slots := (s.checked failed l).spool.slots, sectors := (s.checked failed l).spool.sectors } :=
  List.foldlRecOn l _ (motive := fun t : State => t.spool = { s.spool with slots := t.spool.slots, sectors := t.spool.sectors })
    rfl fun t ht n _ => by
      rw [State.checkSector_spool, ht]

theorem State.checked_marks : (s.checked failed l).array.marks = s.array.marks :=
  List.foldlRecOn l _ (motive := fun t : State => t.array.marks = s.array.marks) rfl fun _ ht _ _ =>
    State.checkSector_marks.trans ht

theorem State.checked_same {n : Nat} (h : n ∉ l) : s.SameSector (s.checked failed l) n :=
  List.foldlRecOn l _ (motive := fun t : State => s.SameSector t n) ⟨rfl, rfl, fun _ _ => ⟨rfl, rfl⟩⟩ fun _ ht _ hm =>
    ht.trans (State.checkSector_same fun hnm => h (hnm ▸ hm))

variable {s l} (hs : s.StoresRising)
include hs

theorem State.checked_erases {n : Nat} (hn : n ∈ l) (h : ¬ Failed failed n) : (s.checked failed l).Erased n :=
  foldl_establishes (I := State.StoresRising) (P := fun t => t.Erased n) (fun _ a ht => ht.checkSector failed a)
    (fun _ ht => State.checkSector_erases ht h) (fun _ _ hm ht => ht.of_same (State.checkSector_same hm.symm)) hn hs

theorem State.checked_fails {n : Nat} (hn : n ∈ l) (h : Failed failed n) : (s.checked failed l).EraseFailed n :=
  foldl_establishes (I := State.StoresRising) (P := fun t => t.EraseFailed n) (fun _ a ht => ht.checkSector failed a)
    (fun _ ht => State.checkSector_fails ht h) (fun _ _ hm ht => ht.of_same (State.checkSector_same hm.symm)) hn hs

end Checked

section EndErase
variable {s : State} {failed : List (Fin 63)} {limit : Bool}

theorem State.endErase_none (h : s.spool.erase = none) : s.endErase failed limit = s := by
  simp only [State.endErase, h]

variable {e : EraseRun} (h : s.spool.erase = some e)
include h

theorem State.endErase_not (hp : e.phase.ends limit = false) : s.endErase failed limit = s := by
  simp only [State.endErase, h]
  exact if_pos hp

theorem State.endErase_of (hp : e.phase.ends limit = true) : s.endErase failed limit =
    (State.endFull { s.checked failed e.sectors with spool := { (s.checked failed e.sectors).spool with
      erase := none
      eraseFaults := if limit then bump (s.checked failed e.sectors).spool.eraseFaults
        else (s.checked failed e.sectors).spool.eraseFaults } }).runToll := by
  simp only [State.endErase, h]
  exact if_neg (by simp [hp])

end EndErase

/-- Settles O40, by the check of each sector and the ring order of a full spool. -/
theorem erasesEnd : Obligations.ErasesEnd := by
  refine ⟨fun s e failed => ⟨fun he hp => congrArg Host.Outcome.next (State.endErase_not he (by rw [hp]; rfl)),
    fun he hp => congrArg Host.Outcome.next (State.endErase_not he ?_),
    fun he => ⟨congrArg Host.Outcome.next (State.endErase_none he), congrArg Host.Outcome.next (State.endErase_none he)⟩,
    fun hs he hp => ?_⟩, fun u => ⟨fun hf => ?_, fun n hf hn => ?_⟩⟩
  · cases h : e.phase with
    | active => exact absurd h hp
    | suspending | suspended => rfl
  · have hspool := s.checked_spool failed e.sectors
    have hmarks := s.checked_marks failed e.sectors
    have herases {n : Nat} := State.checked_erases (n := n) failed hs (l := e.sectors)
    have hfails {n : Nat} := State.checked_fails (n := n) failed hs (l := e.sectors)
    have hsame {n : Nat} := s.checked_same (n := n) failed e.sectors
    have hbut : SameBut [.spool, .array, .freeCount] s (s.checked failed e.sectors) := fun k hk =>
      foldl_item _ _ _ fun t n => State.checkSector_item failed t n (by simp at hk ⊢; tauto)
    have hdone (limit : Bool) (hends : e.phase.ends limit = true) := State.endErase_of (failed := failed) he hends
    generalize s.checked failed e.sectors = c at *
    have hfaults : c.spool.eraseFaults = s.spool.eraseFaults := by rw [hspool]
    refine ⟨{ c with spool := { c.spool with erase := none } }, congrArg Host.Outcome.next ((hdone false ?_).trans ?_),
      fun ha => congrArg Host.Outcome.next ((hdone true (by rw [ha]; rfl)).trans ?_), ?_, fun n hn hok => herases hn ?_,
      fun n hn hbad => hfails hn hbad, fun n hn => hsame hn, hmarks, fun k hk => ?_⟩
    · cases h : e.phase with
      | suspended => exact absurd h hp
      | active | suspending => rfl
    · rfl
    · rw [if_pos rfl, hfaults]
    · show { c.spool with erase := none } = _
      rw [hspool]
    · rintro ⟨i, hi, hin⟩
      exact hok i hi hin
    · exact (c.item_put_spool _ fun hsp => hk (by simp [hsp])).trans (hbut k hk)
  · exact if_neg (by simpa using hf)
  · intro next
    have hfull : u.endFull = { u with spool := u.spool.fillAfter (some n) } :=
      (if_pos (by simp [hf])).trans (by rw [hn])
    refine ⟨fun i hi he hlow => ?_, fun hnone => ?_⟩
    · rw [hfull, Spool.fillAfter_some hi he hlow]
    · rw [hfull, Spool.fillAfter_none hnone]

end Sys2Proof.Machine
end

section
/-! SUPPORT. Toll Spool: the ends of record programs, generation rolls (R106 to R108). -/

namespace Sys2Proof.Machine

/-! ### The end of a record program (R106, R107) -/

section Record
variable {s : State} {slot : Nat} {retry : Bool} {h : HeldSubmission} (ho : s.spool.op = .recordProgram slot retry)
  (hh : s.spool.held = some h)
include ho hh

theorem State.recordEnd_of : s.recordEnd = ((((s.fillSlot slot h).advanceSeq h.seq).sectorChange.answerSpool
    (tollTaken h.tag ⟨s.spool.generation, h.seq⟩)).windowIntake).runToll := by
  simp only [State.recordEnd, ho, hh]

theorem State.recordLimit_of : s.recordLimit = if retry then (s.voidSlot slot).sectorChange.giveUp h.tag .fault
    else (s.voidSlot slot).sectorChange.retryRecord h.tag := by
  simp only [State.recordLimit, ho, hh]

end Record

theorem HeldSubmission.record_stamped {h : HeldSubmission} {st : Stamp} (hs : h.stamp = some st) (generation : Nat) :
    h.record generation = ⟨⟨generation, h.seq⟩, st.lt, st.grade, st.settled, h.gantry, h.lane, h.body⟩ := by
  simp only [HeldSubmission.record, hs, Option.getD_some]

/-! ### The retry of a record program (R108) -/

theorem Spool.fillAfter_held (p : Spool) (after : Option Nat) : (p.fillAfter after).held = p.held := by
  unfold Spool.fillAfter
  split <;> rfl

theorem State.retireSector_held (s : State) (n : Nat) : (s.retireSector n).spool.held = s.spool.held := by
  unfold State.retireSector
  dsimp only
  split <;> rfl

/-- A change of the FILLING sector keeps the held submission. -/
theorem State.sectorChange_held (s : State) : s.sectorChange.spool.held = s.spool.held := by
  unfold State.sectorChange
  split
  · rfl
  · split
    · rfl
    · dsimp only
      rw [Spool.fillAfter_held]
      split
      · rfl
      · exact s.retireSector_held _

section Retry
variable {s : State} {tag : Byte}

theorem State.retryRecord_full (h : s.spool.nextSlot = none) : s.retryRecord tag = s.giveUp tag .full := by
  simp only [State.retryRecord, h]

variable {k : Nat} (h : s.spool.nextSlot = some k)
include h

theorem State.retryRecord_inhibited (hf : s.powerFailing = true) : s.retryRecord tag = s.giveUp tag .inhibited := by
  simp only [State.retryRecord, h]
  exact if_pos hf

theorem State.retryRecord_again (hf : s.powerFailing = false) : s.retryRecord tag = s.startRecord k true := by
  simp only [State.retryRecord, h]
  exact if_neg (by simp [hf])

end Retry

/-- A record programmed again keeps its stamp (R107). -/
theorem State.startRecord_stamped {s : State} {h : HeldSubmission} (hh : s.spool.held = some h) {st : Stamp}
    (hs : h.stamp = some st) (slot : Nat) (retry : Bool) : s.startRecord slot retry =
    { s with array := s.array.beginRecord slot, spool := { s.spool with op := .recordProgram slot retry } } := by
  have hkeep : (s.spool.held.map fun h => { h with stamp := some (h.stamp.getD ⟨s.time.lt, s.time.grade, s.time.settled⟩) }) =
      s.spool.held := by
    rw [hh, Option.map_some, hs, Option.getD_some, ← hs]
  rw [State.startRecord, hkeep]

/-! ### The answer place with an answer in it (R107) -/

section Answer
variable {s : State} {old : CabMsg} (ho : s.spool.answer = some old) (m : CabMsg)
include ho

theorem State.answerSpool_both (hq : s.equip.outbound.length < 31) : s.answerSpool m =
    { s with spool := { s.spool with answer := none }
             equip := { s.equip with outbound := s.equip.outbound ++ [old, m] } } := by
  rw [State.answerSpool, State.drainAnswer_held ho (by omega)]
  refine (if_pos ((State.queueRoom_iff _).2 (by simp; omega))).trans ?_
  simp [State.placeTail]

theorem State.answerSpool_older (hq : s.equip.outbound.length = 31) : s.answerSpool m =
    { s with spool := { s.spool with answer := some m }
             equip := { s.equip with outbound := s.equip.outbound ++ [old] } } := by
  rw [State.answerSpool, State.drainAnswer_held ho (by omega)]
  exact if_neg (mt (State.queueRoom_iff _).1 (by simp; omega))

end Answer

/-! ### Generation marks wanted (R106, R122) -/

section Mark
variable {a : TollArray}

/-- The first erased mark place at or after a place. -/
theorem TollArray.erasedPlace_some {start k : Nat} (hs : start ≤ k) (hk : k < 32) (h : keyGet a.marks k = none)
    (hlow : ∀ j, start ≤ j → j < k → keyGet a.marks j ≠ none) : a.erasedPlace start = some k :=
  List.find?_range_eq_some.2 ⟨by simp [hs, h], List.mem_range.2 hk, fun j hj => by
    by_cases hsj : start ≤ j
    · simpa [hsj, Option.isSome_iff_ne_none] using hlow j hsj hj
    · simp [hsj]⟩

theorem TollArray.erasedPlace_none {start : Nat} (h : ∀ k, start ≤ k → k < 32 → keyGet a.marks k ≠ none) :
    a.erasedPlace start = none :=
  List.find?_range_eq_none.2 fun k hk => by
    by_cases hsk : start ≤ k
    · simpa [hsk, Option.isSome_iff_ne_none] using h k hsk hk
    · simp [hsk]

end Mark

theorem State.wantGenMark_place {s : State} {k : Nat} (h : s.array.erasedPlace 0 = some k) (value : Nat) :
    s.wantGenMark value = { s with spool := { s.spool with genJob := some ⟨value, .program k false⟩ } } := by
  simp only [State.wantGenMark, h]

theorem State.wantGenMark_erase {s : State} (h : s.array.erasedPlace 0 = none) (value : Nat) :
    s.wantGenMark value = { s with spool := { s.spool with genJob := some ⟨value, .eraseSector⟩ } } := by
  simp only [State.wantGenMark, h]

/-- Settles O35, by the end and the limit of the program, the answer place and the roll. -/
theorem recordProgramsEndOrAreTriedAgain : Obligations.RecordProgramsEndOrAreTriedAgain := by
  refine ⟨fun s slot retry h st ho hh hst => ?_, fun s m => ?_, fun s value => ?_⟩
  · intro pos r filled taken weak voided refused
    have hfilled : s.fillSlot slot h = filled := by
      rw [State.fillSlot, HeldSubmission.record_stamped hst]
    have hend {t : State} (ht : filled.advanceSeq h.seq = t) : exec .recordProgramEnd s = .next (taken t) := by
      refine congrArg Host.Outcome.next ((State.recordEnd_of ho hh).trans ?_)
      rw [hfilled, ht]
      rfl
    have hvoided : (s.voidSlot slot).sectorChange = voided := rfl
    have hrefused (c : TollCause) : voided.giveUp h.tag c = refused c.code := rfl
    have hheld : voided.spool.held = some h := (State.sectorChange_held _).trans hh
    have hretry (hr : retry = false) {t : State} (ht : voided.retryRecord h.tag = t) : exec .recordProgramLimit s = .next t :=
      congrArg Host.Outcome.next ((State.recordLimit_of ho hh).trans ((if_neg (by simp [hr])).trans ht))
    refine ⟨fun hq => hend (if_pos hq), fun hq => hend (if_neg (by omega)),
      fun hr => congrArg Host.Outcome.next ((State.recordLimit_of ho hh).trans (if_pos hr)),
      fun hr hn => hretry hr (State.retryRecord_full hn),
      fun k hr hk => ⟨fun hf => hretry hr (State.retryRecord_inhibited hk hf),
        fun hf => hretry hr ((State.retryRecord_again hk hf).trans (State.startRecord_stamped hheld hst k true))⟩⟩
  · intro queue answers
    refine ⟨fun ha => ⟨fun hq => ?_, fun hq => State.answerSpool_full hq m⟩, fun old ha =>
      ⟨State.answerSpool_both ha m, State.answerSpool_older ha m, fun hq => State.answerSpool_full hq m⟩⟩
    rw [State.answerSpool_room ha hq]
    simp only [answers, ← ha]
    rfl
  · intro programmed waits
    refine ⟨fun k hk hn hlow => State.wantGenMark_place (TollArray.erasedPlace_some (Nat.zero_le k) hk (not_not.1 hn)
      fun j _ hj => hlow j hj) value, fun h => State.wantGenMark_erase (TollArray.erasedPlace_none fun k _ hk => h k hk) value⟩

end Sys2Proof.Machine
end

section
/-! SUPPORT. The array arbiter: its order, its marks and reads, and POWER-WARN at the spool (R104, R111, R112, R115, R117, R118). -/

namespace Sys2Proof.Machine

/-! ### The held submission and the generation roll come first (R104, R107) -/

/-- The first EMPTY slot of a sector lies in it, and none before it is EMPTY. -/
theorem Spool.emptySlot_first {p : Spool} {n k : Nat} (h : p.emptySlot n = some k) : ∃ i, i < 32 ∧ k = 32 * n + i ∧
    keyGet p.slots (32 * n + i) = none ∧ ∀ j, j < i → keyGet p.slots (32 * n + j) ≠ none := by
  rw [Spool.emptySlot, List.find?_map, Option.map_eq_some_iff] at h
  obtain ⟨i, hi, rfl⟩ := h
  obtain ⟨hp, hmem, hlow⟩ := List.find?_range_eq_some.1 hi
  exact ⟨i, List.mem_range.1 hmem, rfl, by simpa using hp, fun j hj => by simpa [Option.isSome_iff_ne_none] using hlow j hj⟩

theorem State.startRecord_held {s : State} {h : HeldSubmission} (hh : s.spool.held = some h) (slot : Nat) (retry : Bool) :
    s.startRecord slot retry = { s with
      array := s.array.beginRecord slot
      spool := { s.spool with
        op := .recordProgram slot retry
        held := some { h with stamp := some (h.stamp.getD ⟨s.time.lt, s.time.grade, s.time.settled⟩) } } } := by
  rw [State.startRecord, hh]
  rfl

section Gen
variable {s : State} {j : GenJob} (hj : s.spool.genJob = some j) (hf : ¬ s.powerFailing = true)
include hj hf

theorem State.startGenJob_of : s.startGenJob = { s with spool := { s.spool with op := match j.stage with
    | .program k _ => .genMark k
    | .eraseSector => .markSectorErase } } := by
  unfold State.startGenJob
  simp only [hj]
  exact if_neg hf

end Gen

theorem State.startGenJob_not {s : State} (h : s.spool.genJob = none ∨ s.powerFailing = true) : s.startGenJob = s := by
  unfold State.startGenJob
  split
  next => rfl
  next j hj => exact if_pos (h.resolve_left (by simp [hj]))

section Grant
variable {s : State} (ho : s.spool.op = .idle) (h : s.spool.held = none ∨ s.powerFailing = true ∨ s.spool.nextSlot = none)
include ho h

/-- With no record to program the arbiter's choice is between a generation roll and the rest (R104). -/
theorem State.grant_noRecord : s.grant =
    if s.spool.genJob.isSome && s.spool.erase.isNone && !s.powerFailing then s.startGenJob else s.grantRead := by
  have hnone : (if s.spool.programWaits && !s.powerFailing then s.spool.nextSlot else none) = none := by
    rw [Spool.programWaits_idle ho]
    rcases h with h | h | h
    · simp [h]
    · simp [h]
    · simp [h]
  unfold State.grant
  rw [hnone]

theorem State.grant_roll (hj : s.spool.genJob ≠ none) (he : s.spool.erase = none) (hf : ¬ s.powerFailing = true) :
    s.grant = s.startGenJob :=
  (State.grant_noRecord ho h).trans (if_pos (by simp [Option.isSome_iff_ne_none.2 hj, he, hf]))

theorem State.grant_rest (hj : s.spool.genJob = none ∨ s.spool.erase ≠ none ∨ s.powerFailing = true) : s.grant = s.grantRead := by
  refine (State.grant_noRecord ho h).trans (if_neg ?_)
  rcases hj with hj | hj | hj
  · simp [hj]
  · simp [hj]
  · simp [hj]

end Grant

/-! ### Reads (R111, R128) -/

/-- An intake of the window changes of the spool the reads alone. -/
theorem State.fillWindow_spool (n : Nat) (s : State) :
    (s.fillWindow n).spool = { s.spool with reads := (s.fillWindow n).spool.reads } := by
  induction n generalizing s with
  | zero => rfl
  | succ n ih =>
    unfold State.fillWindow
    split
    · split
      · rw [ih]
        rfl
      · rfl
    · rfl

theorem State.readResult_spool (s : State) (q : Position) :
    (s.readResult q none).spool = { s.spool with reads := (s.readResult q none).spool.reads } := by
  unfold State.readResult
  split
  · exact State.fillWindow_spool 16 _
  · rfl

/-- The reads that are no longer of FILLED records are answered as no record (R111). -/
theorem State.dropStaleReads_eq {s : State} {stale live : List Position} (h : s.spool.reads = stale ++ live)
    (hs : ∀ q ∈ stale, s.spool.slotOf q = none) (hl : ∀ q ∈ live.head?, s.spool.slotOf q ≠ none) :
    s.dropStaleReads = stale.foldl (fun t q => t.readResult q none) { s with spool := { s.spool with reads := live } } := by
  have hstale : ∀ q ∈ stale, (s.spool.slotOf q).isNone = true := fun q hq => by simp [hs q hq]
  have htake : s.spool.reads.takeWhile (fun q => (s.spool.slotOf q).isNone) = stale := by
    rw [h, List.takeWhile_append_of_pos hstale]
    cases live with
    | nil => simp
    | cons q rest =>
      have := hl q (by simp)
      simp [Option.isNone_iff_eq_none, this]
  have hdrop : s.spool.reads.dropWhile (fun q => (s.spool.slotOf q).isNone) = live := by
    rw [h, List.dropWhile_append_of_pos hstale]
    cases live with
    | nil => rfl
    | cons q rest =>
      have := hl q (by simp)
      simp [Option.isNone_iff_eq_none, this]
  rw [State.dropStaleReads, htake, hdrop]

theorem State.dropStaleReads_spool (s : State) :
    s.dropStaleReads.spool = { s.spool with reads := s.dropStaleReads.spool.reads } :=
  List.foldlRecOn _ _ (motive := fun t : State => t.spool = { s.spool with reads := t.spool.reads }) rfl fun t ht q _ => by
    rw [State.readResult_spool, ht]

section GrantRead
variable {s : State}

theorem State.grantRead_read {q : Position} {rest : List Position} {k : Nat} (h : s.dropStaleReads.spool.reads = q :: rest)
    (hk : s.spool.slotOf q = some k) :
    let t := s.dropStaleReads
    s.grantRead = { t with spool := { t.spool with reads := rest, op := .read q k } } := by
  intro t
  have hslot : t.spool.slotOf q = some k := by
    rw [show t.spool = _ from s.dropStaleReads_spool]
    exact hk
  unfold State.grantRead
  simp only [h]
  rw [hslot]

theorem State.grantRead_rest (h : s.dropStaleReads.spool.reads = []) : s.grantRead = s.dropStaleReads.grantRest := by
  unfold State.grantRead
  simp only [h]

end GrantRead

/-! ### Pending marks (R104, R112) -/

/-- No mark of the sector is pending. -/
def SectorWork.Unmarked (w : SectorWork) : Prop := w.weakMark = false ∧ w.badMark = false

/-- The header marks of a list of sectors, as `Spool.sectorMarks` takes them. -/
def marksOf (l : List (Nat × SectorWork)) : List MarkTarget :=
  l.flatMap fun e => (if e.2.weakMark then [MarkTarget.weak e.1] else []) ++ (if e.2.badMark then [MarkTarget.bad e.1] else [])

theorem marksOf_cons_unmarked {n : Nat} {w : SectorWork} (h : w.Unmarked) (l : List (Nat × SectorWork)) :
    marksOf ((n, w) :: l) = marksOf l := by
  obtain ⟨hweak, hbad⟩ := h
  simp [marksOf, hweak, hbad]

theorem marksOf_cons_marked {n : Nat} {w : SectorWork} (h : ¬ w.Unmarked) (l : List (Nat × SectorWork)) :
    (marksOf ((n, w) :: l)).head? = some (if w.weakMark then .weak n else .bad n) := by
  by_cases hweak : w.weakMark = true
  · simp [marksOf, hweak]
  · have hbad : w.badMark = true := by
      by_contra hb
      exact h ⟨Bool.eq_false_iff.2 hweak, Bool.eq_false_iff.2 hb⟩
    simp [marksOf, hweak, hbad]

/-- The first pending header mark is that of the lowest sector with one, WEAK before BAD. -/
theorem marksOf_head {l : List (Nat × SectorWork)} (hl : keysRising l = true) {n : Nat} {w : SectorWork} (hn : keyGet l n = some w)
    (hw : ¬ w.Unmarked) (hlow : ∀ m x, m < n → keyGet l m = some x → x.Unmarked) :
    (marksOf l).head? = some (if w.weakMark then .weak n else .bad n) := by
  induction l with
  | nil => cases hn
  | cons c l ih =>
    obtain ⟨k, v⟩ := c
    obtain ⟨hk, hrest⟩ := List.pairwise_cons.1 ((keysRising_iff _).1 hl)
    have hrising : keysRising l = true := (keysRising_iff l).2 hrest
    by_cases hkn : n = k
    · subst hkn
      obtain rfl : v = w := by simpa [keyGet] using hn
      exact marksOf_cons_marked hw l
    · have hn' : keyGet l n = some w := by simpa [keyGet, hkn] using hn
      have hlt : k < n := hk _ ((mem_iff_keyGet hrising n w).2 hn')
      rw [marksOf_cons_unmarked (hlow k v hlt (by simp [keyGet]))]
      refine ih hrising hn' fun m x hm hx => hlow m x hm ?_
      have hmk : m ≠ k := fun h => Nat.lt_irrefl k (h ▸ hk _ ((mem_iff_keyGet hrising m x).2 hx))
      simpa [keyGet, hmk] using hx

theorem marksOf_nil {l : List (Nat × SectorWork)} (hl : keysRising l = true) (h : ∀ m x, keyGet l m = some x → x.Unmarked) :
    marksOf l = [] := by
  refine List.flatMap_eq_nil_iff.2 fun e he => ?_
  obtain ⟨hweak, hbad⟩ := h e.1 e.2 ((mem_iff_keyGet hl e.1 e.2).1 he)
  simp [hweak, hbad]

/-- The position of a slot with a pending mark. -/
def SlotState.markedPos : SlotState → Option Position
  | .delivered q true => some q
  | _ => none

theorem SlotState.markedPos_iff (x : SlotState) (q : Position) : x.markedPos = some q ↔ x = .delivered q true := by
  unfold SlotState.markedPos
  split
  next a => simp
  next h =>
    refine ⟨fun hq => (by cases hq), fun hx => absurd hx (h q)⟩

/-- The positions of the slots with a pending mark. -/
def Spool.markedPositions (p : Spool) : List Position := p.slots.filterMap fun e => e.2.markedPos

theorem Spool.slotMark_eq (p : Spool) : p.slotMark = (lowestPos p.markedPositions).bind fun q =>
    (p.slots.find? fun e : Nat × SlotState => e.2 == SlotState.delivered q true).map
      fun e : Nat × SlotState => MarkTarget.delivered e.1 := by
  show (match lowestPos p.markedPositions with
    | none => none
    | some q => (p.slots.find? fun e : Nat × SlotState => e.2 == SlotState.delivered q true).map
        fun e : Nat × SlotState => MarkTarget.delivered e.1) = _
  cases lowestPos p.markedPositions <;> rfl

section NextMark
variable {p : Spool} (hp : p.Rising)
include hp

theorem Spool.nextMark_sector {n : Nat} (hn : ¬ (p.sector n).Unmarked) (hlow : ∀ m, m < n → (p.sector m).Unmarked) :
    p.nextMark = some (if (p.sector n).weakMark then .weak n else .bad n) := by
  have hhead : p.sectorMarks.head? = some (if (p.sector n).weakMark then .weak n else .bad n) := by
    rcases hw : keyGet p.sectors n with _ | w
    · rw [Spool.sector, hw] at hn
      exact absurd ⟨rfl, rfl⟩ hn
    · have hsec : p.sector n = w := by rw [Spool.sector, hw]; rfl
      rw [hsec] at hn ⊢
      refine marksOf_head hp.2 hw hn fun m x hm hx => ?_
      have := hlow m hm
      rwa [Spool.sector, hx] at this
  unfold Spool.nextMark
  rcases hm : p.sectorMarks with _ | ⟨m, ms⟩
  · simp [hm] at hhead
  · simpa [hm] using hhead

theorem Spool.nextMark_noSector (h : ∀ m, (p.sector m).Unmarked) : p.nextMark = p.slotMark := by
  have hnil : p.sectorMarks = [] := marksOf_nil hp.2 fun m x hx => by
    have := h m
    rwa [Spool.sector, hx] at this
  simp only [Spool.nextMark, hnil]

theorem Spool.mem_markedPositions (q : Position) :
    q ∈ p.markedPositions ↔ ∃ k, keyGet p.slots k = some (.delivered q true) := by
  simp only [Spool.markedPositions, List.mem_filterMap, SlotState.markedPos_iff, ← mem_iff_keyGet hp.1, Prod.exists]
  exact exists_congr fun k => ⟨fun ⟨x, hx, hq⟩ => hq ▸ hx, fun h => ⟨_, h, rfl⟩⟩

theorem Spool.slotMark_some {k : Nat} {a : Position} (hk : keyGet p.slots k = some (.delivered a true))
    (hlow : ∀ j b, keyGet p.slots j = some (.delivered b true) → posLt a b = true ∨ (b = a ∧ k ≤ j)) :
    p.slotMark = some (.delivered k) := by
  have hpos : lowestPos p.markedPositions = some a := by
    refine (lowestPos_iff _ a).2 ⟨(Spool.mem_markedPositions hp a).2 ⟨k, hk⟩, fun b hb => ?_⟩
    obtain ⟨j, hj⟩ := (Spool.mem_markedPositions hp b).1 hb
    rw [posLt_eq_false_iff]
    rcases hlow j b hj with h | ⟨rfl, -⟩
    · rw [posLt_iff] at h
      omega
    · omega
  have hfind : (p.slots.find? fun e => e.2 == .delivered a true).map Prod.fst = some k :=
    (find_key_iff hp.1 (fun v => v == .delivered a true) k).2 ⟨⟨_, hk, by simp⟩, fun j hj w hw => by
      by_contra hne
      obtain rfl : w = .delivered a true := by simpa using hne
      rcases hlow j a hw with h | ⟨-, h⟩
      · rw [posLt_iff] at h
        omega
      · omega⟩
  obtain ⟨e, he, rfl⟩ := Option.map_eq_some_iff.1 hfind
  rw [Spool.slotMark_eq, hpos, Option.bind_some, he]
  rfl

theorem Spool.slotMark_none (h : ∀ k a, keyGet p.slots k ≠ some (.delivered a true)) : p.slotMark = none := by
  have hpos : lowestPos p.markedPositions = none := by
    refine (lowestPos_eq_none_iff _).2 (List.eq_nil_iff_forall_not_mem.2 fun q hq => ?_)
    obtain ⟨k, hk⟩ := (Spool.mem_markedPositions hp q).1 hq
    exact h k q hk
  rw [Spool.slotMark_eq, hpos, Option.bind_none]

end NextMark

/-! ### The last items of the order (R104, R115, R117) -/

section Rest
variable {t : State}

theorem State.grantRest_fails (hf : t.powerFailing = true) : t.grantRest = t := by
  unfold State.grantRest
  split
  · exact if_pos hf
  · exact if_pos hf

theorem State.grantRest_resumes {e : EraseRun} (hf : ¬ t.powerFailing = true) (he : t.spool.erase = some e) :
    t.grantRest = { t with spool := { t.spool with erase := some { e with phase := .active, since := t.refTime } } } := by
  simp only [State.grantRest, he]
  exact if_neg hf

variable (hf : ¬ t.powerFailing = true) (he : t.spool.erase = none)
include hf he

theorem State.grantRest_mark {m : MarkTarget} (hm : t.spool.nextMark = some m) :
    t.grantRest = { t with spool := { t.spool with op := .markProgram m } } := by
  simp only [State.grantRest, he, hm]
  exact if_neg hf

theorem State.grantRest_open (hm : t.spool.nextMark = none) (hb : ∀ b, t.spool.batch = some b → b.closed = false) :
    t.grantRest = t := by
  simp only [State.grantRest, he, hm]
  refine (if_neg hf).trans ?_
  split
  next b hb' => exact if_neg (by simp [hb b hb'])
  next => rfl

theorem State.grantRest_erase (hm : t.spool.nextMark = none) {b : Batch} (hb : t.spool.batch = some b) (hc : b.closed = true) :
    t.grantRest = t.startErase b := by
  simp only [State.grantRest, he, hm, hb]
  exact (if_neg hf).trans (if_pos hc)

end Rest

/-! ### POWER-WARN at the spool (R118) -/

/-- Sectors that take a state one after another, their marks as they were. -/
theorem Spool.setStates_eq (x : SectorState) (l : List Nat) {p : Spool} (h : keysRising p.sectors = true) :
    let q := l.foldl (fun (q : Spool) (n : Nat) => q.setSector n { q.sector n with state := x }) p
    q = { p with sectors := q.sectors } ∧
    ∀ n, q.sector n = if n ∈ l then { p.sector n with state := x } else p.sector n := by
  induction l generalizing p with
  | nil => exact ⟨rfl, fun _ => rfl⟩
  | cons m l ih =>
    obtain ⟨hq, hsec⟩ := ih (p := p.setSector m { p.sector m with state := x }) (Spool.setSector_rising h m _)
    refine ⟨hq, fun n => (hsec n).trans ?_⟩
    rw [Spool.sector_setSector h]
    by_cases hn : n = m
    · subst hn
      simp
    · simp [hn]

theorem State.abandonErase_none {s : State} (h : s.spool.erase = none) : s.abandonErase = s := by
  simp only [State.abandonErase, h]

section Abandon
variable {s : State} {e : EraseRun} (h : s.spool.erase = some e)
include h

/-- An abandoned erase leaves its sectors RECLAIM and held out, and of the array only their cells change (R118). -/
theorem State.abandonErase_some (hr : keysRising s.spool.sectors = true) :
    let t := s.abandonErase
    t.spool = { s.spool with erase := none, heldOut := s.spool.heldOut ++ e.sectors, sectors := t.spool.sectors } ∧
    (∀ n, t.spool.sector n = if n ∈ e.sectors then { s.spool.sector n with state := .reclaim } else s.spool.sector n) ∧
    (∀ n, n ∉ e.sectors → t.array.header n = s.array.header n ∧
      ∀ k, k / 32 = n → keyGet t.array.slots k = keyGet s.array.slots k) ∧
    t.array.marks = s.array.marks := by
  intro t
  obtain ⟨hq, hsec⟩ := Spool.setStates_eq .reclaim e.sectors (p := s.spool) hr
  generalize hp : e.sectors.foldl (fun (q : Spool) (n : Nat) => q.setSector n { q.sector n with state := .reclaim }) s.spool = p
    at hq hsec
  have ht : t = State.eraseInPart
      { s with spool := { p with erase := none, heldOut := s.spool.heldOut ++ e.sectors } } e.sectors := by
    simp only [t, State.abandonErase, h, hp]
  have hspool : t.spool = { p with erase := none, heldOut := s.spool.heldOut ++ e.sectors } := by rw [ht]; rfl
  have harray : t.array = e.sectors.foldl
      (fun a n => a.eraseInPart (fun k => Config.freeBit (s.freeCount + k)) n) s.array := by rw [ht]; rfl
  refine ⟨?_, fun n => ?_, fun n hn => ?_, ?_⟩
  · rw [hspool, hq]
  · rw [hspool]
    exact hsec n
  · rw [harray]
    refine List.foldlRecOn e.sectors _ (motive := fun a : TollArray => a.header n = s.array.header n ∧
      ∀ k, k / 32 = n → keyGet a.slots k = keyGet s.array.slots k) ⟨rfl, fun _ _ => rfl⟩ fun a ⟨hhead, hslots⟩ m hm => ?_
    obtain ⟨hhead', hslots'⟩ := a.eraseInPart_other (fun k => Config.freeBit (s.freeCount + k)) fun hnm : n = m => hn (hnm ▸ hm)
    exact ⟨hhead'.trans hhead, fun k hk => (hslots' k hk).trans (hslots k hk)⟩
  · rw [harray]
    exact List.foldlRecOn e.sectors _ (motive := fun a : TollArray => a.marks = s.array.marks) rfl fun _ ha _ _ => ha

end Abandon

/-! ### A record program begins (R101, R104) -/

theorem TollArray.header_setHeader (a : TollArray) {x : Header} (hx : x ≠ ⟨false, false, false⟩) (n m : Nat) :
    (a.setHeader n x).header m = if m = n then x else a.header m := by
  unfold TollArray.header TollArray.setHeader
  simp only [hx, if_false, keyGet_keySet]
  split <;> rfl

/-- What a record program that begins leaves of the array: USE set for slot 0 of a sector, and cells programmed in part. -/
theorem TollArray.beginRecord_eq (a : TollArray) {n i : Nat} (hi : i < 32) : a.beginRecord (32 * n + i) =
    { (if i = 0 then a.setHeader n { a.header n with use := true } else a) with
      slots := keySet a.slots (32 * n + i) SlotCells.part } := by
  have hn : sectorOf (32 * n + i) = n := by unfold sectorOf; omega
  unfold TollArray.beginRecord
  rw [hn]
  by_cases h0 : i = 0
  · have hm : (32 * n + i) % 32 = 0 := by omega
    simp only [hm, if_pos h0, if_true]
    rfl
  · have hm : ¬ (32 * n + i) % 32 = 0 := by omega
    simp only [hm, if_neg h0, if_false]

/-- Settles O37, down the arbiter's order, then POWER-WARN and the record program that begins. -/
theorem theArrayArbitersOrder : Obligations.TheArrayArbitersOrder := by
  refine ⟨fun s hr ho => ?_, fun s => ?_, fun a n i hi => ?_⟩
  · intro fails op
    refine ⟨fun e he hp hw => State.pump_suspends hr ho he hp hw, fun e he hp => ?_, fun hs herase => ?_⟩
    · rcases hp with hp | ⟨hp, hh, hreads⟩
      · exact State.pump_suspending hr ho he hp
      · exact State.pump_active hr ho he hp hh hreads
    · intro first
      have hpump : s.pump = s.grant := by
        rcases he : s.spool.erase with _ | e
        · exact State.pump_free hr ho he
        · exact State.pump_suspended hr ho he (herase e he)
      rw [hpump]
      have hslots := hs.spool.1
      refine ⟨fun h n i hh hf hfirst => ?_, fun hno => ?_⟩
      · obtain ⟨hfill, hi, hnone, hlow⟩ := hfirst
        have hnext : s.spool.nextSlot = some (32 * n + i) := by
          rw [Spool.nextSlot, hfill]
          exact Spool.emptySlot_some hi hnone hlow
        exact (State.grant_record ho hh hf hnext).trans (State.startRecord_held hh _ false)
      · have hnone : s.spool.held = none ∨ s.powerFailing = true ∨ s.spool.nextSlot = none := by
          refine hno.imp_right fun h => h.imp_right fun h => Option.eq_none_iff_forall_ne_some.2 fun k hk => ?_
          obtain ⟨n, hn, hk⟩ := Option.bind_eq_some_iff.1 hk
          obtain ⟨i, hi, -, hnone, hlow⟩ := Spool.emptySlot_first hk
          exact h n i ⟨hn, hi, hnone, hlow⟩
        refine ⟨fun j hj he hf => ?_, fun hrest stale live hreads hstale hlive => ?_⟩
        · have hroll : s.grant = _ :=
            (State.grant_roll ho hnone (by simp [hj]) he hf).trans (State.startGenJob_of hj hf)
          exact ⟨fun k b hst => by rw [hroll, hst], fun hst => by rw [hroll, hst]⟩
        · intro answerNone t next
          have ht : s.dropStaleReads = t := State.dropStaleReads_eq hreads
            (fun q hq => (Spool.slotOf_none_iff hslots q).2 (hstale q hq)) fun q hq hn => by
              obtain ⟨k, hk⟩ := hlive q hq
              exact (Spool.slotOf_none_iff hslots q).1 hn k hk
          have hspool : t.spool = { s.spool with reads := t.spool.reads } := ht ▸ s.dropStaleReads_spool
          have href : t.refTime = s.refTime := ht ▸ s.dropStaleReads_item (part := .refTime) (by decide)
          have hcfg : t.cfg = s.cfg := ht ▸ s.dropStaleReads_item (part := .cfg) (by decide)
          have hinputs : t.inputs = s.inputs := ht ▸ s.dropStaleReads_item (part := .inputs) (by decide)
          have hpower : t.powerFailing = s.powerFailing := by
            rw [Bool.eq_iff_iff, State.powerFailing_iff, State.powerFailing_iff, hcfg, hinputs]
          rw [State.grant_rest ho hnone hrest]
          refine ⟨fun q rest k hq hk hlow => ?_, fun hnil => ?_⟩
          · rw [State.grantRead_read (by rw [ht]; exact hq) ((Spool.slotOf_iff hslots q k).2 ⟨hk, hlow⟩), ht]
          · intro unmarked slotMark
            rw [State.grantRead_rest (by rw [ht]; exact hnil), ht]
            have herased : t.spool.erase = s.spool.erase := by rw [hspool]
            have hbatch : t.spool.batch = s.spool.batch := by rw [hspool]
            have hmark : t.spool.nextMark = s.spool.nextMark := by rw [hspool]; rfl
            have hfail {h : ¬ fails} : ¬ t.powerFailing = true := by rwa [hpower]
            refine ⟨fun hf => State.grantRest_fails (by rwa [hpower]), fun e hf he => ?_, fun n hf he hlow hn => ?_,
              fun k a hf he hun hk hlow => ?_, fun hf he hun hno => ?_⟩
            · rw [State.grantRest_resumes (hfail (h := hf)) (herased.trans he), href]
            · exact State.grantRest_mark (hfail (h := hf)) (herased.trans he) (hmark.trans (Spool.nextMark_sector hs.spool hn hlow))
            · refine State.grantRest_mark (hfail (h := hf)) (herased.trans he) (hmark.trans ?_)
              rw [Spool.nextMark_noSector hs.spool hun]
              exact Spool.slotMark_some hs.spool hk hlow
            · have hnext : t.spool.nextMark = none := by
                rw [hmark, Spool.nextMark_noSector hs.spool hun, Spool.slotMark_none hs.spool hno]
              refine ⟨fun hopen => State.grantRest_open (hfail (h := hf)) (herased.trans he) hnext fun b hb =>
                hopen b (hbatch.symm.trans hb), fun b hb hc => ?_⟩
              rw [State.grantRest_erase (hfail (h := hf)) (herased.trans he) hnext (hbatch.trans hb) hc, State.startErase, href]
  · intro waiting
    refine ⟨State.startGenJob_not, fun j hj hf => State.startGenJob_of hj (by simp [hf]), fun he => ?_, fun e hrise he => ?_, ?_⟩
    · rw [State.powerDepart, State.abandonErase_none he]
      rfl
    · obtain ⟨hspool, hsec, harr, hmarks⟩ := State.abandonErase_some he hrise
      exact ⟨s.abandonErase, rfl, hspool, hsec, harr, hmarks, fun k hk => s.abandonErase_item (by simp at hk ⊢; tauto)⟩
    · let emptied : State := { s with spool := { s.spool with heldOut := [] } }
      obtain ⟨o, ho, hnil, hcons⟩ := emptied.joinBatch_foldl s.spool.heldOut
      refine ⟨s.spool.heldOut.foldl State.joinBatch emptied, rfl, fun k hk => ?_, ?_, fun h => ?_, fun h => ?_⟩
      · rw [ho]
        exact (s.item_put_spool _ fun hsp => hk (by simp [hsp]))
      · rw [ho]
      · rw [ho]
        exact hnil h
      · rw [ho]
        exact hcons h
  · intro b
    have hb : b = _ := a.beginRecord_eq (n := n) hi
    have huse : ({ a.header n with use := true } : Header) ≠ ⟨false, false, false⟩ := by simp
    have hslots : b.slots = keySet a.slots (32 * n + i) SlotCells.part := by rw [hb]
    have hheader0 (h : i = 0) (m : Nat) : b.header m = if m = n then { a.header n with use := true } else a.header m := by
      rw [hb, if_pos h]
      exact a.header_setHeader huse n m
    have hheader (h : i ≠ 0) (m : Nat) : b.header m = a.header m := by
      rw [hb, if_neg h]
      rfl
    refine ⟨fun h => (hheader0 h n).trans (if_pos rfl), fun h => hheader h n, fun m hm => ?_, ?_, ?_, fun k hk => ?_⟩
    · by_cases h : i = 0
      · exact (hheader0 h m).trans (if_neg hm)
      · exact hheader h m
    · rw [hb]
      split <;> rfl
    · rw [hslots, keyGet_keySet, if_pos rfl]
      rfl
    · rw [hslots, keyGet_keySet, if_neg hk]

end Sys2Proof.Machine
end

section
/-! SUPPORT. Sign Display at a frame end: selection, brightness and the display report (R169 to R174). -/

namespace Sys2Proof.Machine

/-! ### An offer does not look at the display (R17, R20) -/

section OfferDisplay
variable (s : State) (d : Display) (p : PortId)

theorem State.port_put_display : State.port { s with display := d } p = s.port p := by cases p <;> rfl

theorem State.setPort_put_display (q : LinePort) :
    State.setPort { s with display := d } p q = { s.setPort p q with display := d } := by cases p <;> rfl

theorem State.arbitrate_put_display : State.arbitrate { s with display := d } p = { s.arbitrate p with display := d } := by
  unfold State.arbitrate
  rw [State.port_put_display]
  split
  · cases (s.port p).choose with
    | none => rfl
    | some x => exact s.setPort_put_display d p _
  · rfl

theorem State.offer_put_display (f : Frame) : State.offer { s with display := d } p f = { s.offer p f with display := d } := by
  unfold State.offer
  rw [State.port_put_display]
  cases (s.port p).offerAnswer f with
  | taken =>
    dsimp only
    rw [State.setPort_put_display, State.arbitrate_put_display]
  | refused | discarded => exact s.setPort_put_display d p _

end OfferDisplay

/-! ### Selection (R170, R171) -/

theorem State.qualifies_iff (s : State) (c : Claim) : s.qualifies c = true ↔
    (s.pages.records[c.page]).state = .ready ∧ ∀ x, c.showAt = some x → (x - s.time.lt).toInt ≤ 0 := by
  rcases h : c.showAt with _ | x
  · simp [State.qualifies, h]
  · simp only [State.qualifies, h, ltDue, ltDiff, Option.all_some, Bool.and_eq_true, beq_iff_eq,
      Option.some.injEq, forall_eq']
    exact and_congr_right fun _ => decide_eq_true_iff

/-- The first claim that qualifies is displayed. -/
theorem State.selected_first {s : State} {l rest : List Claim} {c : Claim} (h : s.display.claims = l ++ c :: rest)
    (hl : ∀ x ∈ l, ¬ s.qualifies x = true) (hc : s.qualifies c = true) : s.selected = some c := by
  rw [State.selected, h, List.find?_append, List.find?_eq_none.2 hl, Option.none_or, List.find?_cons_of_pos hc]

theorem State.selected_blank {s : State} (h : ∀ c ∈ s.display.claims, ¬ s.qualifies c = true) : s.selected = none :=
  List.find?_eq_none.2 h

/-! ### Brightness (R172, R173) -/

theorem ReadingChannel.usable_iff (c : ReadingChannel) : c.usable = true ↔ c.valid = true ∧ ¬ c.stale = true := by
  simp [ReadingChannel.usable]

theorem State.requestedLevel_steady {s : State} (h : s.cfg.brightnessMode = .fixed ∨
    (s.weather.channels[s.cfg.ambient]).valid = false ∨ (s.weather.channels[s.cfg.ambient]).stale = true) :
    s.requestedLevel = s.cfg.fixedLevel := by
  unfold State.requestedLevel
  dsimp only
  split
  · rfl
  next hm =>
    refine if_neg (mt (ReadingChannel.usable_iff _).1 fun ⟨hv, hst⟩ => ?_)
    rcases h.resolve_left (by simp [hm]) with h | h
    · rw [h] at hv
      cases hv
    · exact hst h

theorem State.requestedLevel_mapped {s : State} (h : ¬ (s.cfg.brightnessMode = .fixed ∨
    (s.weather.channels[s.cfg.ambient]).valid = false ∨ (s.weather.channels[s.cfg.ambient]).stale = true)) :
    s.requestedLevel = bandLevel s.cfg.breakpoints s.cfg.bandLevels (s.weather.channels[s.cfg.ambient]).value := by
  simp only [not_or] at h
  obtain ⟨hm, hv, hst⟩ := h
  unfold State.requestedLevel
  dsimp only
  split
  next hf => exact absurd hf hm
  · exact if_pos ((ReadingChannel.usable_iff _).2 ⟨Bool.not_eq_false _ ▸ hv, hst⟩)

/-- The band of a value between rising breakpoints. -/
theorem bandLevel_rising {p1 p2 p3 p4 : Int} (h12 : p1 ≤ p2) (h23 : p2 ≤ p3) (h34 : p3 ≤ p4) (l0 l1 l2 l3 l4 : Nat) (a : Int) :
    bandLevel [p1, p2, p3, p4] [l0, l1, l2, l3, l4] a =
      if a < p1 then l0 else if a < p2 then l1 else if a < p3 then l2 else if a < p4 then l3 else l4 := by
  have hband (n : Nat) (hn : ([p1, p2, p3, p4].filter fun p => decide (p ≤ a)).length = n) :
      bandLevel [p1, p2, p3, p4] [l0, l1, l2, l3, l4] a = [l0, l1, l2, l3, l4].getD n 1 := by rw [bandLevel, hn]
  split
  · exact hband 0 (by
      rw [List.length_eq_zero_iff, List.filter_eq_nil_iff]
      intro p hp
      simp only [List.mem_cons, List.not_mem_nil, or_false] at hp
      simp only [decide_eq_true_eq]
      omega)
  · have h1 : p1 ≤ a := by omega
    split
    · have h2 : ¬ p2 ≤ a := by omega
      have h3 : ¬ p3 ≤ a := by omega
      have h4 : ¬ p4 ≤ a := by omega
      exact hband 1 (by simp [h1, h2, h3, h4])
    · have h2 : p2 ≤ a := by omega
      split
      · have h3 : ¬ p3 ≤ a := by omega
        have h4 : ¬ p4 ≤ a := by omega
        exact hband 2 (by simp [h1, h2, h3, h4])
      · have h3 : p3 ≤ a := by omega
        split
        · have h4 : ¬ p4 ≤ a := by omega
          exact hband 3 (by simp [h1, h2, h3, h4])
        · have h4 : p4 ≤ a := by omega
          exact hband 4 (by simp [h1, h2, h3, h4])

/-- The applied brightness stays within the power budget, but for the least level (R173). -/
theorem appliedLevel_budget (r budget load : Nat) : appliedLevel r budget load * load ≤ budget ∨ appliedLevel r budget load = 1 := by
  unfold appliedLevel
  split
  next h => exact .inl (by simp [h])
  · rcases Nat.le_total (min r (budget / load)) 1 with h | h
    · exact .inr (by omega)
    · rw [Nat.max_eq_right h]
      exact .inl ((Nat.mul_le_mul_right load (Nat.min_le_right r _)).trans (Nat.div_mul_le_self budget load))

theorem overBudget_iff (r budget load : Nat) : overBudget r budget load = true ↔ 0 < load ∧ budget / load < r := by
  simp [overBudget]

/-! ### The display report (R174) -/

theorem Display.pageByte_eq (d : Display) : d.pageByte = match d.page with
    | none => 255
    | some p => BitVec.ofNat 8 p := by
  rcases h : d.page with _ | p <;> simp only [Display.pageByte, h]

/-- What a display report says does not depend on the report owed or the frame timer. -/
theorem State.displayPayload_congr {u v : State} {owed : Bool} {timer : Option FrameRun}
    (hd : v.display = { u.display with owed := owed, frameTimer := timer }) (hp : v.pages = u.pages) (ht : v.time = u.time) :
    v.displayPayload = u.displayPayload := by
  have hq : v.qualifies = u.qualifies := by
    funext c
    simp only [State.qualifies, hp, ht]
  have hs : v.selected = u.selected := by simp only [State.selected, hq, hd]
  have hl : v.selectedLoad = u.selectedLoad := by simp only [State.selectedLoad, hs, hp]
  simp only [State.displayPayload, hs, hl, hd, ht, Display.pageByte]

section Report
variable {u : State} (ho : u.display.owed = true)
include ho

theorem State.tryDisplayReport_none (h : u.terminusChoice = .none) : u.tryDisplayReport = u := by
  unfold State.tryDisplayReport
  rw [if_pos ho]
  simp only [h]

theorem State.tryDisplayReport_room (h : u.terminusChoice = .self) (hq : u.equip.outbound.length < 32) :
    u.tryDisplayReport = (u.placeTail (centreCopy 0x85 u.cfg.number u.displayPayload)).clearOwed := by
  unfold State.tryDisplayReport
  rw [if_pos ho]
  simp only [h]
  exact if_pos (u.queueRoom_iff.2 hq)

theorem State.tryDisplayReport_full (h : u.terminusChoice = .self) (hq : 32 ≤ u.equip.outbound.length) :
    u.tryDisplayReport = u := by
  unfold State.tryDisplayReport
  rw [if_pos ho]
  simp only [h]
  exact if_neg (mt u.queueRoom_iff.1 (Nat.not_lt.2 hq))

variable {n : Nat} {p : PortId} {hops : Nat} (h : u.terminusChoice = .terminus n p hops)
include h

/-- An owed report that is offered stays owed exactly when it is refused. -/
theorem State.tryDisplayReport_terminus :
    let f := u.ownFrame .srpt 255 241 u.displayPayload
    u.tryDisplayReport = { u.offer p f with
      display := { u.display with owed := decide ((u.port p).offerAnswer f = .refused) } } := by
  intro f
  have hd : (u.offer p f).display = u.display := u.offer_item p f (part := .display) (by cases p <;> decide)
  unfold State.tryDisplayReport
  rw [if_pos ho]
  simp only [h]
  show (match (u.port p).offerAnswer f with
    | .refused => u.offer p f
    | _ => (u.offer p f).clearOwed) = _
  rcases ha : (u.port p).offerAnswer f with _ | _ | _
  · simp [State.clearOwed, hd]
  · have hkeep : { u.display with owed := true } = (u.offer p f).display := by rw [hd, ← ho]
    simp [hkeep]
  · simp [State.clearOwed, hd]

end Report

/-! ### The frame end (R169 to R174) -/

/-- Putting a display leaves every other item. -/
theorem State.item_put_display_ne (s : State) (d : Display) {part : Part} (h : part ≠ .display) :
    State.item { s with display := d } part = s.item part := by
  cases part
  case display => exact absurd rfl h
  all_goals rfl

theorem State.sameBut_display_equip (s : State) (d : Display) (e : Equip) :
    SameBut [.display, .equip] s { s with display := d, equip := e } := by
  intro k hk
  cases k
  case display | equip => simp at hk
  all_goals rfl

/-- The frame timer starts anew, and the display report stays owed or not. -/
def State.reported (u : State) (owed : Bool) : Display :=
  { u.display with owed := owed, frameTimer := some ⟨u.refTime, u.cfg.frameRate⟩ }

/-- The rest of a frame end after the selection was taken: the report tried, the frame timer anew. -/
def State.finishFrame (u : State) : State := u.tryDisplayReport.frameTimerAnew

section FinishFrame
variable {u : State}

theorem State.finishFrame_quiet (h : u.display.owed = false) : u.finishFrame = { u with display := u.reported false } := by
  have ht : u.tryDisplayReport = u := if_neg (by simp [h])
  rw [State.finishFrame, ht, State.reported, ← h]
  rfl

variable (ho : u.display.owed = true)
include ho

theorem State.finishFrame_none (hc : u.terminusChoice = .none) : u.finishFrame = { u with display := u.reported true } := by
  rw [State.finishFrame, State.tryDisplayReport_none ho hc, State.reported, ← ho]
  rfl

theorem State.finishFrame_room (hc : u.terminusChoice = .self) (hq : u.equip.outbound.length < 32) : u.finishFrame = { u with
    display := u.reported false
    equip := { u.equip with outbound := u.equip.outbound ++ [⟨0x85, BitVec.ofNat 8 u.cfg.number :: u.displayPayload⟩] } } := by
  rw [State.finishFrame, State.tryDisplayReport_room ho hc hq]
  rfl

theorem State.finishFrame_full (hc : u.terminusChoice = .self) (hq : 32 ≤ u.equip.outbound.length) :
    u.finishFrame = { u with display := u.reported true } := by
  rw [State.finishFrame, State.tryDisplayReport_full ho hc hq, State.reported, ← ho]
  rfl

theorem State.finishFrame_terminus {n : Nat} {p : PortId} {hops : Nat} (hc : u.terminusChoice = .terminus n p hops) {f : Frame}
    (hf : u.ownFrame .srpt 255 241 u.displayPayload = f) : u.finishFrame = { u.offer p f with
      display := u.reported (decide ((u.port p).offerAnswer f = .refused)) } := by
  have href : (u.offer p f).refTime = u.refTime := u.offer_item p f (part := .refTime) (by cases p <;> decide)
  have hcfg : (u.offer p f).cfg = u.cfg := u.offer_item p f (part := .cfg) (by cases p <;> decide)
  have htry := State.tryDisplayReport_terminus ho hc
  rw [hf] at htry
  rw [State.finishFrame, htry]
  simp only [State.frameTimerAnew, State.framePeriod, State.reported, href, hcfg]

omit ho in
/-- Whatever becomes of the report, the display is that of the selection but for the report owed and the frame timer. -/
theorem State.finishFrame_display (u : State) : ∃ owed, u.finishFrame.display = u.reported owed := by
  by_cases ho : u.display.owed = true
  · rcases hc : u.terminusChoice with _ | _ | ⟨n, p, h⟩
    · exact ⟨true, by rw [State.finishFrame_none ho hc]⟩
    · by_cases hq : u.equip.outbound.length < 32
      · exact ⟨false, by rw [State.finishFrame_room ho hc hq]⟩
      · exact ⟨true, by rw [State.finishFrame_full ho hc (Nat.not_lt.1 hq)]⟩
    · exact ⟨_, by rw [State.finishFrame_terminus ho hc rfl]⟩
  · exact ⟨false, by rw [State.finishFrame_quiet (Bool.eq_false_iff.2 ho)]⟩

end FinishFrame

/-- The bytes of a claimant are those of its kind. -/
theorem claimantBytes_eq (who : Option Claimant) : claimantBytes who = (match who with
    | none => [0, 0, 0]
    | some .centre => [1, 0, 0]
    | some (.rule n) => [2, BitVec.ofNat 8 n, 0]
    | some (.alert o k) => [3, BitVec.ofNat 8 o, BitVec.ofNat 8 k]) := by
  unfold claimantBytes
  split <;> rfl

/-- Settles O46, by the selection, the brightness, and what becomes of the report. -/
theorem frameEndsSelectDimAndReport : Obligations.FrameEndsSelectDimAndReport := by
  intro s
  refine ⟨fun h => congrArg Host.Outcome.next (if_neg (by simp [h])), fun h => ?_, fun y x => ⟨fun hp => ?_, fun p c hp hc => ?_⟩⟩
  · refine ⟨s.endFrame, congrArg Host.Outcome.next (if_pos (Option.isSome_iff_ne_none.2 h)), ?_⟩
    intro d due fits dimmed changed owed who reports
    -- the state after the selection, which differs from the given one in the display alone
    obtain ⟨u, hu, hus⟩ : ∃ u : State, s.endFrame = u.finishFrame ∧ u = s.expireClaims.applySelection := ⟨_, rfl, rfl⟩
    have hput : u = { s with display := u.display } := by rw [hus]; rfl
    have hpages : u.pages = s.pages := by rw [hput]
    have htime : u.time = s.time := by rw [hput]
    have hcfg : u.cfg = s.cfg := by rw [hput]
    have hchoice : u.terminusChoice = s.terminusChoice := by rw [hput]; rfl
    have hqueue : u.equip = s.equip := by rw [hput]
    have hsame (x : Display) : SameBut [.display] s { u with display := x } := fun k hk => by
      rw [hput]
      exact s.item_put_display_ne x fun h => hk (by simp [h])
    obtain ⟨o, hd⟩ := u.finishFrame_display
    rw [← hu] at hd
    have hpayload : s.endFrame.displayPayload = u.displayPayload := by
      refine State.displayPayload_congr hd (hpages ▸ ?_) (htime ▸ ?_)
      · exact s.endFrame_item (part := .pages) (by decide)
      · exact s.endFrame_item (part := .time) (by decide)
    -- the display
    have hfits (c : Claim) : u.qualifies c = true ↔ fits c := by
      rw [hput]
      exact State.qualifies_iff _ c
    have hclaims : d.claims = u.display.claims := by rw [show d = u.reported o from hd]; rfl
    have hexpired : u.display.claims = s.display.claims.filter fun c => !c.expired s.time.lt := by rw [hus]; rfl
    have hpage : d.page = u.selected.map (·.page) := by rw [show d = u.reported o from hd, hus]; rfl
    have hclaimant : d.claimant = u.selected.map (·.claimant) := by rw [show d = u.reported o from hd, hus]; rfl
    have hrequested : d.requested = s.requestedLevel := by rw [show d = u.reported o from hd, hus]; rfl
    have happlied : d.applied = appliedLevel s.requestedLevel s.cfg.powerBudget u.selectedLoad := by
      rw [show d = u.reported o from hd, hus]; rfl
    have hoverload : d.overload = overBudget s.requestedLevel s.cfg.powerBudget u.selectedLoad := by
      rw [show d = u.reported o from hd, hus]; rfl
    have hchanged : decide (u.selected.map (·.page) ≠ s.display.page ∨ u.selected.map (·.claimant) ≠ s.display.claimant) =
        decide changed := by
      rw [← hpage, ← hclaimant]
    have hcount : d.changes = (if decide (u.selected.map (·.page) ≠ s.display.page ∨
        u.selected.map (·.claimant) ≠ s.display.claimant) = true then bump s.display.changes else s.display.changes) := by
      rw [show d = u.reported o from hd, hus]; rfl
    rw [hchanged] at hcount
    have hover : d.overloads = (if (d.overload && !s.display.overload) = true then bump s.display.overloads
        else s.display.overloads) := by
      rw [hoverload, show d = u.reported o from hd, hus]; rfl
    have howed : u.display.owed = true ↔ owed := by
      have : u.display.owed = (s.display.owed || decide changed) := by rw [← hchanged, hus]; rfl
      rw [this, Bool.or_eq_true, decide_eq_true_iff]
    have hdimmed (l : Nat) (hl : u.selectedLoad = l) : dimmed l := by
      rw [← hrequested, hl] at happlied hoverload
      exact ⟨happlied, by rw [happlied]; exact appliedLevel_budget _ _ _, by rw [hoverload]; exact overBudget_iff _ _ _⟩
    have hreports {priority l : Nat} (hp : (u.selected.map (·.priority)).getD 0 = priority) (hl : u.selectedLoad = l) :
        reports priority l := by
      have hwho : who = claimantBytes d.claimant := (claimantBytes_eq _).symm
      show s.endFrame.displayPayload = _
      rw [hpayload, State.displayPayload, hp, hl, hwho, Display.pageByte_eq, htime, show d = u.reported o from hd]
      rfl
    refine ⟨hclaims.trans hexpired, fun l c rest hl hnot hc => ?_, fun hnot => ?_,
      ⟨fun hs => hrequested.trans (State.requestedLevel_steady hs),
        fun p1 p2 p3 p4 l0 l1 l2 l3 l4 hs hb hlv h12 h23 h34 => ?_⟩,
      ?_, ?_, ?_, fun hno => ?_, fun hyes => ⟨fun hc => ?_, fun n p hops hc => ?_, fun hc => ?_⟩, ?_⟩
    · have hsel : u.selected = some c := State.selected_first (hclaims.symm.trans hl)
        (fun x hx => mt (hfits x).1 (hnot x hx)) ((hfits c).2 hc)
      have hl : u.selectedLoad = (s.pages.records[c.page]).drive := by simp only [State.selectedLoad, hsel, hpages]
      exact ⟨by rw [hpage, hsel]; rfl, by rw [hclaimant, hsel]; rfl, hdimmed _ hl, hreports (by rw [hsel]; rfl) hl⟩
    · have hsel : u.selected = none := State.selected_blank fun c hc => mt (hfits c).1 (hnot c (hclaims ▸ hc))
      have hl : u.selectedLoad = 0 := by simp only [State.selectedLoad, hsel]
      exact ⟨by rw [hpage, hsel]; rfl, by rw [hclaimant, hsel]; rfl, hdimmed _ hl, hreports (by rw [hsel]; rfl) hl⟩
    · rw [hrequested, State.requestedLevel_mapped hs, hb, hlv]
      exact bandLevel_rising h12 h23 h34 _ _ _ _ _ _
    · rw [hcount]
      simp only [decide_eq_true_eq]
    · rw [hover]
      simp only [Bool.and_eq_true, Bool.not_eq_true']
    · rw [show d = u.reported o from hd, State.reported, hcfg, hput]
    · have ht := State.finishFrame_quiet (Bool.eq_false_iff.2 (mt howed.1 hno))
      rw [← hu] at ht
      exact ⟨by rw [show d = s.endFrame.display from rfl, ht]; rfl, by rw [ht]; exact hsame _⟩
    · have ht := State.finishFrame_none (howed.2 hyes) (hchoice.trans hc)
      rw [← hu] at ht
      exact ⟨by rw [show d = s.endFrame.display from rfl, ht]; rfl, by rw [ht]; exact hsame _⟩
    · have ht := State.finishFrame_terminus (howed.2 hyes) (hchoice.trans hc) rfl
      have hport : u.port p = s.port p := by
        rw [hput]
        exact s.port_put_display _ p
      have hoffer (f : Frame) : u.offer p f = { s.offer p f with display := u.display } := by
        rw [hput]
        exact s.offer_put_display _ p f
      rw [← hu, hoffer, hport] at ht
      refine ⟨⟨u.ownFrame .srpt 255 241 u.displayPayload, rfl, hpayload.symm, rfl, rfl, rfl, by rw [← hcfg]; rfl, ?_, ?_, ?_⟩, ?_⟩
      · rw [show d = s.endFrame.display from rfl, ht]
        exact decide_eq_true_iff
      · rw [ht]
      · rw [ht]
      · rw [ht]
        intro k hk
        exact (State.item_put_display_ne (s.offer p _) _ fun h => hk (by simp [h])).trans (s.offer_item p _ fun h => hk (.tail _ h))
    · refine ⟨fun hq => ?_, fun hq => ?_, ?_⟩
      · have ht := State.finishFrame_room (howed.2 hyes) (hchoice.trans hc) (by rwa [hqueue])
        rw [← hu, hqueue, hcfg, ← hpayload] at ht
        exact ⟨congrArg (fun t => t.display.owed) ht, congrArg State.equip ht⟩
      · have ht := State.finishFrame_full (howed.2 hyes) (hchoice.trans hc) (by rwa [hqueue])
        rw [← hu] at ht
        exact ⟨by rw [show d = s.endFrame.display from rfl, ht]; rfl, by rw [ht]; exact hqueue⟩
      · by_cases hq : s.equip.outbound.length < 32
        · have ht := State.finishFrame_room (howed.2 hyes) (hchoice.trans hc) (by rwa [hqueue])
          rw [← hu] at ht
          rw [ht, hput]
          exact s.sameBut_display_equip _ _
        · have ht := State.finishFrame_full (howed.2 hyes) (hchoice.trans hc) (by rw [hqueue]; omega)
          rw [← hu] at ht
          rw [ht]
          exact fun k hk => hsame _ k fun h => hk (by simp [List.mem_singleton.1 h])
    · rw [show d = u.reported o from hd, hus]
      exact ⟨rfl, rfl, rfl, rfl⟩
  · simp only [State.signDrive, hp]
  · simp only [State.signDrive, hp, State.colourEntry, pixelAddr, List.getD_eq_getElem?_getD, hc]
    rfl

end Sys2Proof.Machine
end

section
/-! SUPPORT. Sign Page Memory: an SDAT's bytes, its load, and the reports of both (R146 to R150, R154 to R157). -/

namespace Sys2Proof.Machine

/-! ### The bytes of an SDAT (R146, 12.3) -/

theorem byteAt_eq (l : List Byte) (off : Nat) : byteAt l off = BitVec.ofNat 8 (field l off 1) := by
  rw [field_one]
  simp [byteAt]

theorem byteAt_bit (l : List Byte) (off i : Nat) :
    (byteAt l off).getLsbD i = true ↔ field l off 1 / 2 ^ i % 2 = 1 := by
  rw [field_one, BitVec.getLsbD, Nat.testBit_eq_decide_div_mod_eq, decide_eq_true_iff]
  rfl

/-- The mode and the write fields of an SDAT, as R146 has them. -/
def WriteFields (x : List Byte) (w : SignWrite) : Prop :=
  let n (i : Nat) : Nat := field x i 1
  n 5 = 0 ∧ x.length = 6 ∧ w = .nothing ∨
    (n 5 = 1 ∨ n 5 = 2) ∧ x.length = 14 + n 13 ∧ 1 ≤ n 13 ∧ n 13 ≤ 200 ∧ n 12 ≤ 15 ∧
      (∃ g, (n 9, g) ∈ ([(0, .replace), (1, .and), (2, .or), (3, .xor)] : List (Nat × PlaneFn)) ∧
        w = if n 5 = 1 then .plane (n 6) (n 7) (BitVec.ofNat 4 (n 8)) g (n 10 % 8) (BitVec.ofNat 8 (n 11)) (x.drop 14)
          else .colour (n 6) (n 7) (BitVec.ofNat 8 (n 11)) (n 12) (x.drop 14)) ∨
    n 5 = 3 ∧ x.length = 13 ∧ 1 ≤ n 12 ∧ n 12 ≤ 200 ∧
      (∃ from' : Fin 4, n 9 = from' ∧ w = .copy (n 6) (n 7) (BitVec.ofNat 8 (n 8)) from' (n 10) (n 11) (n 12))

theorem planeFnOf_iff (n : Nat) (g : PlaneFn) : planeFnOf n = some g ↔
    (n, g) ∈ ([(0, .replace), (1, .and), (2, .or), (3, .xor)] : List (Nat × PlaneFn)) := by
  unfold planeFnOf
  split
  · simp [eq_comm]
  · simp [eq_comm]
  · simp [eq_comm]
  · simp [eq_comm]
  next h0 h1 h2 h3 => simp [show n ≠ 0 from h0, show n ≠ 1 from h1, show n ≠ 2 from h2, show n ≠ 3 from h3]

/-- The mode of an SDAT decides its fields. -/
theorem parseWrite_iff (x : List Byte) (w : SignWrite) : parseWrite x = some w ↔ WriteFields x w := by
  unfold parseWrite WriteFields
  dsimp only
  split
  next h => simp [h, eq_comm]
  next h =>
    simp only [h, byteAt_eq]
    constructor
    · intro hw
      split_ifs at hw with hc
      obtain ⟨hlen, hfrom, hlow, hhigh⟩ := hc
      exact .inr (.inr ⟨trivial, hlen, hlow, hhigh, ⟨field x 9 1, hfrom⟩, rfl, (Option.some.inj hw).symm⟩)
    · rintro (⟨h0, -⟩ | ⟨h12, -⟩ | ⟨-, hlen, hlow, hhigh, from', hfrom, rfl⟩)
      · cases h0
      · rcases h12 with h12 | h12 <;> cases h12
      · rw [dif_pos ⟨hlen, hfrom ▸ from'.isLt, hlow, hhigh⟩]
        simp [hfrom]
  next h0 h3 =>
    have hmode0 : field x 5 1 ≠ 0 := h0
    have hmode3 : field x 5 1 ≠ 3 := h3
    simp only [hmode0, hmode3, false_and, false_or, or_false, byteAt_eq, ← planeFnOf_iff]
    constructor
    · intro hw
      split at hw
      · cases hw
      next fn hfn =>
        split_ifs at hw with hc h1 h2
        · obtain ⟨-, hlen, hlow, hhigh, hcolour⟩ := hc
          refine ⟨.inl h1, hlen, hlow, hhigh, hcolour, fn, hfn, ?_⟩
          rw [if_pos h1, ← Option.some.inj hw]
          simp
        · obtain ⟨-, hlen, hlow, hhigh, hcolour⟩ := hc
          refine ⟨.inr h2, hlen, hlow, hhigh, hcolour, fn, hfn, ?_⟩
          rw [if_neg h1, ← Option.some.inj hw]
    · rintro ⟨hm, hlen, hlow, hhigh, hcolour, fn, hfn, rfl⟩
      rw [hfn]
      dsimp only
      rw [if_pos ⟨by omega, hlen, hlow, hhigh, hcolour⟩]
      rcases hm with h1 | h2
      · rw [if_pos h1, if_pos h1]
        simp
      · have h1 : field x 5 1 ≠ 1 := by omega
        rw [if_neg h1, if_pos h2, if_neg h1]

theorem WriteFields.length {x : List Byte} {w : SignWrite} (h : WriteFields x w) : 6 ≤ x.length := by
  rcases h with ⟨-, h, -⟩ | ⟨-, h, -⟩ | ⟨-, h, -⟩ <;> omega

/-- The page, the FIRST flag and the write fields of a good SDAT (R146). -/
def SdatFields (x : List Byte) (w : SignWrite) : Prop :=
  field x 0 1 ≤ 3 ∧ ((field x 4 1 % 2 = 1) ↔ field x 2 2 = 0) ∧ WriteFields x w

theorem first_iff (x : List Byte) : (byteAt x 4).getLsbD 0 = true ↔ field x 4 1 % 2 = 1 := by
  rw [byteAt_bit, pow_zero, Nat.div_one]

theorem parseSdat_of {x : List Byte} {w : SignWrite} (h : SdatFields x w) : parseSdat x =
    some { page := ⟨field x 0 1, Nat.lt_succ_of_le h.1⟩, loadId := byteAt x 1, index := field x 2 2,
           first := (byteAt x 4).getLsbD 0, last := (byteAt x 4).getLsbD 1, clear := (byteAt x 4).getLsbD 2, write := w } := by
  obtain ⟨hpage, hfirst, hw⟩ := h
  unfold parseSdat
  simp only [(parseWrite_iff x w).2 hw]
  exact dif_pos ⟨hw.length, Nat.lt_succ_of_le hpage, (first_iff x).trans hfirst⟩

theorem parseSdat_fields {x : List Byte} {d : Sdat} (h : parseSdat x = some d) : SdatFields x d.write := by
  unfold parseSdat at h
  split at h
  · cases h
  next w hw =>
    by_cases hc : 6 ≤ x.length ∧ field x 0 1 < 4 ∧ ((byteAt x 4).getLsbD 0 = true ↔ field x 2 2 = 0)
    · have ⟨_, hpage, hfirst⟩ := hc
      obtain rfl : _ = d := Option.some.inj ((dif_pos hc).symm.trans h)
      exact ⟨Nat.le_of_lt_succ hpage, (first_iff x).symm.trans hfirst, (parseWrite_iff x w).1 hw⟩
    · cases (dif_neg hc).symm.trans h

theorem parseSdat_none_iff (x : List Byte) : parseSdat x = none ↔ ∀ w, ¬ SdatFields x w := by
  refine ⟨fun h w hw => by simp [parseSdat_of hw] at h, fun h => Option.eq_none_iff_forall_ne_some.2 fun d hd => ?_⟩
  exact h _ (parseSdat_fields hd)

/-- A good SDAT gives the fields of its bytes (R146). -/
theorem parseSdat_iff (x : List Byte) (d : Sdat) : parseSdat x = some d ↔ SdatFields x d.write ∧ (d.page : Nat) = field x 0 1 ∧
    (d.loadId.toNat = field x 1 1 ∧ d.index = field x 2 2) ∧ (d.first = true ↔ field x 4 1 % 2 = 1) ∧
    (d.last = true ↔ field x 4 1 / 2 % 2 = 1) ∧ (d.clear = true ↔ field x 4 1 / 4 % 2 = 1) := by
  have hid : (byteAt x 1).toNat = field x 1 1 := (field_one x 1).symm
  constructor
  · intro h
    have hw := parseSdat_fields h
    rw [parseSdat_of hw] at h
    rw [← Option.some.inj h] at hw ⊢
    exact ⟨hw, rfl, ⟨hid, rfl⟩, first_iff x, byteAt_bit x 4 1, byteAt_bit x 4 2⟩
  · rintro ⟨hw, hpage, ⟨hload, hindex⟩, hfirst, hlast, hclear⟩
    rw [parseSdat_of hw, Option.some.injEq]
    have hload' : byteAt x 1 = d.loadId := BitVec.eq_of_toNat_eq (hid.trans hload.symm)
    have hfirst' : (byteAt x 4).getLsbD 0 = d.first := Bool.eq_iff_iff.2 ((first_iff x).trans hfirst.symm)
    have hlast' : (byteAt x 4).getLsbD 1 = d.last := Bool.eq_iff_iff.2 ((byteAt_bit x 4 1).trans hlast.symm)
    have hclear' : (byteAt x 4).getLsbD 2 = d.clear := Bool.eq_iff_iff.2 ((byteAt_bit x 4 2).trans hclear.symm)
    obtain ⟨page, loadId, index, first, last, clear, write⟩ := d
    simp only [Sdat.mk.injEq, hload', hfirst', hlast', hclear', and_true, true_and]
    exact ⟨Fin.ext hpage.symm, hindex.symm⟩

/-! ### Reports (R156) -/

section Report
variable {s : State} {a : Nat} {back : Option PortId} {y : List Byte}

theorem State.signReport_own (h : a = s.cfg.number) : s.signReport a back y = s.placeOrDrop (centreCopy 0x85 a y) := if_pos h

theorem State.placeOrDrop_room (m : CabMsg) (hq : s.equip.outbound.length < 32) :
    s.placeOrDrop m = { s with equip := { s.equip with outbound := s.equip.outbound ++ [m] } } := if_pos (s.queueRoom_iff.2 hq)

theorem State.placeOrDrop_full (m : CabMsg) (hq : 32 ≤ s.equip.outbound.length) :
    s.placeOrDrop m = { s with equip := { s.equip with outboundDrop := bump s.equip.outboundDrop } } :=
  if_neg (mt s.queueRoom_iff.1 (Nat.not_lt.2 hq))

theorem State.signReport_offered (h : a ≠ s.cfg.number) {p : PortId} (hp : (s.nodePort a).or back = some p) :
    s.signReport a back y = s.offer p (s.ownFrame .srpt 255 a y) := by
  refine (if_neg h).trans ?_
  rw [hp]
  rfl

theorem State.signReport_none (h : a ≠ s.cfg.number) (hp : (s.nodePort a).or back = none) : s.signReport a back y = s := by
  refine (if_neg h).trans ?_
  rw [hp]
  rfl

/-- A report goes to the outbound queue when it is for the node itself, and else over the node port or the given one. -/
theorem State.signReport_eq (s : State) (a : Nat) (back : Option PortId) (y : List Byte) : s.signReport a back y =
    if a = s.cfg.number then
      if s.equip.outbound.length < 32 then
        { s with equip := { s.equip with outbound := s.equip.outbound ++ [⟨0x85, BitVec.ofNat 8 a :: y⟩] } }
      else { s with equip := { s.equip with outboundDrop := bump s.equip.outboundDrop } }
    else match (s.nodePort a).or back with
      | some p => s.offer p
          { kind := .srpt, hops := 0, hopLimit := 255, origin := s.cfg.number, target := a, payload := y }
      | none => s := by
  by_cases h : a = s.cfg.number
  · rw [State.signReport_own h, if_pos h]
    by_cases hq : s.equip.outbound.length < 32
    · rw [if_pos hq, State.placeOrDrop_room _ hq]
      rfl
    · rw [if_neg hq, State.placeOrDrop_full _ (Nat.not_lt.1 hq)]
  · rw [if_neg h]
    split
    next p hp => rw [State.signReport_offered h hp]; rfl
    next hp => rw [State.signReport_none h hp]

end Report

theorem optLTBytes_eq (x : Option LTime) : optLTBytes x = match x with
    | none => [0, 0, 0, 0, 0, 0, 0]
    | some z => 1 :: bytesBE 6 z.toNat := by
  cases x <;> rfl

/-- The payload of a load report, by what the record now holds (R156, 12.3). -/
def loadReportBytes (page : Fin 4) (id : Byte) (outcome : List Byte) (index : Nat) (r : PageRecord) : List Byte :=
  [1, BitVec.ofNat 8 page, id] ++ outcome ++ bytesBE 2 index ++ bytesBE 2 r.lit ++ bytesBE 4 r.drive ++ optLTBytes r.activity

theorem State.loadReport_eq (s : State) (page : Fin 4) (id : Byte) (index : Nat) (o : LoadOutcome) (a : Nat)
    (back : Option PortId) : s.loadReport page id index o a back =
      s.signReport a back (loadReportBytes page id o.bytes index (s.pages.records[page])) := rfl

/-! ### Page records -/

section Record
variable (s : State) (page : Fin 4) (r : PageRecord)

@[simp] theorem State.setRecord_same : (s.setRecord page r).pages.records[page] = r := by
  simp [State.setRecord]

theorem State.recordReport_of {s : State} {page : Fin 4} {id : Byte} {a : Nat}
    (hid : (s.pages.records[page]).loadId = some id) (ho : (s.pages.records[page]).origin = some a) (index : Nat) (o : LoadOutcome) :
    s.recordReport page index o = s.loadReport page id index o a (s.pages.records[page]).port := by
  simp only [State.recordReport, ho, hid, Option.getD_some]

end Record

/-- The state in which a load is aborted, before its report (R149). -/
def State.aborting (s : State) (page : Fin 4) (r : PageRecord) : State :=
  { s with pages := { s.pages with
    records := s.pages.records.set page { r with state := .free, timer := none, lit := 0, drive := 0 }
    aborted := bump s.pages.aborted } }

theorem State.abortLoad_of {s : State} {page : Fin 4} {r : PageRecord} (hr : s.pages.records[page] = r) {id : Byte} {a : Nat}
    (hid : r.loadId = some id) (ho : r.origin = some a) (o : LoadOutcome) :
    s.abortLoad page o = (s.aborting page r).loadReport page id r.next o a r.port := by
  have hrec : (s.aborting page r).pages.records[page] = { r with state := .free, timer := none, lit := 0, drive := 0 } := by
    simp [State.aborting]
  have hab : s.abortLoad page o = (s.aborting page r).recordReport page r.next o := by
    rw [State.abortLoad, hr]
    rfl
  rw [hab, State.recordReport_of (by rw [hrec]; exact hid) (by rw [hrec]; exact ho), hrec]

/-- The state in which a load is complete, before its report (R150, R155). -/
def State.completing (s : State) (page : Fin 4) (r : PageRecord) : State :=
  { s with pages := { s.pages with
    records := s.pages.records.set page
      { r with state := .ready, timer := none, lit := s.litCount page, drive := s.driveLoad page }
    loaded := bump s.pages.loaded } }

theorem State.completeLoad_of {s : State} {page : Fin 4} {r : PageRecord} (hr : s.pages.records[page] = r) {id : Byte} {a : Nat}
    (hid : r.loadId = some id) (ho : r.origin = some a) :
    s.completeLoad page = (s.completing page r).loadReport page id r.next .loaded a r.port := by
  have hrec : (s.completing page r).pages.records[page] =
      { r with state := .ready, timer := none, lit := s.litCount page, drive := s.driveLoad page } := by
    simp [State.completing]
  have hcl : s.completeLoad page = (s.completing page r).recordReport page r.next .loaded := by
    rw [State.completeLoad, hr]
    rfl
  rw [hcl, State.recordReport_of (by rw [hrec]; exact hid) (by rw [hrec]; exact ho), hrec]

/-! ### A load begun (R148) -/

/-- The record of a load that begins. -/
def beginRecord (old : PageRecord) (d : Sdat) (a : Nat) (port : Option PortId) : PageRecord :=
  { state := .loading, loadId := some d.loadId, origin := some a, port := port, next := 1, lit := 0, drive := 0,
    activity := old.activity, timer := old.timer }

/-- The state in which the first write of a load is applied. -/
def State.cleared (t : State) (d : Sdat) (r : PageRecord) : State :=
  { t with pages := { t.pages with
    records := t.pages.records.set d.page r
    pixels := if d.clear then clearPage t.pages.pixels d.page else t.pages.pixels } }

theorem State.cleared_eq (t : State) (d : Sdat) (r : PageRecord) : t.cleared d r =
    if d.clear then { t.setRecord d.page r with pages := { (t.setRecord d.page r).pages with
      pixels := clearPage (t.setRecord d.page r).pages.pixels d.page } }
    else t.setRecord d.page r := by
  unfold State.cleared
  split <;> rfl

/-- The first fragment's write, with the record of the load (R148). -/
def State.writeFirst (v : State) (d : Sdat) (r : PageRecord) : State :=
  match v.applyWrite d.page d.write with
  | none => v.abortLoad d.page .badWrite
  | some m =>
    let w := { v with pages := { v.pages with pixels := m } }
    let x := w.setRecord d.page { r with activity := some w.time.lt, timer := w.startTimer 5000000 }
    if d.last then x.completeLoad d.page else x

section First
variable {v : State} {d : Sdat} {r : PageRecord}

theorem State.writeFirst_bad (h : v.applyWrite d.page d.write = none) : v.writeFirst d r = v.abortLoad d.page .badWrite := by
  simp only [State.writeFirst, h]

theorem State.writeFirst_good {m : List Host.Cell} (h : v.applyWrite d.page d.write = some m) {x : State}
    (hx : State.setRecord { v with pages := { v.pages with pixels := m } } d.page
      { r with activity := some v.time.lt, timer := some ⟨v.refTime, 5000000⟩ } = x) :
    v.writeFirst d r = if d.last then x.completeLoad d.page else x := by
  simp only [State.writeFirst, h, ← hx, State.startTimer]

end First

/-- Whether the FIRST fragment repeats that of the load in progress. -/
def Repeated (old : PageRecord) (d : Sdat) (a : Nat) : Prop :=
  old.state = .loading ∧ old.loadId = some d.loadId ∧ old.origin = some a

section Begin
variable {s : State} {d : Sdat} {a : Nat} {port : Option PortId}

theorem State.beginLoad_repeated (h : Repeated (s.pages.records[d.page]) d a) : s.beginLoad d a port = s.duplicateSdat := if_pos h

theorem State.beginLoad_started (h : ¬ Repeated (s.pages.records[d.page]) d a) {t : State} (ht : s.supersede d.page = t) :
    s.beginLoad d a port = (t.cleared d (beginRecord (s.pages.records[d.page]) d a port)).writeFirst d
      (beginRecord (s.pages.records[d.page]) d a port) := by
  rw [State.cleared_eq, ← ht]
  exact if_neg h

theorem State.supersede_idle {page : Fin 4} (h : (s.pages.records[page]).state ≠ .loading) : s.supersede page = s := if_neg h

theorem State.supersede_loading {page : Fin 4} {id : Byte} {o : Nat} (h : (s.pages.records[page]).state = .loading)
    (hid : (s.pages.records[page]).loadId = some id) (ho : (s.pages.records[page]).origin = some o) :
    s.supersede page = State.loadReport { s with pages := { s.pages with superseded := bump s.pages.superseded } } page id
      (s.pages.records[page]).next .superseded o (s.pages.records[page]).port :=
  (if_pos h).trans (State.recordReport_of
    (s := { s with pages := { s.pages with superseded := bump s.pages.superseded } }) hid ho _ .superseded)

end Begin

/-! ### A load continued (R149) -/

section Continue
variable {s : State} {d : Sdat} {a : Nat} {port : Option PortId} {r : PageRecord} (hr : s.pages.records[d.page] = r)
include hr

theorem State.continueLoad_refused (h : r.state ≠ .loading) : s.continueLoad d a port = s.refuseSdat d a port .notLoading := by
  rw [State.continueLoad, hr]
  exact if_pos h

variable (h : r.state = .loading)
include h

theorem State.continueLoad_mismatch (ho : r.loadId ≠ some d.loadId ∨ r.origin ≠ some a ∨ r.next < d.index) :
    s.continueLoad d a port = s.abortLoad d.page .mismatch := by
  rw [State.continueLoad, hr]
  exact (if_neg (not_not.2 h)).trans (if_pos ho)

variable (ho : ¬ (r.loadId ≠ some d.loadId ∨ r.origin ≠ some a ∨ r.next < d.index))
include ho

theorem State.continueLoad_duplicate (hd : d.index < r.next) : s.continueLoad d a port = s.duplicateSdat := by
  rw [State.continueLoad, hr]
  exact (if_neg (not_not.2 h)).trans ((if_neg ho).trans (if_pos hd))

variable (hd : d.index = r.next)
include hd

theorem State.continueLoad_bad (hw : s.applyWrite d.page d.write = none) :
    s.continueLoad d a port = s.abortLoad d.page .badWrite := by
  rw [State.continueLoad, hr]
  refine (if_neg (not_not.2 h)).trans ((if_neg ho).trans ((if_neg (by omega)).trans ?_))
  rw [hw]

variable {m : List Host.Cell} (hw : s.applyWrite d.page d.write = some m)
  {u : State} (hu : u = { s with pages := { s.pages with pixels := m } })
  {taken : PageRecord} (htaken : taken = { r with port := port, activity := some s.time.lt, timer := some ⟨s.refTime, 5000000⟩ })
include hw hu htaken

theorem State.continueLoad_good : s.continueLoad d a port =
    if d.index = 65535 ∧ d.last = false then (u.setRecord d.page taken).abortLoad d.page .tooLong
    else
      let x := u.setRecord d.page { taken with next := u.nextIndex r.next }
      let v := if r.next < 65535 then x else { x with freeCount := x.freeCount + 1 }
      if d.last then v.completeLoad d.page else v := by
  rw [State.continueLoad, hr]
  refine (if_neg (not_not.2 h)).trans ((if_neg ho).trans ((if_neg (by omega)).trans ?_))
  rw [hw]
  subst hu htaken
  rfl

end Continue

/-! ### An SDAT taken (R146, R147, R157) -/

section Take
variable {s : State} {a : Nat} {port : Option PortId} {x : List Byte} (hp : s.signPresent = true)
include hp

theorem State.takeSdat_bad (hx : parseSdat x = none) :
    s.takeSdat a port x = { s with pages := { s.pages with badSdat := bump s.pages.badSdat } } := by
  refine (if_neg (by simp [hp])).trans ?_
  rw [hx]

theorem State.takeSdat_good {d : Sdat} (hx : parseSdat x = some d) : s.takeSdat a port x =
    if s.display.page = some d.page then s.refuseSdat d a port .displayed
    else if d.first then s.beginLoad d a port else s.continueLoad d a port := by
  refine (if_neg (by simp [hp])).trans ?_
  rw [hx]

end Take

/-- Settles O45, by the timer's abort, the bytes of an SDAT, and the branches of a load. -/
theorem loadTimersAbortTheLoad : Obligations.LoadTimersAbortTheLoad := by
  refine ⟨fun s page => ?_, fun s d a port x => ?_⟩
  · intro r t report
    have hrep (id : Byte) : loadReportBytes page id LoadOutcome.timeout.bytes r.next (t.pages.records[page]) = report id := by
      have hrec : t.pages.records[page] = { r with state := .free, timer := none, lit := 0, drive := 0 } := by simp [t]
      rw [loadReportBytes, hrec, optLTBytes_eq]
      simp only [report, List.append_assoc]
      rfl
    refine ⟨fun h => congrArg Host.Outcome.next (if_neg fun hc => ?_), fun id a hs ht hid ho => ?_⟩
    · rcases h with h | h
      · exact h hc.1
      · exact Option.isSome_iff_ne_none.1 hc.2 h
    · intro f
      have hrun {u : State} (hu : t.signReport a r.port (report id) = u) : exec (.loadTimerExpiry page) s = .next u := by
        refine congrArg Host.Outcome.next ((if_pos ⟨hs, Option.isSome_iff_ne_none.2 ht⟩).trans ?_)
        rw [State.abortLoad_of rfl hid ho, State.loadReport_eq]
        rw [← hu, ← hrep id]
        rfl
      have hport : t.nodePort a = s.nodePort a := rfl
      refine ⟨fun hne => ⟨fun p hp => hrun (State.signReport_offered (s := t) hne (by rw [hport, hp]; rfl)),
        fun p hp hb => hrun (State.signReport_offered (s := t) hne (by rw [hport, hp]; exact hb)),
        fun hp hb => hrun (State.signReport_none (s := t) hne (by rw [hport, hp]; exact hb))⟩,
        fun he => ⟨fun hq => hrun ((State.signReport_own (s := t) he).trans (State.placeOrDrop_room (s := t) _ hq)),
          fun hq => hrun ((State.signReport_own (s := t) he).trans (State.placeOrDrop_full (s := t) _ hq))⟩⟩
  · intro present old counts record told refused twice gone done run n write
    have htold (t : State) (id : Byte) (o : LoadOutcome) (index to' : Nat) (back : Option PortId) :
        t.loadReport d.page id index o to' back = told t id o.bytes index to' back := by
      have hreport := (t.loadReport_eq d.page id index o to' back).trans (State.signReport_eq _ _ _ _)
      rw [loadReportBytes, optLTBytes_eq] at hreport
      exact hreport
    have hgone (t : State) (r : PageRecord) (o : LoadOutcome) (why id : Byte) (to' : Nat) (hr : t.pages.records[d.page] = r)
        (hid : r.loadId = some id) (ho : r.origin = some to') (hwhy : o.bytes = [3, why]) :
        t.abortLoad d.page o = gone t r why id to' := by
      rw [State.abortLoad_of hr hid ho, htold, hwhy]
      rfl
    have hdone (t : State) (r : PageRecord) (id : Byte) (to' : Nat) (hr : t.pages.records[d.page] = r)
        (hid : r.loadId = some id) (ho : r.origin = some to') : t.completeLoad d.page = done t r id to' := by
      rw [State.completeLoad_of hr hid ho, htold]
      rfl
    have hpresent : present ↔ s.signPresent = true := by simp [present, State.signPresent]
    have hrefused (o : LoadOutcome) (why : Byte) (ho : o.bytes = [4, why]) : s.refuseSdat d a port o = refused why := by
      show State.loadReport _ _ _ _ _ _ _ = _
      rw [htold, ho]
    refine ⟨parseSdat_iff x d, parseSdat_none_iff x, fun h => if_pos (Bool.eq_false_iff.2 (mt hpresent.2 h)),
      fun h hx => State.takeSdat_bad (hpresent.1 h) hx, fun h hx => ?_⟩
    have hrun := State.takeSdat_good (a := a) (port := port) (hpresent.1 h) hx
    refine ⟨fun hd => (hrun.trans (if_pos hd)).trans (hrefused .displayed 5 rfl), fun hd hf => ?_, fun hd hf => ?_⟩
    · intro repeated r started
      have hrun : run = s.beginLoad d a port := hrun.trans ((if_neg hd).trans (if_pos hf))
      have hstart (t : State) (ht : s.supersede d.page = t) (hno : ¬ repeated) : started t := by
        have htime : t.time = s.time := ht ▸ s.supersede_item d.page (part := .time) (by decide)
        have href : t.refTime = s.refTime := ht ▸ s.supersede_item d.page (part := .refTime) (by decide)
        unfold started
        intro v taken
        have hv : t.cleared d r = v := rfl
        have hrec : v.pages.records[d.page] = r := by simp [v, record, counts]
        have hfirst : run = v.writeFirst d r := hrun.trans (State.beginLoad_started hno ht)
        refine ⟨fun hw => ?_, fun m hw => ?_⟩
        · rw [hfirst, State.writeFirst_bad hw]
          exact hgone v r .badWrite 3 d.loadId a hrec rfl rfl rfl
        · intro w
          have hx : State.setRecord { v with pages := { v.pages with pixels := m } } d.page
              { r with activity := some v.time.lt, timer := some ⟨v.refTime, 5000000⟩ } = w := by
            have htaken : ({ r with activity := some v.time.lt, timer := some ⟨v.refTime, 5000000⟩ } : PageRecord) = taken := by
              rw [show v.time = s.time from htime, show v.refTime = s.refTime from href]
            rw [htaken]
            rfl
          have hwrec : w.pages.records[d.page] = taken := by simp [w, record, counts]
          rw [hfirst, State.writeFirst_good hw hx, hdone w taken d.loadId a hwrec rfl rfl]
      refine ⟨fun hrep => hrun.trans (State.beginLoad_repeated hrep),
        fun hno hidle => hstart s (State.supersede_idle hidle) hno, fun id o hno hload hid ho => hstart _ ?_ hno⟩
      rw [State.supersede_loading hload hid ho, htold]
      rfl
    · intro other taken
      have hrun : run = s.continueLoad d a port := hrun.trans ((if_neg hd).trans (if_neg (by simp [hf])))
      have hold : s.pages.records[d.page] = old := rfl
      refine ⟨fun hidle => (hrun.trans (State.continueLoad_refused hold hidle)).trans (hrefused .notLoading 6 rfl),
        fun id o hload hid ho hother => (hrun.trans (State.continueLoad_mismatch hold hload hother)).trans
          (hgone s old .mismatch 1 id o hold hid ho rfl),
        fun hload hno hlow => hrun.trans (State.continueLoad_duplicate hold hload hno hlow), fun hload hno hnext => ?_⟩
      have hid : old.loadId = some d.loadId := by simp only [other, not_or, not_not] at hno; exact hno.1
      have ho : old.origin = some a := by simp only [other, not_or, not_not] at hno; exact hno.2.1
      refine ⟨fun hw => (hrun.trans (State.continueLoad_bad hold hload hno hnext hw)).trans
        (hgone s old .badWrite 3 d.loadId a hold hid ho rfl), fun m hw => ?_⟩
      intro u next
      have hgood := hrun.trans (State.continueLoad_good hold hload hno hnext hw (u := u) rfl (taken := taken) rfl)
      have hset (q : PageRecord) : (record u q).pages.records[d.page] = q := by simp [record, counts]
      refine ⟨fun hlt => ?_, fun heq hl => ?_, fun heq hl => ?_⟩
      · have hindex : u.nextIndex old.next = old.next + 1 := if_pos hlt
        rw [hgood, if_neg (by omega)]
        dsimp only
        rw [hindex, if_pos hlt]
        exact if_congr Iff.rfl (hdone (record u next) next d.loadId a (hset next) hid ho) rfl
      · rw [hgood, if_pos ⟨hnext.trans heq, hl⟩]
        exact hgone (record u taken) taken .tooLong 4 d.loadId a (hset taken) hid ho rfl
      · intro free
        have hge : ¬ old.next < 65535 := by omega
        have hindex : u.nextIndex old.next = Config.freeNat s.freeCount % 65536 := if_neg hge
        rw [hgood, if_neg (by simp [hl])]
        dsimp only
        rw [hindex, if_neg hge, if_pos hl]
        exact hdone { record u free with freeCount := s.freeCount + 1 } free d.loadId a (hset free) hid ho

end Sys2Proof.Machine
end

section
/-! SUPPORT. Weather Monitor: renewals, the WALR at a window's end and the weather report (R185, R187, R188). -/

namespace Sys2Proof.Machine

/-! ### Renewals (R185) -/

theorem State.renew_unusable {s t : State} {n : Fin 8}
    (ht : s.setRule n { s.weather.rules[n] with renewal := s.renewalTimer n } = t) (h : ¬ t.sourceUsable (t.rule n) = true) :
    s.renew n = t := by
  subst ht
  exact if_neg h

theorem State.renew_usable {s t : State} {n : Fin 8}
    (ht : s.setRule n { s.weather.rules[n] with renewal := s.renewalTimer n } = t) (h : t.sourceUsable (t.rule n) = true) :
    s.renew n = (t.gather (alertOf (t.rule n) n)).claimForRule n := by
  subst ht
  exact if_pos h

theorem State.claimForRule_none {s : State} {n : Fin 8} (h : (s.rule n).claim = none) : s.claimForRule n = s := by
  simp only [State.claimForRule, h]

theorem State.claimForRule_some {s : State} {n : Fin 8} {page : Fin 4} {priority : Nat} (h : (s.rule n).claim = some (page, priority)) :
    s.claimForRule n = s.ruleClaim n page priority (s.rule n).lifetime := by
  simp only [State.claimForRule, h]

theorem State.gather_rule (s : State) (g : GatherItem) (n : Fin 8) : (s.gather g).rule n = s.rule n :=
  State.rule_of_cfg (s.gather_item g (part := .cfg) (by decide))

/-! ### The WALR (R187) -/

section Walr
variable {u : State} {p : PortId} {zone : Nat} {payload : List Byte}

theorem State.countWalr_taken : u.countWalr .taken = { u with weather := { u.weather with walrs := bump u.weather.walrs } } := rfl

theorem State.countWalr_lost {a : Answer} (h : a ≠ .taken) :
    u.countWalr a = { u with weather := { u.weather with alertLost := bump u.weather.alertLost } } := by
  cases a with
  | taken => exact absurd rfl h
  | refused | discarded => rfl

theorem State.offerWalr_silent (h : ¬ ((u.port p).state = .lit ∧ zone ≠ 0)) : u.offerWalr p zone payload = u := if_neg h

/-- A WALR that is offered counts as taken or as lost. -/
theorem State.offerWalr_goes (h : (u.port p).state = .lit ∧ zone ≠ 0) {f : Frame}
    (hf : u.ownFrame .walr zone 0 payload = f) : u.offerWalr p zone payload =
      if (u.port p).offerAnswer f = .taken then
        { u.offer p f with weather := { u.weather with walrs := bump u.weather.walrs } }
      else { u.offer p f with weather := { (u.offer p f).weather with alertLost := bump (u.offer p f).weather.alertLost } } := by
  have hweather : (u.offer p f).weather = u.weather := u.offer_item p f (part := .weather) (by cases p <;> decide)
  subst hf
  refine (if_pos h).trans ?_
  dsimp only
  by_cases ha : (u.port p).offerAnswer (u.ownFrame .walr zone 0 payload) = .taken
  · rw [if_pos ha, ha, State.countWalr_taken, hweather]
  · rw [if_neg ha, State.countWalr_lost ha]

theorem State.hasWalrOffer_iff : u.hasWalrOffer p zone = true ↔ (u.port p).state = .lit ∧ zone ≠ 0 := by
  simp [State.hasWalrOffer]

end Walr

theorem State.countWalr_port (u : State) (a : Answer) (p : PortId) : (u.countWalr a).port p = u.port p := by
  cases a <;> cases p <;> rfl

/-- A WALR offered on one port leaves the other. -/
theorem State.offerWalr_port_ne (u : State) {p r : PortId} (h : r ≠ p) (zone : Nat) (payload : List Byte) :
    (u.offerWalr r zone payload).port p = u.port p := by
  unfold State.offerWalr
  split
  · exact (State.countWalr_port _ _ p).trans (u.offer_port_ne h _)
  · rfl

/-- The WALR is sent after the gathering was emptied. -/
theorem State.sendWalr_eq {s t u : State} {payload : List Byte}
    (hp : walrPayload (s.weather.gathering.map GatherItem.item) = payload)
    (ht : { s with weather := { s.weather with gathering := [], windowTimer := none } } = t)
    (hu : (if t.hasWalrOffer .east t.cfg.eastZone || t.hasWalrOffer .west t.cfg.westZone then
      (t.offerWalr .east t.cfg.eastZone payload).offerWalr .west t.cfg.westZone payload
    else t.countWalr .discarded) = u) :
    s.sendWalr = if u.isTerminus then u.placeOrDrop (centreCopy 0x87 u.cfg.number payload) else u := by
  subst hp ht hu
  rfl

/-! ### The weather report (R188) -/

theorem wrptChannel_length (c : ReadingChannel) : (wrptChannel c).length = 5 := by simp [wrptChannel, bytesSigned16, bytesCounter]

theorem ruleStateBytes_length (r : RuleConfig) (st : RuleState) : (ruleStateBytes r st).length = 2 := by
  unfold ruleStateBytes
  split
  · rfl
  · cases st <;> rfl

theorem State.wrptPulse_length (s : State) (ch : PulseId) : (s.wrptPulse ch).length = 7 := by simp [State.wrptPulse, bytesCounter]

/-- A list whose elements give rows of one length. -/
theorem flatMap_length_const {α β : Type} {f : α → List β} {k : Nat} (h : ∀ a, (f a).length = k) (l : List α) :
    (l.flatMap f).length = l.length * k := by
  simp [List.length_flatMap, h]

theorem State.wrptPayload_length (s : State) : s.wrptPayload.length = 84 := by
  have hrule (n : Fin 8) : (s.ruleBytes n ++ [BitVec.ofNat 8 (s.rule n).kind]).length = 3 := by
    simp [State.ruleBytes, ruleStateBytes_length]
  have hrules := flatMap_length_const hrule allRules
  have hchannels := flatMap_length_const wrptChannel_length s.weather.channels.toList
  simp only [State.wrptPayload, List.length_append, State.wrptPulse_length, hrules, hchannels, Vector.length_toList, bytesCounter,
    bytesBE_length]
  rfl

section Wrpt
variable {s : State}

theorem State.sendWrpt_none (h : s.terminusChoice = .none) : s.sendWrpt = s.countReportLost := by
  simp only [State.sendWrpt, h]

theorem State.sendWrpt_self (h : s.terminusChoice = .self) :
    s.sendWrpt = s.placeOrDrop (centreCopy 0x86 s.cfg.number s.wrptPayload) := by
  simp only [State.sendWrpt, h]

theorem State.sendWrpt_terminus {n : Nat} {p : PortId} {hops : Nat} (h : s.terminusChoice = .terminus n p hops) {f : Frame}
    (hf : s.ownFrame .wrpt 255 241 s.wrptPayload = f) :
    s.sendWrpt = if (s.port p).offerAnswer f = .taken then s.offer p f else (s.offer p f).countReportLost := by
  simp only [State.sendWrpt, h, hf]
  rcases (s.port p).offerAnswer f with _ | _ | _ <;> rfl

end Wrpt

/-- The report timer starts anew by the clock and the configuration, which sending a report does not change. -/
theorem State.reportTimerAnew_sendWrpt (s : State) : s.sendWrpt.reportTimerAnew = { s.sendWrpt with
    weather := { s.sendWrpt.weather with reportTimer := some ⟨s.refTime, s.cfg.reportInterval * 1000000⟩ } } := by
  have href : s.sendWrpt.refTime = s.refTime := s.sendWrpt_item (part := .refTime) (by decide)
  have hcfg : s.sendWrpt.cfg = s.cfg := s.sendWrpt_item (part := .cfg) (by decide)
  have htimer : s.sendWrpt.startTimer (s.sendWrpt.cfg.reportInterval * 1000000) =
      some ⟨s.refTime, s.cfg.reportInterval * 1000000⟩ := by rw [State.startTimer, href, hcfg]
  rw [State.reportTimerAnew, htimer]

/-- Settles O50, by the usable source, the ports that are LIT with a zone, and the terminus choice. -/
theorem renewalsWindowsAndReports : Obligations.RenewalsWindowsAndReports := by
  intro s n w t item usable
  have ht : s.setRule n { s.weather.rules[n] with renewal := s.renewalTimer n } = t := rfl
  have husable : t.sourceUsable (t.rule n) = true ↔ usable := by
    have hrule : t.rule n = s.rule n := rfl
    rw [hrule]
    unfold State.sourceUsable
    show _ ↔ (match (s.rule n).source with
      | .wind => s.weather.values.wind ≠ none
      | .rain => s.weather.values.rain ≠ none
      | .channel c => (s.weather.channels[c]).valid = true ∧ (s.weather.channels[c]).stale = false
      | .contacts _ => True)
    cases (s.rule n).source with
    | wind | rain => exact Option.isSome_iff_ne_none
    | channel c => exact (ReadingChannel.usable_iff _).trans (and_congr_right fun _ => Bool.not_eq_true _ ▸ Iff.rfl)
    | contacts _ => exact ⟨fun _ => trivial, fun _ => rfl⟩
  have hrenew (h : w.renewal ≠ none) {u : State} (hu : s.renew n = u) : exec (.renewalTimerExpiry n) s = .next u :=
    congrArg Host.Outcome.next ((if_pos (Option.isSome_iff_ne_none.2 h)).trans hu)
  have hgather : (t.gather (alertOf (t.rule n) n)).rule n = s.rule n := t.gather_rule _ n
  refine ⟨fun h => congrArg Host.Outcome.next (if_neg (by rw [show (s.weather.rules[n]).renewal = none from h]; simp)),
    fun h hu => hrenew h (State.renew_unusable ht (mt husable.1 hu)),
    fun h hu hc => hrenew h ((State.renew_usable ht (husable.2 hu)).trans (State.claimForRule_none (by rw [hgather, hc]))),
    fun page priority h hu hc => hrenew h ((State.renew_usable ht (husable.2 hu)).trans ?_), ?_, ?_⟩
  · rw [State.claimForRule_some (by rw [hgather, hc]), hgather]
    rfl
  · intro bytes payload emptied walr goes lost one copied
    have hpayload : walrPayload (s.weather.gathering.map GatherItem.item) = payload := by
      rw [walrPayload, List.length_map, List.flatMap_map]
      rfl
    have hone {u : State} {p : PortId} {zone : Nat} (hcfg : u.cfg = s.cfg) (hport : u.port p = s.port p) (hz : goes p zone) :
        u.offerWalr p zone payload = one u p zone :=
      State.offerWalr_goes (by rwa [hport]) (by rw [State.ownFrame, hcfg])
    have hsilent {u : State} {p : PortId} {zone : Nat} (hport : u.port p = s.port p) (hz : ¬ goes p zone) :
        u.offerWalr p zone payload = u := State.offerWalr_silent (by rwa [hport])
    have hoffer (p : PortId) (zone : Nat) : emptied.hasWalrOffer p zone = true ↔ goes p zone :=
      State.hasWalrOffer_iff.trans (by cases p <;> rfl)
    have hport (p : PortId) : emptied.port p = s.port p := by cases p <;> rfl
    have hrun (hw : s.weather.windowTimer ≠ none) (hr : s.node = .running) {u : State} (hcfg : u.cfg = s.cfg) (hnode : u.node = s.node)
        (hu : (if emptied.hasWalrOffer .east s.cfg.eastZone || emptied.hasWalrOffer .west s.cfg.westZone then
            (emptied.offerWalr .east s.cfg.eastZone payload).offerWalr .west s.cfg.westZone payload
          else emptied.countWalr .discarded) = u) : exec .gatheringWindowExpiry s = .next (copied u) := by
      have hterm : u.isTerminus = true ↔ s.cfg.role = .terminus := by
        rw [State.isTerminus_iff, hcfg, hnode]
        simp [hr]
      refine congrArg Host.Outcome.next ((if_pos (Option.isSome_iff_ne_none.2 hw)).trans
        ((State.sendWalr_eq hpayload rfl hu).trans ?_))
      rw [hcfg]
      exact if_congr hterm rfl rfl
    have hcfg {u v : State} {p : PortId} {zone : Nat} (hu : u.cfg = s.cfg) (hv : u.offerWalr p zone payload = v) : v.cfg = s.cfg :=
      hv ▸ (u.offerWalr_item p zone payload (part := .cfg) (by decide)).trans hu
    have hnode {u v : State} {p : PortId} {zone : Nat} (hu : u.node = s.node) (hv : u.offerWalr p zone payload = v) :
        v.node = s.node := hv ▸ (u.offerWalr_item p zone payload (part := .node) (by decide)).trans hu
    have hwest_port {v : State} {zone : Nat} (hv : emptied.offerWalr .east zone payload = v) : v.port .west = s.port .west :=
      hv ▸ (emptied.offerWalr_port_ne (by decide) zone payload).trans (hport .west)
    refine ⟨fun h => congrArg Host.Outcome.next (if_neg (by simp [h])), fun hw hr =>
      ⟨fun he hwe => ?_, fun he hwe => ?_, fun he hwe => ?_, fun he hwe => ?_⟩⟩
    · have heast := hone (u := emptied) rfl (hport .east) he
      have hwest := hone (hcfg (u := emptied) rfl heast) (hwest_port heast) hwe
      exact hrun hw hr (hcfg (hcfg (u := emptied) rfl heast) hwest) (hnode (hnode (u := emptied) rfl heast) hwest)
        ((if_pos (by simp [(hoffer .east _).2 he])).trans (by rw [heast, hwest]))
    · have heast := hone (u := emptied) rfl (hport .east) he
      have hwest := hsilent (u := one emptied .east s.cfg.eastZone) (p := .west) (hwest_port heast) hwe
      exact hrun hw hr (hcfg (u := emptied) rfl heast) (hnode (u := emptied) rfl heast)
        ((if_pos (by simp [(hoffer .east _).2 he])).trans (by rw [heast, hwest]))
    · have heast := hsilent (hport .east) he
      have hwest := hone (u := emptied) rfl (hport .west) hwe
      exact hrun hw hr (hcfg (u := emptied) rfl hwest) (hnode (u := emptied) rfl hwest)
        ((if_pos (by simp [(hoffer .west _).2 hwe])).trans (by rw [heast, hwest]))
    · refine hrun hw hr (u := lost emptied) rfl rfl ((if_neg ?_).trans rfl)
      rw [Bool.or_eq_true, hoffer, hoffer]
      exact not_or.2 ⟨he, hwe⟩
  · intro lost anew two pulse channel rule report
    have hpulse (ch : PulseId) : s.wrptPulse ch = pulse (pulseGet s.weather.values ch) (pulseGet s.cfg.pulseWindow ch)
        (pulseGet s.inputs.pulses ch) (pulseGet s.weather.saturations ch) := by
      simp only [State.wrptPulse, pulse]
      cases pulseGet s.weather.values ch <;> rfl
    have hchannel (c : ReadingChannel) : wrptChannel c = channel c := by
      have hflags : BitVec.ofNat 8 (c.valid.toNat + 2 * c.stale.toNat) = (if c.valid then 1 else 0) + (if c.stale then 2 else 0) := by
        cases c.valid <;> cases c.stale <;> rfl
      rw [wrptChannel, hflags]
      rfl
    have hrule (i : Fin 8) : s.ruleBytes i ++ [BitVec.ofNat 8 (s.rule i).kind] = rule i := by
      have hstate (x : RuleState) : ruleStateBytes (s.rule i) x = if (s.rule i).kind = 0 then [0, 0] else match x with
          | .clear => [1, 0]
          | .pending k => [2, BitVec.ofNat 8 k]
          | .raised => [3, 0]
          | .clearing k => [4, BitVec.ofNat 8 k] := by
        cases x <;> rfl
      exact congrArg (· ++ _) (hstate _)
    have hreport : s.wrptPayload = report := by
      rw [State.wrptPayload, hpulse .wind, hpulse .rain, funext hchannel, funext hrule]
      rfl
    have hrun (h : s.weather.reportTimer ≠ none) {u : State} (hu : s.sendWrpt = u) : exec .reportTimerExpiry s = .next (anew u) := by
      subst hu
      exact congrArg Host.Outcome.next ((if_pos (Option.isSome_iff_ne_none.2 h)).trans s.reportTimerAnew_sendWrpt)
    refine ⟨hreport ▸ s.wrptPayload_length, fun h => congrArg Host.Outcome.next (if_neg (by simp [h])), fun h =>
      ⟨fun hc => hrun h (State.sendWrpt_none hc), fun hc => hrun h ((State.sendWrpt_self hc).trans ?_), fun a p k hc => ?_⟩⟩
    · rw [hreport]
      rfl
    · exact hrun h (State.sendWrpt_terminus hc (by rw [hreport]; rfl))

end Sys2Proof.Machine
end

section
/-! SUPPORT. The equipment port: inbound messages and their bytes, STATUS, transfers and READY (R110, R190 to R196). -/

namespace Sys2Proof.Machine

/-! ### The bytes of an inbound message (R191) -/

/-- The number that bytes spell gives the bytes back. -/
theorem bytesBE_natBE (l : List Byte) : bytesBE l.length (natBE l) = l := by
  induction l using List.reverseRecOn with
  | nil => rfl
  | append_singleton l b ih =>
    have hdiv : (natBE l * 256 + b.toNat) / 256 = natBE l := by have := b.isLt; omega
    rw [natBE_append_singleton, List.length_append, List.length_singleton, bytesBE_succ, hdiv, ih]
    congr 2
    have := b.isLt
    exact BitVec.eq_of_toNat_eq (by simp; omega)

/-- Length, kind, body and check of an inbound message. -/
def inboundBytes (kind : Byte) (body : List Byte) : List Byte :=
  let l := bytesBE 2 (body.length + 1) ++ kind :: body
  l ++ bytesBE 2 (crc16 l).toNat

/-- The command of a message by its kind and its body (R192, 12.4). -/
def bodyCommand (kind : Nat) (body : List Byte) : Option Instr :=
  match kind, body.length with
  | 1, 44 => some (.tollSubmit (byteAt body 0) (BitVec.ofNat 16 (field body 1 2)) (byteAt body 3) (body.drop 4))
  | 2, 4 => some (.reading (byteAt body 0) (BitVec.ofNat 16 (field body 1 2)) (byteAt body 3 != 0))
  | 3, 1 => some (.statusAsk (byteAt body 0))
  | 4, 6 => some (.time (BitVec.ofNat 48 (field body 0 6)))
  | 5, l =>
    if 3 ≤ l ∧ sendSignOk (byteAt body 0) (byteAt body 1) (byteAt body 2) (body.drop 3) = true then
      some (.sendSign (byteAt body 0) (byteAt body 1) (byteAt body 2) (body.drop 3))
    else none
  | 6, 2 => if phoneOf (field body 1 1) = none then none else some (.ringOut (byteAt body 0) (byteAt body 1))
  | 7, 2 => some (.hangup (refAt body))
  | 8, 42 => some (.consoleVoice (refAt body) (body.drop 2))
  | _, _ => none

theorem inboundBytes_length (kind : Byte) (body : List Byte) : (inboundBytes kind body).length = body.length + 5 := by
  simp [inboundBytes]
  omega

section Parts
variable (kind : Byte) (body : List Byte)

theorem inboundBytes_field (h : body.length ≤ 299) : field (inboundBytes kind body) 0 2 = body.length + 1 := by
  have htake : (inboundBytes kind body).take 2 = bytesBE 2 (body.length + 1) := by
    rw [inboundBytes, List.append_assoc, List.take_left' (bytesBE_length 2 _)]
  rw [field, List.drop_zero, htake, natBE_bytesBE (by omega)]

theorem inboundBytes_tail : (inboundBytes kind body).drop 2 =
    kind :: (body ++ bytesBE 2 (crc16 (bytesBE 2 (body.length + 1) ++ kind :: body)).toNat) := by
  rw [inboundBytes, List.append_assoc, List.drop_left' (bytesBE_length 2 _), List.cons_append]

theorem inboundBytes_kind : field (inboundBytes kind body) 2 1 = kind.toNat := by
  rw [field, inboundBytes_tail]
  simp [natBE]

theorem inboundBytes_body : ((inboundBytes kind body).drop 3).take (body.length + 1 - 1) = body := by
  have hdrop : (inboundBytes kind body).drop 3 = ((inboundBytes kind body).drop 2).drop 1 := by rw [List.drop_drop]
  rw [hdrop, inboundBytes_tail, List.drop_one, List.tail_cons, Nat.add_sub_cancel, List.take_left' rfl]

theorem inboundBytes_covered : (inboundBytes kind body).take ((inboundBytes kind body).length - 2) =
      bytesBE 2 (body.length + 1) ++ kind :: body ∧
    (inboundBytes kind body).drop ((inboundBytes kind body).length - 2) =
      bytesBE 2 (crc16 (bytesBE 2 (body.length + 1) ++ kind :: body)).toNat := by
  have hlen : (inboundBytes kind body).length - 2 = (bytesBE 2 (body.length + 1) ++ kind :: body).length := by
    rw [inboundBytes_length]
    simp
    omega
  rw [hlen]
  exact ⟨List.take_left' rfl, List.drop_left' rfl⟩

end Parts

/-- What follows the first checks of R191: the body's command. -/
theorem parseInbound_checked {b : List Byte}
    (h1 : ¬ (b.length < 5 ∨ field b 0 2 = 0 ∨ 300 < field b 0 2 ∨ b.length ≠ field b 0 2 + 4))
    (h2 : ¬ bytesBE 2 (crc16 (b.take (b.length - 2))).toNat ≠ b.drop (b.length - 2)) :
    parseInbound b = bodyCommand (field b 2 1) ((b.drop 3).take (field b 0 2 - 1)) :=
  (if_neg h1).trans (if_neg h2)

/-- A message laid out in full spells the command of its kind and body. -/
theorem parseInbound_message {kind : Byte} {body : List Byte} (h : body.length ≤ 299) :
    parseInbound (inboundBytes kind body) = bodyCommand kind.toNat body := by
  have hfield := inboundBytes_field kind body h
  have hlen := inboundBytes_length kind body
  obtain ⟨htake, hdrop⟩ := inboundBytes_covered kind body
  rw [parseInbound_checked (by rw [hfield, hlen]; omega) (by rw [htake, hdrop]; simp), hfield, inboundBytes_kind,
    inboundBytes_body]

/-- Bytes that spell a command are a message laid out in full. -/
theorem parseInbound_spelled {b : List Byte} (h : parseInbound b ≠ none) :
    ∃ kind body, b = inboundBytes kind body ∧ body.length ≤ 299 := by
  by_cases h1 : b.length < 5 ∨ field b 0 2 = 0 ∨ 300 < field b 0 2 ∨ b.length ≠ field b 0 2 + 4
  · exact absurd (if_pos h1) h
  by_cases h2 : bytesBE 2 (crc16 (b.take (b.length - 2))).toNat ≠ b.drop (b.length - 2)
  · exact absurd ((if_neg h1).trans (if_pos h2)) h
  simp only [not_or, not_lt, not_not] at h1 h2
  obtain ⟨hlen5, hn0, hn, hlen⟩ := h1
  have hcovered : (b.take (b.length - 2)).length = field b 0 2 + 2 := by rw [List.length_take]; omega
  rcases hb : b.take (b.length - 2) with _ | ⟨b0, _ | ⟨b1, _ | ⟨kind, body⟩⟩⟩
  · simp [hb] at hcovered
  · simp [hb] at hcovered
  · simp [hb] at hcovered
    omega
  · rw [hb] at hcovered h2
    have hbody : body.length + 1 = field b 0 2 := by simp at hcovered; omega
    have hall : b = (b0 :: b1 :: kind :: body) ++ b.drop (b.length - 2) := by rw [← hb, List.take_append_drop]
    have htwo : [b0, b1] = bytesBE 2 (body.length + 1) := by
      have hfield : field b 0 2 = natBE [b0, b1] := by
        rw [hall]
        simp [field]
      rw [hbody, hfield]
      exact (bytesBE_natBE [b0, b1]).symm
    refine ⟨kind, body, ?_, by omega⟩
    have hlaid : inboundBytes kind body = b.take (b.length - 2) ++ bytesBE 2 (crc16 (b.take (b.length - 2))).toNat := by
      simp only [inboundBytes, ← htwo, hb, List.cons_append, List.nil_append]
    rw [hlaid, hb, h2]
    exact hall

/-! ### The kinds and their bodies (R192, 12.4) -/

/-- The body of a SEND-SIGN is good (R193). -/
def SignFrameGood (kind target zone : Byte) (payload : List Byte) : Prop :=
  (kind = 7 ∨ kind = 10) ∧ target.toNat ≤ 240 ∧ zone ≠ 0 ∧ payload.length ≤ 256

theorem sendSignOk_iff (kind target zone : Byte) (payload : List Byte) :
    sendSignOk kind target zone payload = true ↔ SignFrameGood kind target zone payload := by
  simp [sendSignOk, SignFrameGood, and_assoc]

/-- A kind of R192 with a body as 12.4 allows. -/
def Spells (kind : Byte) (body : List Byte) : Prop :=
  (kind = 1 ∧ body.length = 44) ∨ (kind = 2 ∧ body.length = 4) ∨ (kind = 3 ∧ body.length = 1) ∨
  (kind = 4 ∧ body.length = 6) ∨ (kind = 5 ∧ ∃ k a z payload, body = k :: a :: z :: payload ∧ SignFrameGood k a z payload) ∨
  (kind = 6 ∧ ∃ node phone, body = [node, phone] ∧ (phone = 1 ∨ phone = 2)) ∨ (kind = 7 ∧ body.length = 2) ∨
  (kind = 8 ∧ body.length = 42)

theorem bodyCommand_sendSign {kind target zone : Byte} {payload : List Byte} (h : SignFrameGood kind target zone payload) :
    bodyCommand 5 (kind :: target :: zone :: payload) = some (.sendSign kind target zone payload) :=
  if_pos ⟨by simp, (sendSignOk_iff _ _ _ _).2 h⟩

theorem phoneOf_ne_none (phone : Byte) : phoneOf phone.toNat ≠ none ↔ phone = 1 ∨ phone = 2 := by
  have h (k : Byte) : phone.toNat = k.toNat ↔ phone = k := ⟨BitVec.eq_of_toNat_eq, congrArg _⟩
  rw [phoneOf_eq, ← h 1, ← h 2]
  show ¬ (if phone.toNat = 1 then _ else if phone.toNat = 2 then _ else _) = _ ↔ phone.toNat = 1 ∨ phone.toNat = 2
  split
  · simp [*]
  · split <;> simp [*]

theorem bodyCommand_ringOut {node phone : Byte} (h : phone = 1 ∨ phone = 2) :
    bodyCommand 6 [node, phone] = some (.ringOut node phone) := by
  refine if_neg ?_
  have hfield : field [node, phone] 1 1 = phone.toNat := by simp [field, natBE]
  rw [hfield]
  exact (phoneOf_ne_none phone).2 h

theorem exists_three_of_length {l : List Byte} (h : 3 ≤ l.length) : ∃ a b c rest, l = a :: b :: c :: rest := by
  obtain ⟨a, l, rfl⟩ := List.exists_cons_of_length_pos (l := l) (by omega)
  obtain ⟨b, l, rfl⟩ := List.exists_cons_of_length_pos (l := l) (by simp at h; omega)
  obtain ⟨c, l, rfl⟩ := List.exists_cons_of_length_pos (l := l) (by simp at h; omega)
  exact ⟨a, b, c, l, rfl⟩

/-- A body spells a command exactly when its kind allows it. -/
theorem bodyCommand_ne_none_iff (kind : Byte) (body : List Byte) : bodyCommand kind.toNat body ≠ none ↔ Spells kind body := by
  have hkind (k : Byte) : kind.toNat = k.toNat ↔ kind = k := ⟨BitVec.eq_of_toNat_eq, congrArg _⟩
  constructor
  · intro h
    unfold bodyCommand at h
    split at h
    next hk hl => exact .inl ⟨(hkind 1).1 hk, hl⟩
    next hk hl => exact .inr (.inl ⟨(hkind 2).1 hk, hl⟩)
    next hk hl => exact .inr (.inr (.inl ⟨(hkind 3).1 hk, hl⟩))
    next hk hl => exact .inr (.inr (.inr (.inl ⟨(hkind 4).1 hk, hl⟩)))
    next hk =>
      have hgood : 3 ≤ body.length ∧ sendSignOk (byteAt body 0) (byteAt body 1) (byteAt body 2) (body.drop 3) = true :=
        of_not_not fun hbad => h (if_neg hbad)
      obtain ⟨hlen, hok⟩ := hgood
      obtain ⟨k, a, z, payload, rfl⟩ := exists_three_of_length hlen
      exact .inr (.inr (.inr (.inr (.inl ⟨(hkind 5).1 hk, k, a, z, payload, rfl, (sendSignOk_iff k a z payload).1 hok⟩))))
    next hk hl =>
      obtain ⟨node, phone, rfl⟩ := List.length_eq_two.1 hl
      have hphone : phoneOf (field [node, phone] 1 1) ≠ none := fun hbad => h (if_pos hbad)
      have hfield : field [node, phone] 1 1 = phone.toNat := by simp [field, natBE]
      rw [hfield] at hphone
      exact .inr (.inr (.inr (.inr (.inr (.inl ⟨(hkind 6).1 hk, node, phone, rfl, (phoneOf_ne_none phone).1 hphone⟩)))))
    next hk hl => exact .inr (.inr (.inr (.inr (.inr (.inr (.inl ⟨(hkind 7).1 hk, hl⟩))))))
    next hk hl => exact .inr (.inr (.inr (.inr (.inr (.inr (.inr ⟨(hkind 8).1 hk, hl⟩))))))
    next => exact absurd rfl h
  · rintro (⟨rfl, h⟩ | ⟨rfl, h⟩ | ⟨rfl, h⟩ | ⟨rfl, h⟩ | ⟨rfl, k, a, z, payload, rfl, h⟩ | ⟨rfl, node, phone, rfl, h⟩ | ⟨rfl, h⟩ |
      ⟨rfl, h⟩)
    · simp [bodyCommand, h]
    · simp [bodyCommand, h]
    · simp [bodyCommand, h]
    · simp [bodyCommand, h]
    · simp [bodyCommand_sendSign h]
    · simp [bodyCommand_ringOut h]
    · simp [bodyCommand, h]
    · simp [bodyCommand, h]

theorem Spells.length {kind : Byte} {body : List Byte} (h : Spells kind body) : body.length ≤ 299 := by
  rcases h with ⟨-, h⟩ | ⟨-, h⟩ | ⟨-, h⟩ | ⟨-, h⟩ | ⟨-, k, a, z, payload, rfl, -, -, -, h⟩ | ⟨-, node, phone, rfl, -⟩ | ⟨-, h⟩ |
    ⟨-, h⟩
  · omega
  · omega
  · omega
  · omega
  · simp
    omega
  · simp
  · omega
  · omega

/-- The bytes that spell a command are the messages of R192 with a body as 12.4 allows (R191). -/
theorem parseInbound_ne_none_iff (bytes : List Byte) :
    parseInbound bytes ≠ none ↔ ∃ kind body, bytes = inboundBytes kind body ∧ Spells kind body := by
  constructor
  · intro h
    obtain ⟨kind, body, rfl, hlen⟩ := parseInbound_spelled h
    rw [parseInbound_message hlen, bodyCommand_ne_none_iff] at h
    exact ⟨kind, body, rfl, h⟩
  · rintro ⟨kind, body, rfl, h⟩
    rw [parseInbound_message h.length, bodyCommand_ne_none_iff]
    exact h

/-! ### Each command's message (12.4) -/

theorem parseInbound_tollSubmit (tag lane : Byte) (gantry : BitVec 16) {body : List Byte} (h : body.length = 40) :
    parseInbound (inboundBytes 1 (tag :: bytesBE 2 gantry.toNat ++ lane :: body)) = some (.tollSubmit tag gantry lane body) := by
  have hlen : (tag :: bytesBE 2 gantry.toNat ++ lane :: body).length = 44 := by simp [h]
  have hfield : field (tag :: bytesBE 2 gantry.toNat ++ lane :: body) 1 2 = gantry.toNat := by
    rw [field, List.cons_append, List.drop_one, List.tail_cons, List.take_left' (bytesBE_length 2 _),
      natBE_bytesBE (by have := gantry.isLt; omega)]
  rw [parseInbound_message (by omega)]
  show bodyCommand 1 _ = _
  simp only [bodyCommand, hlen, hfield, BitVec.ofNat_toNat, BitVec.setWidth_eq]
  have htwo : ∃ a b, bytesBE 2 gantry.toNat = [a, b] := List.length_eq_two.1 (bytesBE_length 2 _)
  obtain ⟨a, b, htwo⟩ := htwo
  rw [htwo]
  rfl

theorem parseInbound_reading (channel valid : Byte) (value : BitVec 16) :
    parseInbound (inboundBytes 2 (channel :: bytesBE 2 value.toNat ++ [valid])) =
      some (.reading channel value (valid != 0)) := by
  have hlen : (channel :: bytesBE 2 value.toNat ++ [valid]).length = 4 := by simp
  have hfield : field (channel :: bytesBE 2 value.toNat ++ [valid]) 1 2 = value.toNat := by
    rw [field, List.cons_append, List.drop_one, List.tail_cons, List.take_left' (bytesBE_length 2 _),
      natBE_bytesBE (by have := value.isLt; omega)]
  rw [parseInbound_message (by omega)]
  show bodyCommand 2 _ = _
  simp only [bodyCommand, hlen, hfield, BitVec.ofNat_toNat, BitVec.setWidth_eq]
  obtain ⟨a, b, htwo⟩ := List.length_eq_two.1 (bytesBE_length 2 value.toNat)
  rw [htwo]
  rfl

theorem parseInbound_time (v : LTime) : parseInbound (inboundBytes 4 (bytesBE 6 v.toNat)) = some (.time v) := by
  have hfield : field (bytesBE 6 v.toNat) 0 6 = v.toNat := by
    rw [field, List.drop_zero, List.take_of_length_le (bytesBE_length 6 _).le,
      natBE_bytesBE (by have := v.isLt; omega)]
  rw [parseInbound_message (by rw [bytesBE_length]; omega)]
  show bodyCommand 4 _ = _
  simp only [bodyCommand, bytesBE_length, hfield, BitVec.ofNat_toNat, BitVec.setWidth_eq]

theorem parseInbound_sendSign {kind target zone : Byte} {payload : List Byte} (h : SignFrameGood kind target zone payload) :
    parseInbound (inboundBytes 5 (kind :: target :: zone :: payload)) = some (.sendSign kind target zone payload) := by
  obtain ⟨-, -, -, hlen⟩ := id h
  rw [parseInbound_message (by simp; omega)]
  exact bodyCommand_sendSign h

theorem parseInbound_ringOut {node phone : Byte} (h : phone = 1 ∨ phone = 2) :
    parseInbound (inboundBytes 6 [node, phone]) = some (.ringOut node phone) := by
  rw [parseInbound_message (by simp)]
  exact bodyCommand_ringOut h

theorem parseInbound_consoleVoice (a b : Byte) {samples : List Byte} (h : samples.length = 40) :
    parseInbound (inboundBytes 8 (a :: b :: samples)) = some (.consoleVoice ⟨a, b⟩ samples) := by
  rw [parseInbound_message (by simp; omega)]
  show bodyCommand 8 _ = _
  simp only [bodyCommand, List.length_cons, h]
  rfl

/-! ### READY and the STATUS (R110, R194) -/

theorem decide_eq_none {α : Type} [DecidableEq α] (o : Option α) : decide (o = none) = o.isNone := by
  cases o <;> simp

theorem Spool.filling_isSome (p : Spool) : p.filling.isSome = p.sectors.any fun x => decide (x.2.state = .filling) := by
  rw [Spool.filling, Option.isSome_map, Bool.eq_iff_iff, List.find?_isSome, List.any_eq_true]
  simp

theorem State.ready_eq (s : State) : s.ready = (decide (s.node = .running) && s.cfg.services.toll && !s.spool.markFault &&
    !(s.cfg.watch[8] && s.inputs.powerWarn.filtered != s.cfg.resting[8]) && decide (s.spool.held = none) &&
    decide (s.spool.genJob = none) && decide (s.spool.answer = none) &&
    s.spool.sectors.any fun x => decide (x.2.state = .filling)) := by
  have hrun : s.isRunning = decide (s.node = .running) := rfl
  rw [State.ready, hrun, Spool.filling_isSome, decide_eq_none, decide_eq_none, decide_eq_none]
  rfl

/-- A receipt entry as STATUS carries it (12.4). -/
theorem receiptBytes_some (e : ReceiptEntry) : receiptBytes (some e) =
    1 :: (bytesBE 2 e.last.gen ++ bytesBE 4 e.last.seq ++ bytesBE 2 e.expected.gen ++ bytesBE 4 e.expected.seq) := by
  simp [receiptBytes, bytesPos]

/-- A STATUS with the node's present values (R194, 12.4). -/
def State.statusOf (s : State) (flag : Byte) (entry : List Byte) : CabMsg :=
  ⟨0x83, [if s.node = .running then 2 else 1, BitVec.ofNat 8 s.cfg.number, BitVec.ofNat 8 (roleCode s.cfg.role),
      servicesByte s.cfg.services] ++
    (if s.node = .running then
      bytesBE 6 s.time.lt.toNat ++ [BitVec.ofNat 8 s.time.grade, if s.time.settled then 1 else 0,
        if s.ready then 1 else 0] ++ bytesBE 2 s.spool.backlog ++ bytesBE 2 s.spool.generation ++
        bytesBE 4 s.spool.nextSeq
    else List.replicate 17 0) ++ [BitVec.ofNat 8 s.equip.outbound.length] ++
    ([s.equip.badMessage, s.equip.notReady, s.equip.misdirected, s.equip.outboundDrop, s.equip.sendSignLost].flatMap
      fun c => bytesBE 2 c.toNat) ++ flag :: entry⟩

theorem State.statusMsg_eq (s : State) (flag : Bool) (entry : Option ReceiptEntry) :
    s.statusMsg flag entry = s.statusOf (if flag then 1 else 0) (receiptBytes entry) := by
  by_cases h : s.node = .running
  · simp [State.statusMsg, State.statusOf, State.statusFields, State.isRunning, h, bytesLT, flagByte, Equip.fiveCounters,
      bytesCounter]
  · simp [State.statusMsg, State.statusOf, State.statusFields, State.isRunning, h, flagByte, Equip.fiveCounters,
      bytesCounter]

/-- A message placed, or dropped and counted, by the room of the queue (R196). -/
def State.placedOrDropped (s : State) (m : CabMsg) : State :=
  if s.equip.outbound.length < 32 then { s with equip := { s.equip with outbound := s.equip.outbound ++ [m] } }
  else { s with equip := { s.equip with outboundDrop := bump s.equip.outboundDrop } }

theorem State.placeOrDrop_eq (s : State) (m : CabMsg) : s.placeOrDrop m = s.placedOrDropped m := by
  by_cases hq : s.equip.outbound.length < 32
  · exact (State.placeOrDrop_room m hq).trans (if_pos hq).symm
  · exact (State.placeOrDrop_full m (Nat.not_lt.1 hq)).trans (if_neg hq).symm

section Answer
variable {s : State} {origin : Byte}

/-- A node that keeps no receipt of the origin answers without one. -/
theorem State.answerStatus_plain (h : ¬ (s.node = .running ∧ s.cfg.role = .terminus) ∨ origin = 0) :
    s.answerStatus origin = s.placedOrDropped (s.statusOf 0 (List.replicate 13 0)) := by
  rw [← State.placeOrDrop_eq]
  have hmsg : s.statusMsg false none = s.statusOf 0 (List.replicate 13 0) := s.statusMsg_eq false none
  rw [← hmsg, State.answerStatus]
  rcases h with h | h
  · exact if_neg fun hc => h (by simp_all [State.isRunning, State.isTerminus_iff])
  · simp [h]

theorem State.answerStatus_terminus (hrun : s.node = .running) (ht : s.cfg.role = .terminus) (h0 : origin ≠ 0) :
    s.answerStatus origin =
      if origin.toNat ≤ 240 then
        s.placedOrDropped (s.statusOf 1 (receiptBytes (keyGet s.receipt.table origin.toNat)))
      else State.placedOrDropped { s with freeCount := s.freeCount + 1 }
        (s.statusOf (if Config.freeBit s.freeCount then 1 else 0) (List.replicate 13 0)) := by
  have hmsg1 := s.statusMsg_eq true (keyGet s.receipt.table origin.toNat)
  have hmsg2 : s.statusMsg s.takeBit.1 none = s.statusOf (if Config.freeBit s.freeCount then 1 else 0) (List.replicate 13 0) :=
    s.statusMsg_eq _ none
  rw [State.answerStatus, if_pos (by simp [State.isRunning, State.isTerminus_iff, hrun, ht]), if_neg h0,
    State.placeOrDrop_eq, State.placeOrDrop_eq, hmsg1, hmsg2]
  rfl

end Answer

/-! ### The start of a transfer (R190, R195) -/

section Transfer
variable {s : State}

theorem exec_outboundTransferStart_unreceived (h : ¬ s.numberKnown = true) : exec .outboundTransferStart s = .next s := by
  show execOutboundTransferStart s = _
  refine congrArg Host.Outcome.next ?_
  split
  · exact if_neg h
  · rfl

theorem exec_outboundTransferStart_idle {m : CabMsg} {rest : List CabMsg} (h : s.numberKnown = true)
    (ht : s.equip.transfer = none) (hq : s.equip.outbound = m :: rest) : exec .outboundTransferStart s =
      .next { s with equip := { s.equip with transfer := some m, outbound := rest } } := by
  show execOutboundTransferStart s = _
  refine congrArg Host.Outcome.next ?_
  split
  next heq =>
    obtain ⟨rfl, rfl⟩ := List.cons.inj (hq.symm.trans heq)
    exact if_pos h
  next hnot => exact absurd hq (hnot m rest ht)

theorem exec_outboundTransferStart_not (h : s.equip.transfer ≠ none ∨ s.equip.outbound = []) :
    exec .outboundTransferStart s = .next s := by
  show execOutboundTransferStart s = _
  refine congrArg Host.Outcome.next ?_
  split
  next ht hq => exact absurd h (by simp [ht, hq])
  next => rfl

end Transfer

/-- Settles O51: the answers to STATUS-ASK, the transfers, the bytes that spell a command, and READY. -/
theorem thePortAnswersAndTransfers : Obligations.ThePortAnswersAndTransfers := by
  unfold Obligations.ThePortAnswersAndTransfers
  intro s origin bytes receives placed up status message signFrame spells good noEntry counted
  have hready : s.ready = up := s.ready_eq
  have hparse : parseInbound bytes ≠ none ↔ good := parseInbound_ne_none_iff bytes
  have hstatus (flag : Byte) (entry : List Byte) : s.statusOf flag entry = status s.equip flag entry := by
    unfold State.statusOf
    rw [hready]
  have hask (hrun : s.node = .running) : exec (.statusAsk origin) s = .next (s.answerStatus origin) :=
    congrArg Host.Outcome.next (State.dispatch_running hrun rfl)
  refine ⟨fun h => ⟨?_, ?_, ?_⟩, fun h => ?_, fun hrun h => ?_, fun hrun ht ho => ?_, fun hrun ht h0 ho => ⟨fun he => ?_, fun e he => ?_⟩,
    fun m rest hrec ht hq => ?_, fun h => ?_, rfl, fun hrec hbad => ?_, fun hgood => ?_, hready, hparse,
    fun tag lane gantry body h => parseInbound_tollSubmit tag lane gantry h,
    fun channel valid value => parseInbound_reading channel valid value,
    fun a => parseInbound_message (kind := 3) (body := [a]) (by simp), parseInbound_time,
    fun kind target zone payload h => parseInbound_sendSign h, fun node phone h => parseInbound_ringOut h,
    fun a b => parseInbound_message (kind := 7) (body := [a, b]) (by simp),
    fun a b samples h => parseInbound_consoleVoice a b h⟩
  · exact congrArg Host.Outcome.next (State.dispatch_unreceived (fun hs => h (.inl hs)) fun hr => h (.inr hr))
  · exact congrArg Host.Outcome.next (if_neg (by simp [State.portReceives, mt s.numberKnown_iff.1 h]))
  · exact exec_outboundTransferStart_unreceived (mt s.numberKnown_iff.1 h)
  · have hscan : exec (.statusAsk origin) s = .next (s.countNotReady.answerStatus origin) :=
      congrArg Host.Outcome.next (State.dispatch_scanning h)
    have hrun : ¬ s.node = .running := fun hc => by simp [h] at hc
    have hanswer := State.answerStatus_plain (s := s.countNotReady) (origin := origin) (.inl fun hc => hrun hc.1)
    have hmsg : s.countNotReady.statusOf 0 noEntry = status counted 0 noEntry := by
      simp only [State.statusOf, State.countNotReady, hrun, if_false, status, counted]
    exact hscan.trans (congrArg Host.Outcome.next (hanswer.trans (congrArg _ hmsg)))
  · exact (hask hrun).trans (congrArg Host.Outcome.next
      ((State.answerStatus_plain (h.imp (fun hr hc => by simp [hr] at hc) id)).trans (congrArg _ (hstatus ..))))
  · have hanswer := State.answerStatus_terminus hrun ht (origin := origin) (by rintro rfl; simp at ho)
    exact (hask hrun).trans (congrArg Host.Outcome.next ((hanswer.trans (if_neg (by omega))).trans (congrArg _ (hstatus ..))))
  · have hanswer := (State.answerStatus_terminus hrun ht h0).trans (if_pos ho)
    rw [he] at hanswer
    exact (hask hrun).trans (congrArg Host.Outcome.next (hanswer.trans (congrArg _ (hstatus ..))))
  · have hanswer := (State.answerStatus_terminus hrun ht h0).trans (if_pos ho)
    rw [he, receiptBytes_some] at hanswer
    exact (hask hrun).trans (congrArg Host.Outcome.next (hanswer.trans (congrArg _ (hstatus ..))))
  · exact exec_outboundTransferStart_idle (s.numberKnown_iff.2 hrec) ht hq
  · exact exec_outboundTransferStart_not h
  · exact congrArg Host.Outcome.next (if_pos (by
      simp [State.portReceives, s.numberKnown_iff.2 hrec, of_not_not (mt hparse.1 hbad)]))
  · have hsome := hparse.2 hgood
    exact congrArg Host.Outcome.next (if_neg (by simp [hsome]))

end Sys2Proof.Machine
end

section
/-! SUPPORT. A start and RESET held: what returns to its start value and what the array keeps (R201). -/

namespace Sys2Proof.Machine

/-! ### The levels of the lines (R59) -/

theorem Inputs.restart_line (i : Inputs) (l : LevelLine) :
    i.restart.line l = { pin := (i.line l).pin, filtered := false, wait := none } := by
  cases l with
  | contact c => simp [Inputs.restart, Inputs.line, LevelState.restart, LevelState.initial]
  | hookA | hookB | powerWarn => rfl

/-! ### What the array keeps of an operation that was cut, with no erase in progress (R201) -/

section Cut
variable {s : State}

theorem State.cutArray_kept (h : s.spool.op = .idle ∨ (∃ k b, s.spool.op = .recordProgram k b) ∨ ∃ p k, s.spool.op = .read p k)
    (he : s.spool.erase = none) : s.cutArray = s := by
  rcases h with h | ⟨k, b, h⟩ | ⟨p, k, h⟩ <;> simp [State.cutArray, h, he]

theorem State.cutArray_delivered {k : Nat} (h : s.spool.op = .markProgram (.delivered k)) (he : s.spool.erase = none) :
    s.cutArray.array = s.array := by
  simp [State.cutArray, State.takeBit, TollArray.abandonMark, h, he]

theorem State.cutArray_markSectorErase (h : s.spool.op = .markSectorErase) (he : s.spool.erase = none) :
    s.cutArray.array = { s.array with marks := [] } := by
  simp [State.cutArray, h, he]

end Cut

/-! ### The items of a start (R201) -/

theorem State.restart_node_loadTimer (s : State) (n m : NodeState) (timer timer' : Timer) :
    SameBut [.node, .loadTimer] (s.restart n timer) (s.restart m timer') := by
  intro part hp
  cases part with
  | node | loadTimer => simp at hp
  | _ => rfl

theorem State.restart_loading (s : State) :
    SameBut [.inputs, .array, .freeCount, .pending] State.reset (s.restart .loading (some ⟨0, 50000⟩)) := by
  intro part hp
  cases part with
  | inputs | array | freeCount | pending => simp at hp
  | _ => rfl

/-- Settles O54, from the start's own definition. -/
theorem startsReturnEveryItem : Obligations.StartsReturnEveryItem := by
  unfold Obligations.StartsReturnEveryItem
  intro s
  refine ⟨s.restart .loading (some ⟨0, 50000⟩), s.restart .held none, rfl, rfl, rfl, rfl, rfl, rfl,
    s.restart_node_loadTimer _ _ _ _, s.restart_loading, s.inputs.restart_line, rfl, rfl, fun h he => ?_,
    fun k h he => State.cutArray_delivered h he, fun h he => State.cutArray_markSectorErase h he⟩
  have harray : s.cutArray.array = s.array := congrArg State.array (State.cutArray_kept h he)
  have hfree : s.cutArray.freeCount = s.freeCount := congrArg State.freeCount (State.cutArray_kept h he)
  exact ⟨harray, hfree⟩

end Sys2Proof.Machine
end

section
/-! SUPPORT. The start scan: what the array's content becomes in working memory (R120, R121, R122). -/

namespace Sys2Proof.Machine

/-! ### Slots (R120) -/

/-- A sector that the scan passes over. -/
def TollArray.Passed (a : TollArray) (n : Nat) : Prop := (a.header n).bad = true ∨ a.header n = ⟨false, false, false⟩

theorem TollArray.passedOver_iff (a : TollArray) (n : Nat) : a.passedOver n = true ↔ a.Passed n := by
  simp [TollArray.passedOver, TollArray.headerErased, TollArray.Passed]

theorem keyGet_map {α β : Type} (l : List (Nat × α)) (f : Nat → α → β) (k : Nat) :
    keyGet (l.map fun e => (e.1, f e.1 e.2)) k = (keyGet l k).map (f k) := by
  induction l with
  | nil => rfl
  | cons c l ih =>
    by_cases hc : k = c.1
    · simp [keyGet, hc]
    · simp [keyGet, hc, ih]

/-- What a scanned slot is taken as. -/
theorem keyGet_scanSlots (a : TollArray) (k : Nat) : keyGet (scanSlots a) k =
    (keyGet a.slots k).map fun c => if a.passedOver (sectorOf k) then .void else c.state :=
  keyGet_map a.slots (fun k c => if a.passedOver (sectorOf k) then SlotState.void else c.state) k

theorem SlotCells.state_of_incomplete {c : SlotCells} (h : c.complete = false) : c.state = .void := by
  unfold SlotCells.state
  split
  next hc _ => simp [h] at hc
  next => rfl

theorem SlotCells.state_of_complete {c : SlotCells} {r : TollRecord} (h : c.complete = true) (hr : c.record = some r) :
    c.state = if c.delivered then .delivered r.pos false else .filled r.pos := by
  unfold SlotCells.state
  simp only [h, hr]

/-- No scanned slot has a mark pending. -/
theorem SlotCells.state_not_pending (c : SlotCells) (q : Position) : c.state ≠ .delivered q true := by
  unfold SlotCells.state
  split
  · split <;> simp
  · simp

theorem keyGet_scanSlots_not_pending (a : TollArray) (k : Nat) (q : Position) :
    keyGet (scanSlots a) k ≠ some (.delivered q true) := by
  rw [keyGet_scanSlots, ne_eq, Option.map_eq_some_iff]
  rintro ⟨c, -, hc⟩
  split at hc
  · cases hc
  · exact c.state_not_pending q hc

/-! ### The slots of a sector -/

/-- The scanned states of a sector's slots that are not EMPTY. -/
def sectorStates (a : TollArray) (n : Nat) : List SlotState :=
  ((scanSlots a).filter fun e => sectorOf e.1 == n).map Prod.snd

section Sector
variable {a : TollArray} (h : a.Rising) (n : Nat)
include h

theorem mem_sectorStates (x : SlotState) : x ∈ sectorStates a n ↔ ∃ k, k / 32 = n ∧ keyGet (scanSlots a) k = some x := by
  simp only [sectorStates, List.mem_map, List.mem_filter, beq_iff_eq, sectorOf, Prod.exists, exists_eq_right,
    mem_iff_keyGet (scanSlots_rising h)]
  exact exists_congr fun k => and_comm

theorem sectorStates_eq_nil_iff : sectorStates a n = [] ↔ ∀ k, k / 32 = n → keyGet a.slots k = none := by
  rw [List.eq_nil_iff_forall_not_mem]
  simp only [mem_sectorStates h, keyGet_scanSlots, not_exists, not_and, Option.map_eq_some_iff]
  refine ⟨fun hx k hk => ?_, fun hx x k hk c hc => ?_⟩
  · rcases hc : keyGet a.slots k with _ | c
    · rfl
    · exact absurd rfl (hx _ k hk c hc)
  · simp [hx k hk] at hc

/-- A sector's slots are all programmed exactly when 32 of them are. -/
theorem sectorStates_length_iff : (sectorStates a n).length = 32 ↔ ∀ i, i < 32 → keyGet a.slots (32 * n + i) ≠ none := by
  let keys := (a.slots.filter fun e => sectorOf e.1 == n).map Prod.fst
  have hlen : (sectorStates a n).length = keys.length := by
    simp [sectorStates, keys, scanSlots, List.filter_map, Function.comp_def]
  have hnodup : keys.Nodup := by
    have hp := (keysRising_iff a.slots).1 h.2.1
    exact List.pairwise_map.2 ((hp.filter _).imp fun hlt => Nat.ne_of_lt hlt)
  have hmem (k : Nat) : k ∈ keys ↔ k / 32 = n ∧ keyGet a.slots k ≠ none := by
    simp only [keys, List.mem_map, List.mem_filter, beq_iff_eq, sectorOf, Prod.exists, exists_and_right, exists_eq_right,
      mem_iff_keyGet h.2.1, Option.ne_none_iff_exists']
    tauto
  have hcard : keys.toFinset.card = keys.length := List.toFinset_card_of_nodup hnodup
  have hsub : keys.toFinset ⊆ Finset.Ico (32 * n) (32 * n + 32) := fun k hk => by
    have := ((hmem k).1 (List.mem_toFinset.1 hk)).1
    rw [Finset.mem_Ico]
    omega
  rw [hlen, ← hcard]
  constructor
  · intro hfull i hi
    have heq := Finset.eq_of_subset_of_card_le hsub (by simp [hfull])
    have hin : 32 * n + i ∈ keys.toFinset := by
      rw [heq, Finset.mem_Ico]
      omega
    exact ((hmem _).1 (List.mem_toFinset.1 hin)).2
  · intro hall
    have heq : keys.toFinset = Finset.Ico (32 * n) (32 * n + 32) := hsub.antisymm fun k hk => by
      rw [Finset.mem_Ico] at hk
      have hk' := hall (k - 32 * n) (by omega)
      rw [Nat.add_sub_cancel' hk.1] at hk'
      exact List.mem_toFinset.2 ((hmem k).2 ⟨by omega, hk'⟩)
    rw [heq]
    simp

end Sector

/-! ### Sectors by their content (R121) -/

/-- What the scan makes of a sector, and whether it is a FILLING candidate. -/
def scanWork (a : TollArray) (n : Nat) : SectorWork × Bool := scanSector (a.header n) (sectorStates a n)

section Work
variable {h : Header} {ss : List SlotState}

theorem scanSector_bad (hb : h.bad = true) : scanSector h ss = (⟨.bad, h.weak, false, false⟩, false) := if_pos hb

theorem scanSector_erased (he : h = ⟨false, false, false⟩) :
    scanSector h ss = (⟨if ss = [] then .empty else .reclaim, false, false, false⟩, false) := by
  subst he
  rfl

variable (hp : ¬ (h.bad = true ∨ h = ⟨false, false, false⟩))
include hp

theorem scanSector_weak (hw : h.weak = true) (hl : ss.length = 32) (hd : ∀ x ∈ ss, x.filledPos = none) :
    scanSector h ss = (⟨.bad, true, false, true⟩, false) := by
  obtain ⟨hb, he⟩ := not_or.1 hp
  exact (if_neg hb).trans ((if_neg he).trans (if_pos ⟨hw, hl, by simpa using hd⟩))

theorem scanSector_sound (hw : h.weak = false) (hl : ss.length = 32) (hd : ∀ x ∈ ss, x.filledPos = none) :
    scanSector h ss = (⟨.reclaim, h.weak, false, false⟩, false) := by
  obtain ⟨hb, he⟩ := not_or.1 hp
  exact (if_neg hb).trans ((if_neg he).trans ((if_neg (by simp [hw])).trans (if_pos ⟨hl, by simpa using hd⟩)))

theorem scanSector_full (hl : ss.length = 32) (hd : ¬ ∀ x ∈ ss, x.filledPos = none) :
    scanSector h ss = (⟨.full, h.weak, false, false⟩, false) := by
  obtain ⟨hb, he⟩ := not_or.1 hp
  have hdone : ¬ (ss.length = 32 ∧ ss.all (fun x => x.filledPos.isNone) = true) := fun hc => hd (by simpa using hc.2)
  exact (if_neg hb).trans ((if_neg he).trans ((if_neg fun hc => hdone hc.2).trans ((if_neg hdone).trans (if_pos hl))))

theorem scanSector_candidate (hl : ss.length ≠ 32) : scanSector h ss = (⟨.full, h.weak, false, false⟩, true) := by
  obtain ⟨hb, he⟩ := not_or.1 hp
  have hdone : ¬ (ss.length = 32 ∧ ss.all (fun x => x.filledPos.isNone) = true) := fun hc => hl hc.1
  exact (if_neg hb).trans ((if_neg he).trans ((if_neg fun hc => hdone hc.2).trans ((if_neg hdone).trans (if_neg hl))))

end Work

/-- The candidates are the sectors not passed over with an erased slot. -/
theorem scanSector_snd_iff (h : Header) (ss : List SlotState) :
    (scanSector h ss).2 = true ↔ ¬ (h.bad = true ∨ h = ⟨false, false, false⟩) ∧ ss.length ≠ 32 := by
  by_cases hb : h.bad = true
  · simp [scanSector_bad hb, hb]
  by_cases he : h = ⟨false, false, false⟩
  · rw [scanSector_erased he]
    simp [he]
  have hp := not_or.2 ⟨hb, he⟩
  by_cases hl : ss.length = 32
  · by_cases hd : ∀ x ∈ ss, x.filledPos = none
    · by_cases hw : h.weak = true
      · simp [scanSector_weak hp hw hl hd, hl]
      · simp [scanSector_sound hp (Bool.eq_false_iff.2 hw) hl hd, hl]
    · simp [scanSector_full hp hl hd, hl]
  · simp [scanSector_candidate hp hl, hp, hl]

/-- The EMPTY sectors are those with an erased header and erased slots. -/
theorem scanSector_empty_iff (h : Header) (ss : List SlotState) :
    (scanSector h ss).1.state = .empty ↔ h = ⟨false, false, false⟩ ∧ ss = [] := by
  by_cases hb : h.bad = true
  · have : h ≠ ⟨false, false, false⟩ := by rintro rfl; cases hb
    simp [scanSector_bad hb, this]
  by_cases he : h = ⟨false, false, false⟩
  · by_cases hs : ss = []
    · rw [scanSector_erased he]
      simp [he, hs]
    · rw [scanSector_erased he]
      simp [hs]
  have hp := not_or.2 ⟨hb, he⟩
  by_cases hl : ss.length = 32
  · by_cases hd : ∀ x ∈ ss, x.filledPos = none
    · by_cases hw : h.weak = true
      · simp [scanSector_weak hp hw hl hd, he]
      · simp [scanSector_sound hp (Bool.eq_false_iff.2 hw) hl hd, he]
    · simp [scanSector_full hp hl hd, he]
  · simp [scanSector_candidate hp hl, he]

theorem scanSector_not_filling (h : Header) (ss : List SlotState) : (scanSector h ss).1.state ≠ .filling := by
  unfold scanSector
  dsimp only
  split
  · simp
  · split
    · split <;> simp
    · split
      · simp
      · split
        · simp
        · split <;> simp

theorem scanSector_empty {h : Header} {ss : List SlotState} (he : (scanSector h ss).1.state = .empty) :
    (scanSector h ss).1 = ⟨.empty, false, false, false⟩ := by
  obtain ⟨rfl, rfl⟩ := (scanSector_empty_iff h ss).1 he
  rfl

/-! ### Positions (R120, R121) -/

/-- A sector, not passed over, holds a record at a position. -/
def TollArray.Holds (a : TollArray) (n : Nat) (p : Position) : Prop := ¬ a.Passed n ∧
  ∃ k c r, k / 32 = n ∧ keyGet a.slots k = some c ∧ c.complete = true ∧ c.record = some r ∧ r.pos = p

theorem SlotCells.completePos_iff (c : SlotCells) (p : Position) :
    c.completePos = some p ↔ c.complete = true ∧ ∃ r, c.record = some r ∧ r.pos = p := by
  by_cases h : c.complete = true <;> simp [SlotCells.completePos, h]

theorem mem_scanPositions {a : TollArray} (h : a.Rising) (p : Position) (n : Nat) :
    (p, n) ∈ scanPositions a ↔ a.Holds n p := by
  rw [scanPositions, List.mem_filterMap]
  constructor
  · rintro ⟨⟨k, c⟩, hmem, hk⟩
    by_cases hp : a.passedOver (sectorOf k) = true
    · simp [hp] at hk
    · simp only [hp, if_false, Option.map_eq_some_iff, Prod.mk.injEq, Bool.false_eq_true] at hk
      obtain ⟨q, hq, rfl, rfl⟩ := hk
      obtain ⟨hc, r, hr, hpos⟩ := (c.completePos_iff q).1 hq
      exact ⟨mt (a.passedOver_iff _).2 hp, k, c, r, rfl, (mem_iff_keyGet h.2.1 k c).1 hmem, hc, hr, hpos⟩
  · rintro ⟨hp, k, c, r, rfl, hk, hc, hr, hpos⟩
    refine ⟨(k, c), (mem_iff_keyGet h.2.1 k c).2 hk, ?_⟩
    have hnp : ¬ a.passedOver (sectorOf k) = true := mt (a.passedOver_iff _).1 hp
    have hq := (c.completePos_iff p).2 ⟨hc, r, hr, hpos⟩
    exact (if_neg hnp).trans (congrArg (Option.map fun q => (q, k / 32)) hq)

theorem highestPos_eq_none_iff (l : List (Position × Nat)) : highestPos l = none ↔ l = [] := by
  cases l with
  | nil => simp [highestPos]
  | cons a l =>
    unfold highestPos
    split
    · simp
    · split <;> simp

theorem highestPos_some {l : List (Position × Nat)} {e : Position × Nat} (h : highestPos l = some e) :
    e ∈ l ∧ ∀ x ∈ l, posLt e.1 x.1 = false := by
  induction l generalizing e with
  | nil => cases h
  | cons a l ih =>
    unfold highestPos at h
    split at h
    next hl =>
      obtain rfl := Option.some.inj h
      rw [(highestPos_eq_none_iff l).1 hl]
      simp [posLt_eq_false_iff]
    next b hb =>
      obtain ⟨hmem, hmax⟩ := ih hb
      split at h
      next hlt =>
        obtain rfl := Option.some.inj h
        refine ⟨List.mem_cons_of_mem _ hmem, fun x hx => ?_⟩
        obtain rfl | hx := List.mem_cons.1 hx
        · rw [posLt_iff] at hlt
          rw [posLt_eq_false_iff]
          omega
        · exact hmax x hx
      next hlt =>
        obtain rfl := Option.some.inj h
        refine ⟨List.mem_cons_self, fun x hx => ?_⟩
        obtain rfl | hx := List.mem_cons.1 hx
        · simp [posLt_eq_false_iff]
        · have := hmax x hx
          rw [posLt_eq_false_iff] at this ⊢
          rw [posLt_iff] at hlt
          omega

/-- The sector of the highest position, where it stands above those of all others. -/
theorem highestPos_sector {l : List (Position × Nat)} {n : Nat} {p : Position} (hp : (p, n) ∈ l)
    (habove : ∀ q m, (q, m) ∈ l → m ≠ n → posLt q p = true) : (highestPos l).map Prod.snd = some n := by
  rcases h : highestPos l with _ | ⟨q, m⟩
  · simp [(highestPos_eq_none_iff l).1 h] at hp
  · obtain ⟨hmem, hmax⟩ := highestPos_some h
    have hm : m = n := by
      by_contra hm
      have := hmax _ hp
      simp [habove q m hmem hm] at this
    simp [hm]

/-! ### The ring order (R121) -/

/-- The first sector in ring order that passes. -/
theorem ring_find {p : Nat → Bool} {start n : Nat} (hs : start ≤ 63) (hn : n < 63) (hp : p n = true)
    (hmin : ∀ m, m < 63 → p m = true → (n + (63 - start)) % 63 ≤ (m + (63 - start)) % 63) :
    ((List.range 63).map fun i => (start + i) % 63).find? p = some n := by
  have hback (m : Nat) (hm : m < 63) : (start + (m + (63 - start)) % 63) % 63 = m := by omega
  have hfind := find_map_range (f := fun i => (start + i) % 63) (p := p) (n := 63) (i := (n + (63 - start)) % 63)
    (Nat.mod_lt _ (by omega)) (by simpa [hback n hn] using hp) fun j hj => by
      by_contra hc
      have := hmin ((start + j) % 63) (Nat.mod_lt _ (by omega)) (by simpa using hc)
      omega
  simpa only [hback n hn] using hfind

end Sys2Proof.Machine
end

section
/-! SUPPORT. The start scan as a whole: the FILLING sector, the other candidates, the batch and the wanted mark (R121, R122). -/

namespace Sys2Proof.Machine

/-! ### The stages of the scan -/

/-- The FILLING candidates. -/
def scanCands (a : TollArray) : List Nat := (List.range 63).filter fun n => (scanWork a n).2

/-- The sector with the highest record. -/
def scanTop (a : TollArray) : Option Nat := (highestPos (scanPositions a)).map Prod.snd

/-- The candidate that becomes FILLING. -/
def scanPicked (a : TollArray) : Option Nat :=
  if (scanCands a).length ≤ 1 then (scanCands a).head? else pickCandidate (scanCands a) (scanPositions a) (scanTop a)

/-- The generations that the marks and the records hold. -/
def scanGens (a : TollArray) : List Nat :=
  (a.slots.filterMap fun e => e.2.completePos.map (·.gen)) ++ a.marks.map Prod.snd

/-- The generation that the scan takes. -/
def scanGen (a : TollArray) : Nat := if scanGens a = [] then 1 else nextGeneration ((scanGens a).foldl max 0)

/-- Working memory with the slots and sectors by their content. -/
def State.scanBase (s : State) : Spool :=
  { s.spool with slots := scanSlots s.array, sectors := (List.range 63).filterMap fun n =>
                   if (scanWork s.array n).1.state == .empty then none else some (n, (scanWork s.array n).1),
                 fillPoint := scanTop s.array, generation := scanGen s.array, nextSeq := 1, scanReading := false }

/-- A sector becomes FILLING and the fill point its number. -/
def Spool.fill (p : Spool) (n : Nat) : Spool :=
  { p.setSector n { p.sector n with state := .filling } with fillPoint := some n }

/-- The FILLING sector taken. -/
def State.scanFilled (s : State) : Spool :=
  match scanPicked s.array with
  | some n => s.scanBase.fill n
  | none => s.scanBase.fillAfter (scanTop s.array)

/-- A candidate that does not become FILLING: FULL while live, else RECLAIM, or BAD when it is weak. -/
def Spool.candidateWork (p : Spool) (n : Nat) : SectorWork :=
  if p.sectorLive n then p.sector n
  else if (p.sector n).weak then { p.sector n with state := .bad, badMark := true }
  else { p.sector n with state := .reclaim }

/-- Such a candidate put. -/
def Spool.settleCandidate (p : Spool) (n : Nat) : Spool :=
  if p.sectorLive n then p else p.setSector n (p.candidateWork n)

/-- All other candidates put. -/
def State.scanSettled (s : State) : Spool :=
  ((scanCands s.array).filter fun n => some n != scanPicked s.array).foldl Spool.settleCandidate s.scanFilled

/-- The sectors that are RECLAIM after the scan. -/
def State.scanReclaims (s : State) : List Nat :=
  (List.range 63).filter fun n => (s.scanSettled.sector n).state == .reclaim

theorem State.settle_step (u : State) (n : Nat) :
    (if u.spool.sectorLive n then u
      else if (u.spool.sector n).weak then u.retireSector n
      else { u with spool := u.spool.setSector n { u.spool.sector n with state := .reclaim } }) =
    { u with spool := u.spool.settleCandidate n } := by
  unfold Spool.settleCandidate Spool.candidateWork
  by_cases hl : u.spool.sectorLive n = true
  · simp [hl]
  · by_cases hw : (u.spool.sector n).weak = true
    · simp [hl, hw, State.retireSector_weak hw]
    · simp [hl, hw]

theorem State.settle_foldl (l : List Nat) (u : State) :
    l.foldl (fun u n => if u.spool.sectorLive n then u
      else if (u.spool.sector n).weak then u.retireSector n
      else { u with spool := u.spool.setSector n { u.spool.sector n with state := .reclaim } }) u =
    { u with spool := l.foldl Spool.settleCandidate u.spool } := by
  induction l generalizing u with
  | nil => rfl
  | cons n l ih => rw [List.foldl_cons, State.settle_step, ih, List.foldl_cons]

/-- The scan, stage by stage. -/
theorem State.scan_eq (s : State) : s.scan =
    ((s.scanReclaims.foldl State.joinBatch { s with spool := s.scanSettled }).wantGenMark (scanGen s.array)).startGenJob := by
  unfold State.scan
  dsimp only
  rw [State.settle_foldl]
  rfl

/-! ### Sectors by content, in working memory -/

/-- The sectors that the scan lists: those that are not EMPTY. -/
theorem State.mem_scanBase (s : State) (n : Nat) (w : SectorWork) : (n, w) ∈ s.scanBase.sectors ↔
    n < 63 ∧ (scanWork s.array n).1.state ≠ .empty ∧ (scanWork s.array n).1 = w := by
  simp only [State.scanBase, List.mem_filterMap, List.mem_range, beq_iff_eq]
  constructor
  · rintro ⟨k, hk, he⟩
    split at he
    · cases he
    next hne =>
      obtain ⟨rfl, rfl⟩ := Prod.mk.inj (Option.some.inj he)
      exact ⟨hk, hne, rfl⟩
  · rintro ⟨hn, hne, rfl⟩
    exact ⟨n, hn, if_neg hne⟩

theorem State.scanBase_rising (s : State) : keysRising s.scanBase.sectors = true := by
  refine keysRising_range 63 (f := fun n =>
    if (scanWork s.array n).1.state == .empty then none else some (n, (scanWork s.array n).1)) fun k e he => ?_
  split at he <;> cases he
  rfl

theorem State.scanBase_sector (s : State) {n : Nat} (hn : n < 63) : s.scanBase.sector n = (scanWork s.array n).1 := by
  by_cases he : (scanWork s.array n).1.state = .empty
  · have hget : keyGet s.scanBase.sectors n = none := keyGet_none fun c hc hcn => by
      obtain ⟨m, w⟩ := c
      obtain rfl : m = n := hcn
      exact ((s.mem_scanBase m w).1 hc).2.1 he
    rw [Spool.sector, hget]
    exact (scanSector_empty he).symm
  · have hget := (mem_iff_keyGet s.scanBase_rising _ _).1 ((s.mem_scanBase n _).2 ⟨hn, he, rfl⟩)
    rw [Spool.sector, hget]
    rfl

theorem State.scanBase_sector_beyond (s : State) {n : Nat} (hn : ¬ n < 63) :
    s.scanBase.sector n = ⟨.empty, false, false, false⟩ := by
  have hget : keyGet s.scanBase.sectors n = none := keyGet_none fun c hc hcn => by
    obtain ⟨m, w⟩ := c
    obtain rfl : m = n := hcn
    exact hn ((s.mem_scanBase m w).1 hc).1
  rw [Spool.sector, hget]
  rfl

section Fill
variable {p : Spool} (h : keysRising p.sectors = true) (n : Nat)
include h

theorem Spool.fill_rising : keysRising (p.fill n).sectors = true :=
  Spool.setSector_rising h n { p.sector n with state := .filling }

theorem Spool.fill_sector (m : Nat) :
    (p.fill n).sector m = if m = n then { p.sector n with state := .filling } else p.sector m :=
  Spool.sector_setSector h n m { p.sector n with state := .filling }

end Fill

/-- The spool's other items and its slots, under a change of sectors. -/
theorem Spool.settleCandidate_sectors (p : Spool) (n : Nat) :
    p.settleCandidate n = { p with sectors := (p.settleCandidate n).sectors } := by
  unfold Spool.settleCandidate
  split <;> rfl

section Settle
variable {p : Spool} (h : keysRising p.sectors = true) (n : Nat)
include h

theorem Spool.settleCandidate_rising : keysRising (p.settleCandidate n).sectors = true := by
  unfold Spool.settleCandidate
  split
  · exact h
  · exact Spool.setSector_rising h n _

theorem Spool.settleCandidate_sector (m : Nat) :
    (p.settleCandidate n).sector m = if m = n then p.candidateWork n else p.sector m := by
  unfold Spool.settleCandidate
  by_cases hl : p.sectorLive n = true
  · rw [if_pos hl, Spool.candidateWork, if_pos hl]
    split
    next hm => rw [hm]
    next => rfl
  · rw [if_neg hl]
    exact Spool.sector_setSector h n m _

omit h in
theorem Spool.sectorLive_congr {p q : Spool} (hs : q.slots = p.slots) (n : Nat) : q.sectorLive n = p.sectorLive n := by
  unfold Spool.sectorLive Spool.sectorSlots
  rw [hs]

/-- A settled candidate stays as it is. -/
theorem Spool.candidateWork_settled (m : Nat) :
    (p.settleCandidate n).candidateWork m = p.candidateWork m := by
  have hlive : (p.settleCandidate n).sectorLive m = p.sectorLive m :=
    Spool.sectorLive_congr (by rw [Spool.settleCandidate_sectors]) m
  unfold Spool.candidateWork
  rw [hlive, Spool.settleCandidate_sector h]
  by_cases hm : m = n
  · subst hm
    rw [if_pos rfl]
    unfold Spool.candidateWork
    by_cases hl : p.sectorLive m = true
    · simp [hl]
    · by_cases hw : (p.sector m).weak = true
      · simp [hl, hw]
      · simp [hl, hw]
  · rw [if_neg hm]

end Settle

/-- All sectors of a list settled as candidates. -/
theorem Spool.settle_foldl {p : Spool} (h : keysRising p.sectors = true) (l : List Nat) :
    let q := l.foldl Spool.settleCandidate p
    q = { p with sectors := q.sectors } ∧ ∀ n, q.sector n = if n ∈ l then p.candidateWork n else p.sector n := by
  induction l generalizing p with
  | nil => exact ⟨rfl, fun n => rfl⟩
  | cons a l ih =>
    obtain ⟨hsec, hall⟩ := ih (Spool.settleCandidate_rising h a)
    refine ⟨?_, fun n => ?_⟩
    · rw [List.foldl_cons, hsec, Spool.settleCandidate_sectors]
    · rw [List.foldl_cons, hall, Spool.candidateWork_settled h, Spool.settleCandidate_sector h]
      by_cases hn : n ∈ l
      · simp [hn]
      · by_cases hna : n = a
        · simp [hna]
        · simp [hn, hna]

end Sys2Proof.Machine
end

section
/-! SUPPORT. The start scan: which sector becomes FILLING, and what every sector is after it (R121). -/

namespace Sys2Proof.Machine

/-! ### Candidates and EMPTY sectors -/

/-- A FILLING candidate: not passed over, with an erased slot. -/
def TollArray.Candidate (a : TollArray) (n : Nat) : Prop :=
  n < 63 ∧ ¬ a.Passed n ∧ ∃ i, i < 32 ∧ keyGet a.slots (32 * n + i) = none

/-- A sector with an erased header and erased slots. -/
def TollArray.Blank (a : TollArray) (n : Nat) : Prop :=
  n < 63 ∧ a.header n = ⟨false, false, false⟩ ∧ ∀ k, k / 32 = n → keyGet a.slots k = none

/-- A sector of a group whose record stands above those of all others. -/
def TollArray.Top (a : TollArray) (g : Nat → Prop) (n : Nat) : Prop :=
  g n ∧ ∃ p, a.Holds n p ∧ ∀ m q, g m → a.Holds m q → m ≠ n → q.gen < p.gen ∨ (q.gen = p.gen ∧ q.seq < p.seq)

/-- No sector of a group holds a record. -/
def TollArray.Bare (a : TollArray) (g : Nat → Prop) : Prop := ∀ m q, g m → ¬ a.Holds m q

/-- The first sector of a group in ring order. -/
def RingFirst (g : Nat → Prop) (start n : Nat) : Prop :=
  g n ∧ ∀ m, g m → (n + (63 - start)) % 63 ≤ (m + (63 - start)) % 63

/-- The first sector of a group in ring order after the highest record, or of all without one. -/
def TollArray.Chosen (a : TollArray) (g : Nat → Prop) (n : Nat) : Prop :=
  (∃ h, a.Top (fun m => m < 63) h ∧ RingFirst g (h + 1) n) ∨ (a.Bare (fun m => m < 63) ∧ RingFirst g 0 n)

section Content
variable {a : TollArray} (h : a.Rising)
include h

theorem mem_scanCands (n : Nat) : n ∈ scanCands a ↔ a.Candidate n := by
  have hlen : (sectorStates a n).length ≠ 32 ↔ ∃ i, i < 32 ∧ keyGet a.slots (32 * n + i) = none := by
    rw [ne_eq, sectorStates_length_iff h]
    simp
  rw [scanCands, List.mem_filter, List.mem_range, scanWork, scanSector_snd_iff, hlen]
  exact Iff.rfl

theorem scanWork_empty_iff {n : Nat} (hn : n < 63) : (scanWork a n).1.state = .empty ↔ a.Blank n := by
  rw [scanWork, scanSector_empty_iff, sectorStates_eq_nil_iff h]
  exact ⟨fun ⟨h1, h2⟩ => ⟨hn, h1, h2⟩, fun ⟨_, h1, h2⟩ => ⟨h1, h2⟩⟩

theorem scanWork_candidate {n : Nat} (hc : a.Candidate n) :
    (scanWork a n).1 = ⟨.full, (a.header n).weak, false, false⟩ := by
  obtain ⟨-, hp, i, hi, hnone⟩ := hc
  rw [scanWork, scanSector_candidate hp fun hl => (sectorStates_length_iff h n).1 hl i hi hnone]

omit h in
theorem TollArray.Candidate.not_blank {n : Nat} (hc : a.Candidate n) : ¬ a.Blank n := fun hb => hc.2.1 (.inr hb.2.1)

/-! ### The highest record -/

theorem scanTop_of_top (hin : ∀ k c, keyGet a.slots k = some c → k < 2016) {n : Nat} (ht : a.Top (fun m => m < 63) n) :
    scanTop a = some n := by
  obtain ⟨-, p, hp, habove⟩ := ht
  refine highestPos_sector ((mem_scanPositions h p n).2 hp) fun q m hm hmn => (posLt_iff q p).2 ?_
  have hholds := (mem_scanPositions h q m).1 hm
  obtain ⟨-, k, c, -, rfl, hk, -⟩ := id hholds
  exact habove _ q (by have := hin k c hk; omega) hholds hmn

theorem scanPositions_of_bare (hin : ∀ k c, keyGet a.slots k = some c → k < 2016) (hb : a.Bare fun m => m < 63) :
    scanPositions a = [] := by
  refine List.eq_nil_iff_forall_not_mem.2 fun ⟨p, n⟩ hmem => ?_
  have hholds := (mem_scanPositions h p n).1 hmem
  obtain ⟨-, k, c, -, rfl, hk, -⟩ := id hholds
  exact hb _ p (by have := hin k c hk; omega) hholds

theorem scanTop_of_bare (hin : ∀ k c, keyGet a.slots k = some c → k < 2016) (hb : a.Bare fun m => m < 63) :
    scanTop a = none := by rw [scanTop, scanPositions_of_bare h hin hb]; rfl

/-- The ring's search from the highest record finds the chosen sector of a group. -/
theorem ring_find_chosen (hin : ∀ k c, keyGet a.slots k = some c → k < 2016) {g : Nat → Prop} {p : Nat → Bool}
    (hg : ∀ n, g n ↔ n < 63 ∧ p n = true) {n : Nat} (hc : a.Chosen g n) :
    ∃ start, start = ((scanTop a).map (· + 1)).getD 0 ∧ ((List.range 63).map fun i => (start + i) % 63).find? p = some n := by
  obtain ⟨t, ht, hn, hmin⟩ | ⟨hb, hn, hmin⟩ := hc
  · refine ⟨t + 1, by rw [scanTop_of_top h hin ht]; rfl, ?_⟩
    exact ring_find ht.1 ((hg n).1 hn).1 ((hg n).1 hn).2 fun m hm hp => hmin m ((hg m).2 ⟨hm, hp⟩)
  · refine ⟨0, by rw [scanTop_of_bare h hin hb]; rfl, ?_⟩
    exact ring_find (Nat.zero_le _) ((hg n).1 hn).1 ((hg n).1 hn).2 fun m hm hp => hmin m ((hg m).2 ⟨hm, hp⟩)

end Content

/-! ### The candidate that becomes FILLING -/

theorem pickCandidate_highest {cands : List Nat} {positions : List (Position × Nat)} {n : Nat}
    (h : (highestPos (positions.filter fun e => cands.contains e.2)).map Prod.snd = some n) (top : Option Nat) :
    pickCandidate cands positions top = some n := by
  unfold pickCandidate
  split
  next e he =>
    rw [he] at h
    exact h
  next he =>
    rw [he] at h
    cases h

theorem pickCandidate_ring {cands : List Nat} {positions : List (Position × Nat)}
    (h : highestPos (positions.filter fun e => cands.contains e.2) = none) (top : Option Nat) :
    pickCandidate cands positions top =
      ((List.range 63).map fun i => ((top.map (· + 1)).getD 0 + i) % 63).find? fun n => cands.contains n := by
  unfold pickCandidate
  rw [h]
  cases top <;> rfl

theorem Spool.nextEmpty_eq (p : Spool) (top : Option Nat) : p.nextEmpty top =
    ((List.range 63).map fun i => ((top.map (· + 1)).getD 0 + i) % 63).find? fun n => (p.sector n).state == .empty := by
  cases top <;> rfl

theorem scanPicked_mem {a : TollArray} {n : Nat} (h : scanPicked a = some n) : n ∈ scanCands a := by
  unfold scanPicked at h
  split at h
  · exact List.mem_of_mem_head? h
  · unfold pickCandidate at h
    split at h
    next e he =>
      obtain rfl := Option.some.inj h
      simpa using (List.mem_filter.1 (highestPos_some he).1).2
    next => simpa using List.find?_some h

/-- The only candidate is picked. -/
theorem scanPicked_of_length {a : TollArray} {n : Nat} (hl : (scanCands a).length ≤ 1) (hn : n ∈ scanCands a) :
    scanPicked a = some n := by
  rw [scanPicked, if_pos hl]
  rcases h : scanCands a with _ | ⟨m, _ | ⟨m', l⟩⟩
  · simp [h] at hn
  · simp [h] at hn
    simp [hn]
  · simp [h] at hl

section Picked
variable {a : TollArray} (h : a.Rising)
include h

theorem scanPicked_of_top {n : Nat} (ht : a.Top a.Candidate n) : scanPicked a = some n := by
  by_cases hl : (scanCands a).length ≤ 1
  · exact scanPicked_of_length hl ((mem_scanCands h n).2 ht.1)
  · rw [scanPicked, if_neg hl]
    obtain ⟨hc, p, hp, habove⟩ := ht
    refine pickCandidate_highest (highestPos_sector (p := p) (List.mem_filter.2
      ⟨(mem_scanPositions h p n).2 hp, by simpa using (mem_scanCands h n).2 hc⟩) fun q m hm hmn => ?_) _
    obtain ⟨hm, hcm⟩ := List.mem_filter.1 hm
    exact (posLt_iff q p).2 (habove m q ((mem_scanCands h m).1 (by simpa using hcm)) ((mem_scanPositions h q m).1 hm) hmn)

theorem scanPicked_of_bare (hin : ∀ k c, keyGet a.slots k = some c → k < 2016) (hb : a.Bare a.Candidate) {n : Nat}
    (hc : a.Chosen a.Candidate n) : scanPicked a = some n := by
  have hcand : ∀ m, a.Candidate m ↔ m < 63 ∧ (scanCands a).contains m = true := fun m => by
    rw [List.contains_iff_mem, mem_scanCands h]
    exact ⟨fun hm => ⟨hm.1, hm⟩, And.right⟩
  obtain ⟨start, rfl, hfind⟩ := ring_find_chosen h hin hcand hc
  by_cases hl : (scanCands a).length ≤ 1
  · exact scanPicked_of_length hl (by simpa using List.find?_some hfind)
  · rw [scanPicked, if_neg hl, pickCandidate_ring _ _]
    · exact hfind
    · rw [highestPos_eq_none_iff, List.filter_eq_nil_iff]
      rintro ⟨p, m⟩ hmem hcm
      exact hb m p ((mem_scanCands h m).1 (by simpa using hcm)) ((mem_scanPositions h p m).1 hmem)

theorem scanPicked_of_none (hn : ∀ n, ¬ a.Candidate n) : scanPicked a = none := by
  rcases hp : scanPicked a with _ | n
  · rfl
  · exact absurd ((mem_scanCands h n).1 (scanPicked_mem hp)) (hn n)

end Picked

/-! ### The FILLING sector -/

/-- The sector that becomes FILLING: the candidate picked, else the first EMPTY one in ring order. -/
def State.scanFillNo (s : State) : Option Nat := (scanPicked s.array).or (s.scanBase.nextEmpty (scanTop s.array))

theorem State.scanFilled_none {s : State} (h : s.scanFillNo = none) : s.scanFilled = s.scanBase := by
  obtain ⟨hp, he⟩ := Option.or_eq_none_iff.1 h
  simp only [State.scanFilled, hp, Spool.fillAfter, he]

theorem State.scanFilled_some {s : State} {n : Nat} (h : s.scanFillNo = some n) : s.scanFilled = s.scanBase.fill n := by
  rcases hp : scanPicked s.array with _ | m
  · have he : s.scanBase.nextEmpty (scanTop s.array) = some n := by simpa [State.scanFillNo, hp] using h
    simp only [State.scanFilled, hp, Spool.fillAfter, he, Spool.fill]
  · obtain rfl : m = n := by simpa [State.scanFillNo, hp] using h
    simp only [State.scanFilled, hp]

section After
variable {s : State} (h : s.StoresRising)
include h

/-- The sector that becomes FILLING is the candidate picked, or an EMPTY one. -/
theorem State.scanFillNo_mem {n : Nat} (hn : s.scanFillNo = some n) :
    n < 63 ∧ (s.array.Candidate n ∧ scanPicked s.array = some n ∨ s.array.Blank n) := by
  rcases hp : scanPicked s.array with _ | m
  · have he : s.scanBase.nextEmpty (scanTop s.array) = some n := by simpa [State.scanFillNo, hp] using hn
    rw [Spool.nextEmpty_eq] at he
    have hlt : n < 63 := by
      obtain ⟨i, -, rfl⟩ := List.mem_map.1 (List.mem_of_find?_eq_some he)
      exact Nat.mod_lt _ (by omega)
    have hempty : (s.scanBase.sector n).state = .empty := by simpa using List.find?_some he
    rw [s.scanBase_sector hlt, scanWork_empty_iff h.array hlt] at hempty
    exact ⟨hlt, .inr hempty⟩
  · obtain rfl : m = n := by simpa [State.scanFillNo, hp] using hn
    have hc := (mem_scanCands h.array m).1 (scanPicked_mem hp)
    exact ⟨hc.1, .inl ⟨hc, rfl⟩⟩

omit h in
theorem State.scanFilled_rising : keysRising s.scanFilled.sectors = true := by
  rcases hn : s.scanFillNo with _ | n
  · rw [State.scanFilled_none hn]
    exact s.scanBase_rising
  · rw [State.scanFilled_some hn]
    exact Spool.fill_rising s.scanBase_rising n

omit h in
theorem State.scanFilled_eq : s.scanFilled = { s.scanBase with sectors := s.scanFilled.sectors, fillPoint := s.scanFilled.fillPoint } := by
  rcases hn : s.scanFillNo with _ | n
  · rw [State.scanFilled_none hn]
  · rw [State.scanFilled_some hn]
    rfl

omit h in
theorem State.settled_foldl : s.scanSettled = { s.scanFilled with sectors := s.scanSettled.sectors } ∧
    ∀ n, s.scanSettled.sector n =
      if n ∈ (scanCands s.array).filter (fun n => some n != scanPicked s.array) then s.scanFilled.candidateWork n
      else s.scanFilled.sector n :=
  Spool.settle_foldl s.scanFilled_rising _

omit h in
/-- What the settled candidates leave of the spool. -/
theorem State.scanSettled_eq (s : State) : s.scanSettled =
    { s.scanBase with sectors := s.scanSettled.sectors, fillPoint := s.scanFilled.fillPoint } :=
  s.settled_foldl.1.trans (congrArg (fun p => { p with sectors := s.scanSettled.sectors }) s.scanFilled_eq)

/-- The sector that becomes FILLING. -/
theorem State.scanSettled_filling {n : Nat} (hn : s.scanFillNo = some n) :
    s.scanSettled.sector n = { s.scanBase.sector n with state := .filling } := by
  obtain ⟨-, hpick⟩ := State.scanFillNo_mem h hn
  have hnot : n ∉ (scanCands s.array).filter fun n => some n != scanPicked s.array := fun hmem => by
    obtain ⟨hc, hp⟩ := List.mem_filter.1 hmem
    obtain ⟨-, hpick⟩ := hpick.resolve_right (TollArray.Candidate.not_blank ((mem_scanCands h.array n).1 hc))
    simp [hpick] at hp
  rw [s.settled_foldl.2, if_neg hnot, State.scanFilled_some hn, Spool.fill_sector s.scanBase_rising, if_pos rfl]

omit h in
theorem State.scanFilled_other {n : Nat} (hn : s.scanFillNo ≠ some n) : s.scanFilled.sector n = s.scanBase.sector n := by
  rcases hf : s.scanFillNo with _ | m
  · rw [State.scanFilled_none hf]
  · rw [State.scanFilled_some hf, Spool.fill_sector s.scanBase_rising, if_neg]
    rintro rfl
    exact hn hf

/-- A candidate that does not become FILLING is settled by its content. -/
theorem State.scanSettled_candidate {n : Nat} (hc : s.array.Candidate n) (hn : s.scanFillNo ≠ some n) :
    s.scanSettled.sector n = s.scanBase.candidateWork n := by
  have hmem : n ∈ (scanCands s.array).filter fun n => some n != scanPicked s.array := by
    refine List.mem_filter.2 ⟨(mem_scanCands h.array n).2 hc, ?_⟩
    have hp : scanPicked s.array ≠ some n := fun hp => hn (by simp [State.scanFillNo, hp])
    simpa using fun hc => hp hc.symm
  have hlive : s.scanFilled.sectorLive n = s.scanBase.sectorLive n := Spool.sectorLive_congr (by rw [State.scanFilled_eq]) n
  rw [s.settled_foldl.2, if_pos hmem, Spool.candidateWork, Spool.candidateWork, hlive, State.scanFilled_other hn]

/-- Every other sector is as its content says. -/
theorem State.scanSettled_other {n : Nat} (hc : ¬ s.array.Candidate n) (hn : s.scanFillNo ≠ some n) :
    s.scanSettled.sector n = s.scanBase.sector n := by
  rw [s.settled_foldl.2, if_neg fun hmem => hc ((mem_scanCands h.array n).1 (List.mem_of_mem_filter hmem)),
    State.scanFilled_other hn]

theorem State.scanBase_live_iff (n : Nat) : s.scanBase.sectorLive n = true ↔
    ∃ i p, i < 32 ∧ keyGet (scanSlots s.array) (32 * n + i) = some (.filled p) := by
  have hslots : s.scanBase.slots = scanSlots s.array := rfl
  rw [Spool.sectorLive_iff, hslots]
  simp only [Prod.exists, mem_iff_keyGet (scanSlots_rising h.array)]
  constructor
  · rintro ⟨k, x, hk, rfl, ⟨q, rfl⟩ | ⟨q, rfl⟩⟩
    · exact ⟨k % 32, q, Nat.mod_lt _ (by omega), by rwa [Nat.div_add_mod]⟩
    · exact absurd hk (keyGet_scanSlots_not_pending _ _ _)
  · rintro ⟨i, p, hi, hk⟩
    exact ⟨32 * n + i, _, hk, by omega, .inl ⟨p, rfl⟩⟩

/-- What a candidate that does not become FILLING is. -/
theorem State.scanBase_candidateWork {n : Nat} (hc : s.array.Candidate n) :
    let live := ∃ i p, i < 32 ∧ keyGet (scanSlots s.array) (32 * n + i) = some (.filled p)
    (live → (s.scanBase.candidateWork n).state = .full) ∧
    (¬ live → (s.scanBase.candidateWork n).state = if (s.array.header n).weak then .bad else .reclaim) := by
  intro live
  have hsector : s.scanBase.sector n = ⟨.full, (s.array.header n).weak, false, false⟩ := by
    rw [s.scanBase_sector hc.1, scanWork_candidate h.array hc]
  refine ⟨fun hl => ?_, fun hl => ?_⟩
  · rw [Spool.candidateWork, if_pos ((State.scanBase_live_iff h n).2 hl), hsector]
  · rw [Spool.candidateWork, if_neg (mt (State.scanBase_live_iff h n).1 hl), hsector]
    split <;> rfl

/-- The FILLING sector is the one that was taken, and no other. -/
theorem State.scanSettled_filling_iff (n : Nat) : (s.scanSettled.sector n).state = .filling ↔ s.scanFillNo = some n := by
  constructor
  · intro hf
    by_contra hn
    by_cases hc : s.array.Candidate n
    · rw [State.scanSettled_candidate h hc hn] at hf
      obtain ⟨hlive, hdead⟩ := State.scanBase_candidateWork h hc
      by_cases hl : ∃ i p, i < 32 ∧ keyGet (scanSlots s.array) (32 * n + i) = some (.filled p)
      · rw [hlive hl] at hf
        cases hf
      · rw [hdead hl] at hf
        split at hf <;> cases hf
    · rw [State.scanSettled_other h hc hn] at hf
      by_cases hlt : n < 63
      · rw [s.scanBase_sector hlt] at hf
        exact scanSector_not_filling _ _ hf
      · rw [s.scanBase_sector_beyond hlt] at hf
        cases hf
  · intro hn
    rw [State.scanSettled_filling h hn]

/-! ### The fill point -/

/-- A sector number is the fill point and its sector alone FILLING. -/
def Spool.Fills (p : Spool) (n : Nat) : Prop :=
  p.fillPoint = some n ∧ (p.sector n).state = .filling ∧ ∀ m, (p.sector m).state = .filling → m = n

theorem State.scanSettled_fills {n : Nat} (hn : s.scanFillNo = some n) : s.scanSettled.Fills n := by
  refine ⟨?_, (State.scanSettled_filling_iff h n).2 hn, fun m hm => ?_⟩
  · rw [State.scanSettled_eq, State.scanFilled_some hn]
    rfl
  · exact Option.some.inj (((State.scanSettled_filling_iff h m).1 hm).symm.trans hn)

theorem State.scanSettled_fills_picked {n : Nat} (hp : scanPicked s.array = some n) : s.scanSettled.Fills n :=
  State.scanSettled_fills h (by simp [State.scanFillNo, hp])

section NoCandidate
variable (hin : ∀ k c, keyGet s.array.slots k = some c → k < 2016) (hnone : ∀ n, ¬ s.array.Candidate n)
include hin hnone

theorem State.scanSettled_fills_blank {n : Nat} (hc : s.array.Chosen s.array.Blank n) : s.scanSettled.Fills n := by
  have hblank (m : Nat) : s.array.Blank m ↔ m < 63 ∧ ((s.scanBase.sector m).state == .empty) = true := by
    rw [beq_iff_eq]
    refine ⟨fun hb => ⟨hb.1, ?_⟩, fun ⟨hm, he⟩ => ?_⟩
    · rw [s.scanBase_sector hb.1]
      exact (scanWork_empty_iff h.array hb.1).2 hb
    · rw [s.scanBase_sector hm] at he
      exact (scanWork_empty_iff h.array hm).1 he
  obtain ⟨start, rfl, hfind⟩ := ring_find_chosen h.array hin hblank hc
  refine State.scanSettled_fills h ?_
  rw [State.scanFillNo, scanPicked_of_none h.array hnone, Option.none_or, Spool.nextEmpty_eq]
  exact hfind

omit hin in
theorem State.scanFillNo_none (hfull : ∀ n, ¬ s.array.Blank n) : s.scanFillNo = none := by
  rw [State.scanFillNo, scanPicked_of_none h.array hnone, Option.none_or, Spool.nextEmpty_eq]
  refine find_map_range_none fun i _ => ?_
  have hm : (((scanTop s.array).map (· + 1)).getD 0 + i) % 63 < 63 := Nat.mod_lt _ (by omega)
  rw [s.scanBase_sector hm]
  simpa [scanWork_empty_iff h.array hm] using hfull _

omit hin in
theorem State.scanSettled_fillPoint (hfull : ∀ n, ¬ s.array.Blank n) : s.scanSettled.fillPoint = scanTop s.array := by
  rw [State.scanSettled_eq, State.scanFilled_none (State.scanFillNo_none h hnone hfull)]
  rfl

end NoCandidate
end After

/-! ### The generation (R122) -/

/-- A mark or a complete record holds a generation. -/
def TollArray.HoldsGen (a : TollArray) (g : Nat) : Prop := (∃ k, keyGet a.marks k = some g) ∨
  ∃ k c r, keyGet a.slots k = some c ∧ c.complete = true ∧ c.record = some r ∧ r.pos.gen = g

theorem mem_scanGens {a : TollArray} (h : a.Rising) (g : Nat) : g ∈ scanGens a ↔ a.HoldsGen g := by
  have hmarks : g ∈ a.marks.map Prod.snd ↔ ∃ k, keyGet a.marks k = some g := by
    simp [mem_iff_keyGet h.2.2]
  have hslots : (g ∈ a.slots.filterMap fun e => e.2.completePos.map (·.gen)) ↔
      ∃ k c r, keyGet a.slots k = some c ∧ c.complete = true ∧ c.record = some r ∧ r.pos.gen = g := by
    simp only [List.mem_filterMap, Prod.exists, mem_iff_keyGet h.2.1, Option.map_eq_some_iff, SlotCells.completePos_iff]
    constructor
    · rintro ⟨k, c, hk, p, ⟨hc, r, hr, rfl⟩, rfl⟩
      exact ⟨k, c, r, hk, hc, hr, rfl⟩
    · rintro ⟨k, c, r, hk, hc, hr, rfl⟩
      exact ⟨k, c, hk, r.pos, ⟨hc, r, hr, rfl⟩, rfl⟩
  rw [scanGens, List.mem_append, hmarks, hslots, TollArray.HoldsGen, or_comm]

theorem foldl_max_eq {l : List Nat} {g : Nat} (hg : g ∈ l) (hmax : ∀ x ∈ l, x ≤ g) : l.foldl max 0 = g := by
  have hle (l : List Nat) (b : Nat) (hb : b ≤ g) (hl : ∀ x ∈ l, x ≤ g) : l.foldl max b ≤ g := by
    induction l generalizing b with
    | nil => exact hb
    | cons a l ih => exact ih _ (max_le hb (hl a List.mem_cons_self)) fun x hx => hl x (List.mem_cons_of_mem _ hx)
  have hge (l : List Nat) (b : Nat) (hl : g ≤ b ∨ g ∈ l) : g ≤ l.foldl max b := by
    induction l generalizing b with
    | nil => exact hl.resolve_right List.not_mem_nil
    | cons a l ih =>
      refine ih _ ?_
      obtain hb | hm := hl
      · exact .inl (le_max_of_le_left hb)
      · obtain rfl | hm := List.mem_cons.1 hm
        · exact .inl (le_max_right _ _)
        · exact .inr hm
  exact le_antisymm (hle l 0 (Nat.zero_le g) hmax) (hge l 0 (.inr hg))

section Generation
variable {a : TollArray} (h : a.Rising)
include h

theorem scanGen_of_none (hn : ∀ g, ¬ a.HoldsGen g) : scanGen a = 1 :=
  if_pos (List.eq_nil_iff_forall_not_mem.2 fun g hg => hn g ((mem_scanGens h g).1 hg))

theorem scanGen_of_highest {g : Nat} (hg : a.HoldsGen g) (hmax : ∀ x, a.HoldsGen x → x ≤ g) :
    scanGen a = if 65535 ≤ g then 1 else g + 1 := by
  have hmem := (mem_scanGens h g).2 hg
  rw [scanGen, if_neg (List.ne_nil_of_mem hmem), foldl_max_eq hmem fun x hx => hmax x ((mem_scanGens h x).1 hx)]
  rfl

end Generation

end Sys2Proof.Machine
end

section
/-! SUPPORT. The scan and the generation mark: working memory after the scan, and the ends of the mark (R120 to R122). -/

namespace Sys2Proof.Machine

/-! ### Sectors after the scan (R121) -/

theorem SlotState.filledPos_eq_none_iff (x : SlotState) : x.filledPos = none ↔ ∀ p, x ≠ .filled p := by
  cases x <;> simp [SlotState.filledPos]

/-- A sector's slots are all programmed and none is FILLED. -/
theorem sectorStates_done_iff {a : TollArray} (h : a.Rising) (n : Nat) :
    (∀ i, i < 32 → ∃ x, keyGet (scanSlots a) (32 * n + i) = some x ∧ ∀ p, x ≠ .filled p) ↔
      (sectorStates a n).length = 32 ∧ ∀ x ∈ sectorStates a n, x.filledPos = none := by
  have hslot (k : Nat) : keyGet a.slots k ≠ none ↔ keyGet (scanSlots a) k ≠ none := by
    rw [keyGet_scanSlots]
    cases keyGet a.slots k <;> simp
  simp only [sectorStates_length_iff h, mem_sectorStates h, SlotState.filledPos_eq_none_iff, hslot]
  constructor
  · intro hdone
    refine ⟨fun i hi => ?_, ?_⟩
    · obtain ⟨x, hx, -⟩ := hdone i hi
      simp [hx]
    · rintro x ⟨k, rfl, hx⟩ p
      obtain ⟨y, hy, hnot⟩ := hdone (k % 32) (Nat.mod_lt _ (by omega))
      rw [Nat.div_add_mod, hx] at hy
      obtain rfl := Option.some.inj hy
      exact hnot p
  · rintro ⟨hall, hnot⟩ i hi
    obtain ⟨x, hx⟩ := Option.ne_none_iff_exists'.1 (hall i hi)
    exact ⟨x, hx, hnot x ⟨_, by omega, hx⟩⟩

section Sectors
variable {s : State} (h : s.StoresRising) {n : Nat} (hn : n < 63)
include h hn

/-- A sector that is no candidate and not EMPTY stays as its content says. -/
theorem State.scanSettled_content (hc : ¬ s.array.Candidate n) (hb : ¬ s.array.Blank n) :
    s.scanSettled.sector n = (scanWork s.array n).1 := by
  rw [State.scanSettled_other h hc, s.scanBase_sector hn]
  intro hf
  obtain ⟨hcand, -⟩ | hblank := (State.scanFillNo_mem h hf).2
  · exact hc hcand
  · exact hb hblank

theorem State.scanSettled_blank (hb : s.array.Blank n) :
    (s.scanSettled.sector n).state = .empty ∨ (s.scanSettled.sector n).state = .filling := by
  by_cases hf : s.scanFillNo = some n
  · exact .inr ((State.scanSettled_filling_iff h n).2 hf)
  · left
    rw [State.scanSettled_other h (fun hc => hc.not_blank hb) hf, s.scanBase_sector hn]
    exact (scanWork_empty_iff h.array hn).2 hb

/-- Every sector by its content, but for the candidates. -/
theorem State.scanSettled_sectors :
    let any := ∃ k, k / 32 = n ∧ keyGet s.array.slots k ≠ none
    let done := ∀ i, i < 32 → ∃ x, keyGet (scanSlots s.array) (32 * n + i) = some x ∧ ∀ p, x ≠ .filled p
    let whole := ∀ i, i < 32 → keyGet s.array.slots (32 * n + i) ≠ none
    ((s.array.header n).bad = true → (s.scanSettled.sector n).state = .bad) ∧
    (s.array.header n = ⟨false, false, false⟩ → any → (s.scanSettled.sector n).state = .reclaim) ∧
    (s.array.header n = ⟨false, false, false⟩ → ¬ any →
      (s.scanSettled.sector n).state = .empty ∨ (s.scanSettled.sector n).state = .filling) ∧
    (¬ s.array.Passed n → (s.array.header n).weak = true → done →
      (s.scanSettled.sector n).state = .bad ∧ (s.scanSettled.sector n).badMark = true) ∧
    (¬ s.array.Passed n → (s.array.header n).weak = false → done → (s.scanSettled.sector n).state = .reclaim) ∧
    (¬ s.array.Passed n → ¬ done → whole → (s.scanSettled.sector n).state = .full) := by
  intro any done whole
  have hany : any ↔ sectorStates s.array n ≠ [] := by
    rw [ne_eq, sectorStates_eq_nil_iff h.array]
    simp [any]
  have hdone : done ↔ _ := sectorStates_done_iff h.array n
  have hfull : whole ↔ (sectorStates s.array n).length = 32 := (sectorStates_length_iff h.array n).symm
  have hwhole (hd : done) : ¬ s.array.Candidate n := fun ⟨_, _, i, hi, hnone⟩ => hfull.2 (hdone.1 hd).1 i hi hnone
  have hblank (hp : ¬ s.array.Passed n) : ¬ s.array.Blank n := fun hb => hp (.inr hb.2.1)
  refine ⟨fun hb => ?_, fun he ha => ?_, fun he ha => ?_, fun hp hw hd => ?_, fun hp hw hd => ?_, fun hp hd hw => ?_⟩
  · have hnb : ¬ s.array.Blank n := fun hbl => by simp [hbl.2.1] at hb
    rw [State.scanSettled_content h hn (fun hc => hc.2.1 (.inl hb)) hnb, scanWork, scanSector_bad hb]
  · have hnb : ¬ s.array.Blank n := fun hbl => hany.1 ha ((sectorStates_eq_nil_iff h.array n).2 hbl.2.2)
    rw [State.scanSettled_content h hn (fun hc => hc.2.1 (.inr he)) hnb, scanWork, scanSector_erased he, if_neg (hany.1 ha)]
  · exact State.scanSettled_blank h hn ⟨hn, he, (sectorStates_eq_nil_iff h.array n).1 (not_not.1 (mt hany.2 ha))⟩
  · obtain ⟨hl, hx⟩ := hdone.1 hd
    rw [State.scanSettled_content h hn (hwhole hd) (hblank hp), scanWork, scanSector_weak hp hw hl hx]
    exact ⟨rfl, rfl⟩
  · obtain ⟨hl, hx⟩ := hdone.1 hd
    rw [State.scanSettled_content h hn (hwhole hd) (hblank hp), scanWork, scanSector_sound hp hw hl hx]
  · have hl := hfull.1 hw
    have hc : ¬ s.array.Candidate n := fun ⟨_, _, i, hi, hnone⟩ => hw i hi hnone
    rw [State.scanSettled_content h hn hc (hblank hp), scanWork, scanSector_full hp hl fun hx => hd (hdone.2 ⟨hl, hx⟩)]

end Sectors

/-- No sector beyond the 63 is listed. -/
theorem State.scanSettled_beyond {s : State} (h : s.StoresRising) {n : Nat} (hn : ¬ n < 63) :
    s.scanSettled.sector n = ⟨.empty, false, false, false⟩ := by
  rw [State.scanSettled_other h (fun hc => hn hc.1) (fun hf => hn (State.scanFillNo_mem h hf).1), s.scanBase_sector_beyond hn]

theorem State.mem_scanReclaims {s : State} (h : s.StoresRising) (n : Nat) :
    n ∈ s.scanReclaims ↔ (s.scanSettled.sector n).state = .reclaim := by
  rw [State.scanReclaims, List.mem_filter, List.mem_range, beq_iff_eq]
  refine ⟨And.right, fun hr => ⟨?_, hr⟩⟩
  by_contra hn
  rw [State.scanSettled_beyond h hn] at hr
  cases hr

/-! ### The generation mark wanted after the scan (R122) -/

/-- A generation job at the first erased mark place, or at the erase of the mark sector. -/
def State.firstJob (s : State) (g : Nat) : GenJob :=
  ⟨g, match s.array.erasedPlace 0 with
    | some k => .program k false
    | none => .eraseSector⟩

/-- The operation that such a job takes the array for. -/
def State.firstOp (s : State) : ArrayOp :=
  match s.array.erasedPlace 0 with
  | some k => .genMark k
  | none => .markSectorErase

theorem State.wantGenMark_startGenJob {s : State} (h : s.spool.op = .idle) (g : Nat) :
    (s.wantGenMark g).startGenJob = { s with spool := { s.spool with
      genJob := some (s.firstJob g), op := if s.powerFailing then .idle else s.firstOp } } := by
  have hwant : s.wantGenMark g = { s with spool := { s.spool with genJob := some (s.firstJob g) } } := rfl
  have hpower : State.powerFailing { s with spool := { s.spool with genJob := some (s.firstJob g) } } = s.powerFailing := rfl
  rw [hwant]
  by_cases hf : s.powerFailing = true
  · rw [State.startGenJob_not (.inr (hpower.trans hf)), if_pos hf, ← h]
  · rw [State.startGenJob_of (j := s.firstJob g) rfl (by rwa [hpower]), if_neg hf]
    unfold State.firstJob State.firstOp
    cases s.array.erasedPlace 0 <;> rfl

/-- Working memory after the scan. -/
theorem State.scan_spool {s : State} (ho : s.spool.op = .idle) : ∃ o, s.scan = { s with spool := { s.scanSettled with
      batch := o, genJob := some (s.firstJob (scanGen s.array)), op := if s.powerFailing then .idle else s.firstOp } } ∧
    (s.scanReclaims = [] → o = s.spool.batch) ∧
    (s.scanReclaims ≠ [] → ∃ b, o = some b ∧ b.Joined s.spool.batch (· ∈ s.scanReclaims) s.refTime) := by
  let settled : State := { s with spool := s.scanSettled }
  obtain ⟨o, ho', hnil, hcons⟩ := settled.joinBatch_foldl s.scanReclaims
  have hbatch : settled.spool.batch = s.spool.batch := by
    show s.scanSettled.batch = _
    rw [s.scanSettled_eq]
    rfl
  have hop : s.scanSettled.op = .idle := by
    rw [s.scanSettled_eq]
    exact ho
  rw [hbatch] at hnil hcons
  refine ⟨o, ?_, hnil, hcons⟩
  let joined : State := { s with spool := { s.scanSettled with batch := o } }
  have hscan : s.scan = (joined.wantGenMark (scanGen s.array)).startGenJob := by
    rw [State.scan_eq]
    exact congrArg (fun t : State => (t.wantGenMark (scanGen s.array)).startGenJob) ho'
  rw [hscan, State.wantGenMark_startGenJob (s := joined) hop]
  rfl

/-! ### The ends of a generation mark (R122) -/

/-- A generation job takes another stage, with or without the array. -/
def State.staged (s : State) (j : GenJob) (o : ArrayOp) : State := { s with spool := { s.spool with genJob := some j, op := o } }

section GenMark
variable {s : State}

/-- The next stage takes the array at once while POWER-WARN is not departed. -/
theorem State.genStage_place (hf : s.powerFailing = false) (g k : Nat) (b : Bool) :
    s.genStage g (.program k b) = s.staged ⟨g, .program k b⟩ (.genMark k) := by
  let t := s.staged ⟨g, .program k b⟩ .idle
  have hstart : t.startGenJob = s.staged ⟨g, .program k b⟩ (.genMark k) :=
    State.startGenJob_of (s := t) rfl (by show ¬ s.powerFailing = true; simp [hf])
  have hpump : t.startGenJob.pump = t.startGenJob := State.pump_busy (by rw [hstart]; simp [State.staged])
  exact hpump.trans hstart

theorem State.genStage_waits (hf : s.powerFailing = true) (g : Nat) (stage : GenStage) :
    s.genStage g stage = (s.staged ⟨g, stage⟩ .idle).pump :=
  congrArg State.pump (State.startGenJob_not (s := s.staged ⟨g, stage⟩ .idle) (.inr hf))

theorem State.pump_not_running (h : s.node ≠ .running) : s.pump = s := if_neg fun hc => h hc.1

variable {place : Nat} {j : GenJob} (ho : s.spool.op = .genMark place) (hj : s.spool.genJob = some j)

include ho hj in
theorem State.genMarkEnd_of : s.genMarkEnd = State.generationSettled
    { s with array := { s.array with marks := keySet s.array.marks place j.value } } j.value false := by
  have hrun : s.genMarkRun = some (place, j) := by simp only [State.genMarkRun, ho, hj]
  simp only [State.genMarkEnd, hrun]

/-- The mark place of an abandoned program, a free value. -/
def State.markAbandoned (s : State) (place : Nat) : State :=
  { s with array := s.array.abandonGenMark (Config.freeMark s.freeCount) place, freeCount := s.freeCount + 1 }

include ho hj in
theorem State.genMarkLimit_next {k : Nat} (hs : j.stage = .program place false) (hk : s.array.erasedPlace (place + 1) = some k) :
    s.genMarkLimit = (s.markAbandoned place).genStage j.value (.program k true) := by
  have hrun : s.genMarkRun = some (place, j) := by simp only [State.genMarkRun, ho, hj]
  have hsecond : j.isSecond = false := by simp only [GenJob.isSecond, hs]
  simp only [State.genMarkLimit, hrun, hsecond, hk, Bool.false_eq_true, if_false]
  rfl

include ho hj in
theorem State.genMarkLimit_fault (h : j.isSecond = true ∨ s.array.erasedPlace (place + 1) = none) :
    s.genMarkLimit = (s.markAbandoned place).generationSettled j.value true := by
  have hrun : s.genMarkRun = some (place, j) := by simp only [State.genMarkRun, ho, hj]
  have hnone : (if j.isSecond then none else s.array.erasedPlace (place + 1)) = none := by
    obtain h | h := h <;> simp [h]
  simp only [State.genMarkLimit, hrun, hnone]
  rfl

theorem State.genMarkRun_not (h : ∀ place, s.spool.op ≠ .genMark place) : s.genMarkRun = none := by
  unfold State.genMarkRun
  split
  next ho _ => exact absurd ho (h _)
  next => rfl

theorem State.genMarkEnd_not (h : ∀ place, s.spool.op ≠ .genMark place) : s.genMarkEnd = s := by
  simp only [State.genMarkEnd, State.genMarkRun_not h]

theorem State.genMarkLimit_not (h : ∀ place, s.spool.op ≠ .genMark place) : s.genMarkLimit = s := by
  simp only [State.genMarkLimit, State.genMarkRun_not h]

/-! ### The end of a mark-sector erase (R122) -/

theorem State.markEraseEnd_erased (ho : s.spool.op = .markSectorErase) (hj : s.spool.genJob = some j) :
    s.markEraseEnd true = State.genStage { s with array := { s.array with marks := [] } } j.value (.program 0 false) := by
  simp only [State.markEraseEnd, ho, hj]
  rfl

theorem State.markEraseEnd_failed (ho : s.spool.op = .markSectorErase) (hj : s.spool.genJob = some j) :
    s.markEraseEnd false = s.marksInPart.generationSettled j.value true := by
  simp only [State.markEraseEnd, ho, hj]
  rfl

theorem State.markEraseEnd_not (h : s.spool.op ≠ .markSectorErase) (e : Bool) : s.markEraseEnd e = s := by
  unfold State.markEraseEnd
  split
  next ho _ => exact absurd ho h
  next => rfl

theorem State.marksInPart_sameBut (s : State) : SameBut [.array, .freeCount] s s.marksInPart := by
  intro part hp
  cases part with
  | array | freeCount => simp at hp
  | _ => rfl

end GenMark

/-- Settles O56, with the stages of the scan and those of the generation mark. -/
theorem theScanAndItsGenerationMark : Obligations.TheScanAndItsGenerationMark := by
  unfold Obligations.TheScanAndItsGenerationMark
  intro s h hd passed held settled staged
  refine ⟨fun hn => congrArg Host.Outcome.next (if_neg (by simp [hn])), fun hr ho => ?_, fun place j ho hj => ?_, fun hn => ?_,
    fun j ho hj => ?_, fun e hn => ?_⟩
  · obtain ⟨o, hscan, hnil, hcons⟩ := State.scan_spool ho
    refine ⟨_, congrArg Host.Outcome.next ((if_pos hr).trans hscan), fun k hk => s.item_put_spool _ (by simpa using hk), ?_⟩
    have hslots : s.scanSettled.slots = scanSlots s.array := congrArg Spool.slots s.scanSettled_eq
    have hgen : s.scanSettled.generation = scanGen s.array := congrArg Spool.generation s.scanSettled_eq
    refine ⟨congrArg Spool.scanReading s.scanSettled_eq, congrArg Spool.nextSeq s.scanSettled_eq, fun hg => ?_, fun g hg hmax => ?_,
      fun k hk => ?_, fun k c hk => ⟨fun hv => ?_, fun r hp hc hrec => ?_⟩, fun n hn => ?_, fun hin => ?_, fun hnone => ?_,
      fun hb hex => ?_, ?_⟩
    · exact hgen.trans (scanGen_of_none h.array hg)
    · exact hgen.trans (scanGen_of_highest h.array hg hmax)
    · show keyGet s.scanSettled.slots k = none
      rw [hslots, keyGet_scanSlots, hk]
      rfl
    · show keyGet s.scanSettled.slots k = _
      rw [hslots, keyGet_scanSlots, hk]
      by_cases hp : s.array.passedOver (sectorOf k) = true
      · simp [hp]
      · have hc := hv.resolve_left fun hpass => hp ((s.array.passedOver_iff _).2 hpass)
        simp [hp, c.state_of_incomplete hc]
    · show keyGet s.scanSettled.slots k = _
      have hnp : ¬ s.array.passedOver (sectorOf k) = true := mt (s.array.passedOver_iff _).1 hp
      rw [hslots, keyGet_scanSlots, hk]
      simp only [hnp, Option.map_some, SlotCells.state_of_complete hc hrec]
      rfl
    · intro any done whole
      have hsectors := State.scanSettled_sectors h hn
      rw [← hslots] at hsectors
      exact hsectors
    · intro slot candidate blank holds below top bare first chosen fills
      refine ⟨fun n hn => ?_, fun n hb hn => ?_, fun hn => ⟨fun n hc => ?_, fun hfull => ⟨fun m => ?_, fun m hm => ?_, fun hb => ?_⟩⟩,
        fun n hn hf => ?_⟩
      · exact State.scanSettled_fills_picked h (scanPicked_of_top h.array hn)
      · exact State.scanSettled_fills_picked h (scanPicked_of_bare h.array hin hb hn)
      · exact State.scanSettled_fills_blank h hin hn hc
      · exact fun hf => by simpa [State.scanFillNo_none h hn hfull] using (State.scanSettled_filling_iff h m).1 hf
      · exact (State.scanSettled_fillPoint h hn hfull).trans (scanTop_of_top h.array hin hm)
      · exact (State.scanSettled_fillPoint h hn hfull).trans (scanTop_of_bare h.array hin hb)
      · have hwork := State.scanBase_candidateWork h hn
        rw [← hslots, ← State.scanSettled_candidate h hn fun hfill => hf ((State.scanSettled_filling_iff h n).2 hfill)] at hwork
        exact ⟨hwork.1, fun hnot => hwork.2 fun ⟨i, p, hi, hp⟩ => hnot i p hi hp⟩
    · exact hnil (List.eq_nil_iff_forall_not_mem.2 fun m hm => hnone m ((State.mem_scanReclaims h m).1 hm))
    · obtain ⟨m, hm⟩ := hex
      obtain ⟨b, ho', hmem, -, hopen, htimer⟩ := hcons (List.ne_nil_of_mem ((State.mem_scanReclaims h m).2 hm))
      refine ⟨b, ho', hopen hb, ?_, fun n => ?_⟩
      · rw [htimer, hopen hb]
        rfl
      · have hold : ¬ ∃ x, s.spool.batch = some x ∧ n ∈ x.sectors := by simp [hb]
        exact (hmem n).trans ((or_iff_left hold).trans (State.mem_scanReclaims h n))
    · intro j
      exact ⟨congrArg some (congrArg (fun g => (⟨g, _⟩ : GenJob)) hgen.symm), rfl⟩
  · intro abandoned
    have habandoned : s.markAbandoned place = abandoned := rfl
    refine ⟨congrArg Host.Outcome.next (State.genMarkEnd_of ho hj), fun k hs hk hf => ?_, fun k hs hk hf => ⟨?_, fun hn => ?_⟩,
      fun hs hk => ?_, fun hs => ?_⟩
    · exact congrArg Host.Outcome.next ((State.genMarkLimit_next ho hj hs hk).trans
        (State.genStage_place (s := s.markAbandoned place) hf j.value k true))
    · exact congrArg Host.Outcome.next ((State.genMarkLimit_next ho hj hs hk).trans
        (State.genStage_waits (s := s.markAbandoned place) hf j.value _))
    · exact State.pump_not_running hn
    · exact congrArg Host.Outcome.next (State.genMarkLimit_fault ho hj (.inr hk))
    · exact congrArg Host.Outcome.next (State.genMarkLimit_fault ho hj (.inl (by simp [GenJob.isSecond, hs])))
  · exact ⟨congrArg Host.Outcome.next (State.genMarkEnd_not hn), congrArg Host.Outcome.next (State.genMarkLimit_not hn)⟩
  · have hend := State.markEraseEnd_erased ho hj
    refine ⟨fun hf => ?_, fun hf => ?_, s.marksInPart, s.marksInPart_sameBut, rfl, rfl, ?_⟩
    · have hrun := hend.trans
        (State.genStage_place (s := { s with array := { s.array with marks := [] } }) hf j.value 0 false)
      exact ⟨congrArg Host.Outcome.next hrun, congrArg Host.Outcome.next hrun⟩
    · have hrun := hend.trans
        (State.genStage_waits (s := { s with array := { s.array with marks := [] } }) hf j.value (.program 0 false))
      exact ⟨congrArg Host.Outcome.next hrun, congrArg Host.Outcome.next hrun, fun hn => State.pump_not_running hn⟩
    · have hrun := State.markEraseEnd_failed ho hj
      exact ⟨congrArg Host.Outcome.next hrun, congrArg Host.Outcome.next hrun⟩
  · have hrun := State.markEraseEnd_not hn e
    exact ⟨congrArg Host.Outcome.next hrun, congrArg Host.Outcome.next hrun⟩

end Sys2Proof.Machine
end

section
/-! SUPPORT. The bytes of SCMDs and WALRs, and the claim list (R161 to R168). -/

namespace Sys2Proof.Machine

/-! ### Fields of laid-out bytes (12.3) -/

/-- The field that stands after some bytes. -/
theorem field_append (u v w : List Byte) {o n : Nat} (hu : u.length = o) (hv : v.length = n) :
    field (u ++ (v ++ w)) o n = natBE v := by
  subst hu hv
  simp [field]

theorem natBE_ofNat {n : Nat} (h : n < 256) : natBE [BitVec.ofNat 8 n] = n := by
  simp [natBE, Nat.mod_eq_of_lt h]

/-- Bytes split after a field. -/
theorem drop_eq_field {x : List Byte} {o n e : Nat} (he : o + n = e) (h : e ≤ x.length) :
    x.drop o = bytesBE n (field x o n) ++ x.drop e := by
  subst he
  have hlen : ((x.drop o).take n).length = n := by
    rw [List.length_take, List.length_drop]
    omega
  have hbytes := bytesBE_natBE ((x.drop o).take n)
  rw [hlen] at hbytes
  rw [field, hbytes, ← List.drop_drop, List.take_append_drop]

theorem bytesBE_one (n : Nat) : bytesBE 1 n = [BitVec.ofNat 8 n] := by simp [bytesBE]

theorem field_lt (x : List Byte) (o n : Nat) : field x o n < 256 ^ n := by
  have hlt (l : List Byte) : natBE l < 256 ^ l.length := by
    induction l using List.reverseRecOn with
    | nil => simp [natBE]
    | append_singleton l b ih =>
      rw [natBE_append_singleton, List.length_append, List.length_singleton, Nat.pow_succ]
      have := b.isLt
      omega
  exact (hlt _).trans_le (Nat.pow_le_pow_right (by omega) (List.length_take_le _ _))

/-! ### SCMD (R163) -/

/-- The bytes of a CLAIM. -/
def claimBytes (page : Fin 4) (priority lifetime : Nat) (flag : Byte) (y : LTime) : List Byte :=
  [1, BitVec.ofNat 8 page, BitVec.ofNat 8 priority] ++ bytesBE 4 lifetime ++ flag :: bytesBE 6 y.toNat

/-- A show-at, absent for a flag of 0. -/
def flaggedTime (flag : Byte) (y : LTime) : Option LTime := if flag = 0 then none else some y

theorem parseScmd_claim (page : Fin 4) {priority lifetime : Nat} (flag : Byte) (y : LTime) (hp : priority ≤ 15)
    (hl : lifetime < 4294967296) :
    parseScmd (claimBytes page priority lifetime flag y) = some (.claim page priority lifetime (flaggedTime flag y)) := by
  have hx : claimBytes page priority lifetime flag y = [1] ++ ([BitVec.ofNat 8 page] ++ ([BitVec.ofNat 8 priority] ++
      (bytesBE 4 lifetime ++ ([flag] ++ (bytesBE 6 y.toNat ++ []))))) := by simp [claimBytes]
  have hlen : (claimBytes page priority lifetime flag y).length = 14 := by simp [claimBytes]
  have h0 : field (claimBytes page priority lifetime flag y) 0 1 = 1 := by
    rw [hx]
    exact field_append [] [1] _ rfl rfl
  have h1 : field (claimBytes page priority lifetime flag y) 1 1 = page := by
    rw [hx]
    exact (field_append [1] [BitVec.ofNat 8 page] _ rfl rfl).trans (natBE_ofNat (by omega))
  have h2 : field (claimBytes page priority lifetime flag y) 2 1 = priority := by
    rw [hx]
    exact (field_append [1, BitVec.ofNat 8 page] [BitVec.ofNat 8 priority] _ rfl rfl).trans (natBE_ofNat (by omega))
  have h3 : field (claimBytes page priority lifetime flag y) 3 4 = lifetime := by
    rw [hx]
    exact (field_append [1, BitVec.ofNat 8 page, BitVec.ofNat 8 priority] (bytesBE 4 lifetime) _ rfl (bytesBE_length _ _)).trans
      (natBE_bytesBE (by omega))
  have hrest : claimBytes page priority lifetime flag y =
      ([1, BitVec.ofNat 8 page, BitVec.ofNat 8 priority] ++ bytesBE 4 lifetime) ++ ([flag] ++ bytesBE 6 y.toNat) := by
    simp [claimBytes]
  have h7 : field (claimBytes page priority lifetime flag y) 7 1 = flag.toNat := by
    rw [hrest]
    exact (field_append _ [flag] _ (by simp) rfl).trans (by simp [natBE])
  have h8 : field (claimBytes page priority lifetime flag y) 8 6 = y.toNat := by
    rw [hrest, ← List.append_assoc, ← List.append_nil (bytesBE 6 _),
      field_append _ _ _ (by simp) (bytesBE_length _ _), natBE_bytesBE (by have := y.isLt; omega)]
  have hflag : flag.toNat = 0 ↔ flag = 0 := ⟨fun h => BitVec.eq_of_toNat_eq h, congrArg _⟩
  have hpage : (page : Nat) < 4 := page.isLt
  unfold parseScmd
  simp only [h0, h1, h2, h3, h7, h8, hlen, hp, hpage, hflag, BitVec.ofNat_toNat, BitVec.setWidth_eq]
  rfl

theorem parseScmd_withdraw : parseScmd [2] = some .withdraw := rfl

theorem parseScmd_purge : parseScmd [3] = some .purge := rfl

/-- The bytes that spell a command. -/
theorem parseScmd_some {x : List Byte} {c : SignCommand} (h : parseScmd x = some c) : x = [2] ∨ x = [3] ∨
    ∃ page priority lifetime flag y, priority ≤ 15 ∧ lifetime < 4294967296 ∧
      x = claimBytes page priority lifetime flag y := by
  have hone {n : Nat} (hlen : x.length = 1) (h0 : field x 0 1 = n) : x = [BitVec.ofNat 8 n] := by
    rw [← h0, ← bytesBE_one]
    have := drop_eq_field (x := x) (o := 0) (n := 1) rfl (by omega)
    rwa [List.drop_zero, List.drop_eq_nil_of_le (by omega), List.append_nil] at this
  unfold parseScmd at h
  split at h
  next h0 =>
    split at h
    next hc =>
      obtain ⟨hlen, hpage, hprio⟩ := hc
      refine .inr (.inr ⟨⟨field x 1 1, hpage⟩, field x 2 1, field x 3 4, BitVec.ofNat 8 (field x 7 1),
        BitVec.ofNat 48 (field x 8 6), hprio, field_lt x 3 4, ?_⟩)
      have hy : (BitVec.ofNat 48 (field x 8 6)).toNat = field x 8 6 := by
        have := field_lt x 8 6
        simp
        omega
      have e0 : x.drop 0 = bytesBE 1 (field x 0 1) ++ x.drop 1 := drop_eq_field rfl (by omega)
      have e1 : x.drop 1 = bytesBE 1 (field x 1 1) ++ x.drop 2 := drop_eq_field rfl (by omega)
      have e2 : x.drop 2 = bytesBE 1 (field x 2 1) ++ x.drop 3 := drop_eq_field rfl (by omega)
      have e3 : x.drop 3 = bytesBE 4 (field x 3 4) ++ x.drop 7 := drop_eq_field rfl (by omega)
      have e7 : x.drop 7 = bytesBE 1 (field x 7 1) ++ x.drop 8 := drop_eq_field rfl (by omega)
      have e8 : x.drop 8 = bytesBE 6 (field x 8 6) ++ x.drop 14 := drop_eq_field rfl (by omega)
      have e14 : x.drop 14 = [] := List.drop_eq_nil_of_le (by omega)
      rw [e1, e2, e3, e7, e8, e14, h0] at e0
      refine e0.trans ?_
      rw [claimBytes, hy]
      simp [bytesBE_one]
    next => cases h
  next h0 =>
    split at h
    next hlen => exact .inl (hone hlen h0)
    next => cases h
  next h0 =>
    split at h
    next hlen => exact .inr (.inl (hone hlen h0))
    next => cases h
  next => cases h

/-! ### WALR (R186, R204) -/

/-- The bytes of a WALR item. -/
def Spells7 (y : List Byte) (a : AlertItem) : Prop :=
  1 ≤ a.kind ∧ a.kind ≤ 15 ∧ 1 ≤ a.severity ∧ a.severity ≤ 3 ∧ a.lifetime < 4294967296 ∧
    ∃ flag : Byte, a.withdraw = (flag != 0) ∧
      y = [BitVec.ofNat 8 a.kind, BitVec.ofNat 8 a.severity] ++ bytesBE 4 a.lifetime ++ [flag]

/-- The items that a WALR's bytes spell. -/
def WalrSpells (x : List Byte) (items : List AlertItem) : Prop :=
  1 ≤ items.length ∧ items.length ≤ 8 ∧ x.length = 1 + 7 * items.length ∧ x.head? = some (BitVec.ofNat 8 items.length) ∧
    ∀ i a, items[i]? = some a → Spells7 ((x.drop (1 + 7 * i)).take 7) a

/-- The item at a place, field by field. -/
def walrItem (x : List Byte) (i : Nat) : AlertItem :=
  { kind := field x (1 + 7 * i) 1, severity := field x (2 + 7 * i) 1, lifetime := field x (3 + 7 * i) 4,
    withdraw := field x (7 + 7 * i) 1 != 0 }

theorem field_byte_ne_zero (x : List Byte) (o : Nat) : (field x o 1 != 0) = (BitVec.ofNat 8 (field x o 1) != 0) := by
  have := field_one_lt x o
  rw [Bool.eq_iff_iff, bne_iff_ne, bne_iff_ne, ne_eq, ne_eq, ← BitVec.toNat_inj]
  simp
  omega

/-- The seven bytes at a place spell the item read there. -/
theorem walrItem_bytes {x : List Byte} {i : Nat} (h : 1 + 7 * i + 7 ≤ x.length) : (x.drop (1 + 7 * i)).take 7 =
    [BitVec.ofNat 8 (walrItem x i).kind, BitVec.ofNat 8 (walrItem x i).severity] ++ bytesBE 4 (walrItem x i).lifetime ++
      [BitVec.ofNat 8 (field x (7 + 7 * i) 1)] := by
  have e1 : x.drop (1 + 7 * i) = bytesBE 1 (field x (1 + 7 * i) 1) ++ x.drop (2 + 7 * i) :=
    drop_eq_field (by omega) (by omega)
  have e2 : x.drop (2 + 7 * i) = bytesBE 1 (field x (2 + 7 * i) 1) ++ x.drop (3 + 7 * i) :=
    drop_eq_field (by omega) (by omega)
  have e3 : x.drop (3 + 7 * i) = bytesBE 4 (field x (3 + 7 * i) 4) ++ x.drop (7 + 7 * i) :=
    drop_eq_field (by omega) (by omega)
  have e7 : x.drop (7 + 7 * i) = bytesBE 1 (field x (7 + 7 * i) 1) ++ x.drop (8 + 7 * i) :=
    drop_eq_field (by omega) (by omega)
  rw [e1, e2, e3, e7, ← List.append_assoc, ← List.append_assoc, ← List.append_assoc, List.take_left' (by simp)]
  simp [walrItem, bytesBE_one]

/-- The item read at a place is the one its seven bytes spell. -/
theorem walrItem_of_spells {x : List Byte} {i : Nat} {a : AlertItem} (hl : 1 + 7 * i + 7 ≤ x.length)
    (h : Spells7 ((x.drop (1 + 7 * i)).take 7) a) : walrItem x i = a := by
  obtain ⟨-, hk, -, hsev, hlife, flag, hw, hbytes⟩ := h
  rw [walrItem_bytes hl, List.append_assoc, List.append_assoc] at hbytes
  obtain ⟨hhead, hrest⟩ := List.append_inj hbytes rfl
  obtain ⟨hfour, hflag⟩ := List.append_inj hrest (by simp)
  obtain ⟨hkind, hsecond⟩ := List.cons.inj hhead
  obtain ⟨hseverity, -⟩ := List.cons.inj hsecond
  have hbyte {m n : Nat} (hm : m < 256) (hn : n < 256) (he : BitVec.ofNat 8 m = BitVec.ofNat 8 n) : m = n := by
    have := congrArg BitVec.toNat he
    simp at this
    omega
  have hlifetime := congrArg natBE hfour
  rw [natBE_bytesBE (n := (walrItem x i).lifetime) (field_lt x (3 + 7 * i) 4), natBE_bytesBE (by omega)] at hlifetime
  have hwithdraw : (walrItem x i).withdraw = a.withdraw := by
    have hb : BitVec.ofNat 8 (field x (7 + 7 * i) 1) = flag := by simpa using hflag
    rw [hw, ← hb, ← field_byte_ne_zero]
    rfl
  exact AlertItem.mk.injEq .. ▸ ⟨hbyte (field_one_lt _ _) (by omega) hkind, hbyte (field_one_lt _ _) (by omega) hseverity, hlifetime,
    hwithdraw⟩

theorem spells7_walrItem {x : List Byte} {i : Nat} (hl : 1 + 7 * i + 7 ≤ x.length) (hk : 1 ≤ (walrItem x i).kind)
    (hk' : (walrItem x i).kind ≤ 15) (hs : 1 ≤ (walrItem x i).severity) (hs' : (walrItem x i).severity ≤ 3) :
    Spells7 ((x.drop (1 + 7 * i)).take 7) (walrItem x i) :=
  ⟨hk, hk', hs, hs', field_lt x _ 4, _, field_byte_ne_zero _ _, walrItem_bytes hl⟩

/-- The checks of a WALR. -/
def WalrGood (x : List Byte) : Prop :=
  1 ≤ field x 0 1 ∧ field x 0 1 ≤ 8 ∧ x.length = 1 + 7 * field x 0 1 ∧ ∀ i, i < field x 0 1 →
    1 ≤ (walrItem x i).kind ∧ (walrItem x i).kind ≤ 15 ∧ 1 ≤ (walrItem x i).severity ∧ (walrItem x i).severity ≤ 3

theorem walr_checks_iff (x : List Byte) : (1 ≤ field x 0 1 ∧ field x 0 1 ≤ 8 ∧ x.length = 1 + 7 * field x 0 1 ∧
    ((List.range (field x 0 1)).map (walrItem x)).all
      (fun a => decide (1 ≤ a.kind ∧ a.kind ≤ 15 ∧ 1 ≤ a.severity ∧ a.severity ≤ 3)) = true) ↔ WalrGood x := by
  simp [WalrGood]

theorem parseWalr_good {x : List Byte} (h : WalrGood x) :
    parseWalr x = some ((List.range (field x 0 1)).map (walrItem x)) := if_pos ((walr_checks_iff x).2 h)

theorem parseWalr_bad {x : List Byte} (h : ¬ WalrGood x) : parseWalr x = none := if_neg (mt (walr_checks_iff x).1 h)

theorem walrSpells_items {x : List Byte} {items : List AlertItem} (h : WalrSpells x items) :
    field x 0 1 = items.length ∧ items = (List.range (field x 0 1)).map (walrItem x) := by
  obtain ⟨-, hmax, hlen, hhead, hitems⟩ := h
  have hcount : field x 0 1 = items.length := by
    obtain ⟨b, rest, rfl⟩ := List.exists_cons_of_length_pos (l := x) (by omega)
    obtain rfl : b = BitVec.ofNat 8 items.length := by simpa using hhead
    simp [field_one]
    omega
  refine ⟨hcount, List.ext_getElem? fun i => ?_⟩
  rw [hcount, List.getElem?_map]
  rcases hi : items[i]? with _ | a
  · have : items.length ≤ i := List.getElem?_eq_none_iff.1 hi
    simp [this]
  · have hlt : i < items.length := (List.getElem?_eq_some_iff.1 hi).1
    rw [List.getElem?_range hlt, Option.map_some, walrItem_of_spells (by omega) (hitems i a hi)]

/-- A WALR's items are those that its bytes spell. -/
theorem parseWalr_iff (x : List Byte) (items : List AlertItem) : parseWalr x = some items ↔ WalrSpells x items := by
  constructor
  · intro h
    have hgood : WalrGood x := by
      by_contra hbad
      rw [parseWalr_bad hbad] at h
      cases h
    obtain rfl := Option.some.inj ((parseWalr_good hgood).symm.trans h)
    obtain ⟨hmin, hmax, hlen, hall⟩ := hgood
    refine ⟨by simpa using hmin, by simpa using hmax, by simpa using hlen, ?_, fun i a ha => ?_⟩
    · have hne : x ≠ [] := by
        rintro rfl
        rw [List.length_nil] at hlen
        omega
      obtain ⟨b, rest, rfl⟩ := List.exists_cons_of_ne_nil hne
      simp [field_one]
    · rw [List.getElem?_map, Option.map_eq_some_iff] at ha
      obtain ⟨j, hj, rfl⟩ := ha
      obtain ⟨hi, rfl⟩ := List.getElem?_eq_some_iff.1 hj
      simp only [List.length_range] at hi
      simp only [List.getElem_range]
      obtain ⟨hk, hk', hs, hs'⟩ := hall i hi
      exact spells7_walrItem (by omega) hk hk' hs hs'
  · intro h
    obtain ⟨hcount, hitems⟩ := walrSpells_items h
    obtain ⟨hmin, hmax, hlen, -, hall⟩ := h
    rw [hitems]
    refine parseWalr_good ⟨by omega, by omega, by omega, fun i hi => ?_⟩
    have hget : items[i]? = some (walrItem x i) := by
      rw [hitems, List.getElem?_map, List.getElem?_range hi]
      rfl
    obtain ⟨hk, hk', hs, hs', -⟩ := hall i _ hget
    exact ⟨hk, hk', hs, hs'⟩

end Sys2Proof.Machine
end

section
/-! SUPPORT. Sign commands at a terminus and at the claim list (R161 to R168, R191 to R193). -/

namespace Sys2Proof.Machine

/-! ### The claim list (R161, R162) -/

section List
variable {c : Claim} {u v l : List Claim}

/-- The place of a claim: after those of higher priority, before all others. -/
theorem placeClaim_eq (hu : ∀ x ∈ u, c.priority < x.priority) (hv : ∀ x ∈ v.head?, x.priority ≤ c.priority) :
    placeClaim c (u ++ v) = u ++ c :: v := by
  induction u with
  | nil =>
    cases v with
    | nil => rfl
    | cons x v => exact if_pos (hv x rfl)
  | cons x u ih =>
    have hx := hu x List.mem_cons_self
    exact (if_neg (Nat.not_le.2 hx)).trans (congrArg _ (ih fun y hy => hu y (List.mem_cons_of_mem _ hy)))

theorem claimOf_absent {who : Claimant} (h : ∀ x ∈ l, x.claimant ≠ who) : claimOf who l = none :=
  List.find?_eq_none.2 fun x hx => by simpa using h x hx

theorem dropClaimant_absent {who : Claimant} (h : ∀ x ∈ l, x.claimant ≠ who) : dropClaimant who l = l :=
  List.filter_eq_self.2 fun x hx => by simpa using h x hx

section Holder
variable {a b : List Claim} {old : Claim} (ho : old.claimant = c.claimant) (h : ∀ x ∈ a ++ b, x.claimant ≠ c.claimant)
include ho h

theorem claimOf_holder : claimOf c.claimant (a ++ old :: b) = some old := by
  have ha := claimOf_absent fun x hx => h x (List.mem_append_left b hx)
  rw [claimOf] at ha ⊢
  rw [List.find?_append, ha, Option.none_or]
  exact List.find?_cons_of_pos (by simpa using ho)

theorem dropClaimant_holder : dropClaimant c.claimant (a ++ old :: b) = a ++ b := by
  have ha := dropClaimant_absent fun x hx => h x (List.mem_append_left b hx)
  have hb := dropClaimant_absent fun x hx => h x (List.mem_append_right a hx)
  rw [dropClaimant] at ha hb ⊢
  rw [List.filter_append, List.filter_cons_of_neg (by simpa using ho), ha, hb]

theorem requestClaim_refreshed (hs : old.page = c.page ∧ old.priority = c.priority ∧ old.showAt = c.showAt) :
    requestClaim c (a ++ old :: b) = (a ++ { old with expiry := c.expiry } :: b, .refreshed) := by
  have hmap (m : List Claim) (hm : ∀ x ∈ m, x.claimant ≠ c.claimant) :
      (m.map fun x => if x.claimant = c.claimant then { x with expiry := c.expiry } else x) = m :=
    (List.map_congr_left fun x hx => if_neg (hm x hx)).trans (List.map_id m)
  have hrefresh : ((a ++ old :: b).map fun x => if x.claimant = c.claimant then { x with expiry := c.expiry } else x) =
      a ++ { old with expiry := c.expiry } :: b := by
    rw [List.map_append, List.map_cons, if_pos ho, hmap a fun x hx => h x (List.mem_append_left b hx),
      hmap b fun x hx => h x (List.mem_append_right a hx)]
  simp only [requestClaim, claimOf_holder ho h, if_pos hs, hrefresh]

theorem requestClaim_replaced (hs : ¬ (old.page = c.page ∧ old.priority = c.priority ∧ old.showAt = c.showAt)) :
    requestClaim c (a ++ old :: b) = (placeClaim c (a ++ b), .placed) := by
  simp only [requestClaim, claimOf_holder ho h, if_neg hs, dropClaimant_holder ho h]

end Holder

section Absent
variable (h : ∀ x ∈ l, x.claimant ≠ c.claimant)
include h

theorem requestClaim_room (hl : l.length < 8) : requestClaim c l = (placeClaim c l, .placed) := by
  simp only [requestClaim, claimOf_absent h, if_pos hl]

variable {last : Claim} (hl : 8 ≤ l.length) (hlast : l.getLast? = some last)
include hl hlast

theorem requestClaim_evicts (hp : last.priority < c.priority) :
    requestClaim c l = (placeClaim c l.dropLast, .evicting last) := by
  simp only [requestClaim, claimOf_absent h, if_neg (Nat.not_lt.2 hl), hlast, if_pos hp]

theorem requestClaim_refused (hp : c.priority ≤ last.priority) : requestClaim c l = (l, .refused) := by
  simp only [requestClaim, claimOf_absent h, if_neg (Nat.not_lt.2 hl), hlast, if_neg (Nat.not_lt.2 hp)]

end Absent

/-- A request is refused only by a full list of other claimants with no claim of lower priority. -/
theorem requestClaim_refused_iff : (requestClaim c l).2 = .refused ↔
    8 ≤ l.length ∧ (∀ x ∈ l, x.claimant ≠ c.claimant) ∧ ∀ x ∈ l.getLast?, c.priority ≤ x.priority := by
  constructor
  · intro hr
    unfold requestClaim at hr
    split at hr
    · split at hr <;> cases hr
    next hnone =>
      split at hr
      · cases hr
      next hl =>
        refine ⟨Nat.not_lt.1 hl, claimOf_none hnone, fun x hx => ?_⟩
        rw [Option.mem_def.1 hx] at hr
        by_contra hp
        simp [Nat.not_le.1 hp] at hr
  · rintro ⟨hl, hnone, hp⟩
    have hne : l ≠ [] := List.ne_nil_of_length_pos (by omega)
    rw [requestClaim_refused hnone hl (List.getLast?_eq_some_getLast hne) (hp _ (List.getLast?_eq_some_getLast hne))]

end List

/-! ### A request at Sign Display (R162, R166) -/

section Request
variable {s : State} {c : Claim} {m : List Claim}

/-- Sign Display with another claim list. -/
def State.listed (s : State) (m : List Claim) : State := { s with display := { s.display with claims := m } }

theorem State.claimRequest_placed (h : requestClaim c s.display.claims = (m, .placed)) : s.claimRequest c = s.listed m := by
  simp only [State.claimRequest, h]
  rfl

theorem State.claimRequest_refreshed (h : requestClaim c s.display.claims = (m, .refreshed)) :
    s.claimRequest c = s.listed m := by
  simp only [State.claimRequest, h]
  rfl

theorem State.claimRequest_refused (h : requestClaim c s.display.claims = (m, .refused)) :
    s.claimRequest c = { s with display := { s.display with claims := m, refused := bump s.display.refused } } := by
  simp only [State.claimRequest, h]

/-- Sign Display with another claim list and an eviction counted. -/
def State.evicting (s : State) (m : List Claim) : State :=
  { s with display := { s.display with claims := m, evicted := bump s.display.evicted } }

theorem State.claimRequest_evicts_other {old : Claim} (h : requestClaim c s.display.claims = (m, .evicting old))
    (ho : old.claimant ≠ .centre ∨ old.placedBy = none) : s.claimRequest c = s.evicting m := by
  simp only [State.claimRequest, h]
  split
  next hc hp => simp [hc, hp] at ho
  next => rfl

theorem State.claimRequest_evicts_centre {old : Claim} {n : Nat} (h : requestClaim c s.display.claims = (m, .evicting old))
    (hc : old.claimant = .centre) (hp : old.placedBy = some n) :
    s.claimRequest c = (s.evicting m).claimReport 4 6 old.page old.priority 0 n none := by
  simp only [State.claimRequest, h, hc, hp]
  rfl

end Request

/-! ### What Sign Display does with SCMDs, items and rule claims (R163 to R168) -/

theorem State.signActs_iff (s : State) :
    s.signActs = true ↔ s.node = .running ∧ s.cfg.services.sign = true ∧ s.cfg.signWidth ≠ 0 := by
  simp [State.signActs, State.signPresent, State.isRunning]

section Commands
variable {s : State} {origin : Nat} {port : Option PortId} {x : List Byte}

theorem State.takeScmd_inert (h : ¬ s.signActs = true) : s.takeScmd origin port x = s := if_pos (Bool.eq_false_iff.2 h)

variable (ha : s.signActs = true)
include ha

theorem State.takeScmd_bad (hx : parseScmd x = none) :
    s.takeScmd origin port x = { s with display := { s.display with badScmd := bump s.display.badScmd } } := by
  simp only [State.takeScmd, ha, hx]
  rfl

theorem State.takeScmd_stray {c : SignCommand} (hx : parseScmd x = some c)
    (hk : ¬ (origin = s.cfg.number ∨ s.terminusPresence origin ≠ none)) :
    s.takeScmd origin port x = { s with display := { s.display with strayScmd := bump s.display.strayScmd } } := by
  have hstray : origin ≠ s.cfg.number ∧ s.terminusPresence origin = none := by simpa [not_or] using hk
  simp only [State.takeScmd, ha, hx]
  exact (if_neg (by simp)).trans (if_pos hstray)

variable (hk : origin = s.cfg.number ∨ s.terminusPresence origin ≠ none)
include hk

theorem State.takeScmd_claim {page : Fin 4} {priority lifetime : Nat} {at' : Option LTime}
    (hx : parseScmd x = some (.claim page priority lifetime at')) :
    s.takeScmd origin port x = s.takeClaim origin port page priority lifetime at' := by
  have hknown : ¬ (origin ≠ s.cfg.number ∧ s.terminusPresence origin = none) := fun hc => hk.elim hc.1 fun h => h hc.2
  simp only [State.takeScmd, ha, hx]
  exact (if_neg (by simp)).trans (if_neg hknown)

theorem State.takeScmd_withdraw : s.takeScmd origin port [2] = (s.withdrawClaim .centre).claimReport 2
    (if (claimOf .centre s.display.claims).isSome then 3 else 4) 0 0 0 origin port := by
  have hknown : ¬ (origin ≠ s.cfg.number ∧ s.terminusPresence origin = none) := fun hc => hk.elim hc.1 fun h => h hc.2
  simp only [State.takeScmd, ha, parseScmd_withdraw]
  exact (if_neg (by simp)).trans (if_neg hknown)

theorem State.takeScmd_purge : s.takeScmd origin port [3] =
    (s.listed []).claimReport 3 5 0 0 s.display.claims.length origin port := by
  have hknown : ¬ (origin ≠ s.cfg.number ∧ s.terminusPresence origin = none) := fun hc => hk.elim hc.1 fun h => h hc.2
  simp only [State.takeScmd, ha, parseScmd_purge]
  exact (if_neg (by simp)).trans (if_neg hknown)

end Commands

section Items
variable {s : State} {origin : Nat} {a : AlertItem}

theorem State.signRule_none (h : ∀ r ∈ s.cfg.signRules, ¬ (r.kind ≠ 0 ∧ r.kind = a.kind ∧ r.minSeverity ≤ a.severity)) :
    s.signRule a = none :=
  List.find?_eq_none.2 fun r hr => by simpa [and_assoc] using h r hr

theorem State.signRule_some {l₁ l₂ : List SignRule} {r : SignRule} (hl : s.cfg.signRules = l₁ ++ r :: l₂)
    (h₁ : ∀ r ∈ l₁, ¬ (r.kind ≠ 0 ∧ r.kind = a.kind ∧ r.minSeverity ≤ a.severity))
    (hr : r.kind ≠ 0 ∧ r.kind = a.kind ∧ r.minSeverity ≤ a.severity) : s.signRule a = some r := by
  have hnone : (l₁.find? fun r => r.kind != 0 && r.kind == a.kind && decide (r.minSeverity ≤ a.severity)) = none :=
    List.find?_eq_none.2 fun r hr => by simpa [and_assoc] using h₁ r hr
  rw [State.signRule, hl, List.find?_append, hnone, Option.none_or]
  exact List.find?_cons_of_pos (by simpa [and_assoc] using hr)

theorem State.alertItem_inert (h : ¬ s.signActs = true) : s.alertItem origin a = s := if_pos (Bool.eq_false_iff.2 h)

variable (ha : s.signActs = true)
include ha

theorem State.alertItem_withdraws (h : a.withdraw = true ∨ a.lifetime = 0) :
    s.alertItem origin a = s.withdrawClaim (.alert origin a.kind) := (if_neg (by simp [ha])).trans (if_pos h)

variable (h : ¬ (a.withdraw = true ∨ a.lifetime = 0))
include h

theorem State.alertItem_none (hr : s.signRule a = none) : s.alertItem origin a = s := by
  simp only [State.alertItem, ha, hr]
  exact (if_neg (by simp)).trans (if_neg h)

theorem State.alertItem_some {r : SignRule} (hr : s.signRule a = some r) : s.alertItem origin a = s.claimRequest
    { claimant := .alert origin a.kind, page := r.page, priority := r.priority,
      expiry := some (expiryFrom s.time.lt a.lifetime), showAt := none, placedBy := none } := by
  simp only [State.alertItem, ha, hr]
  exact (if_neg (by simp)).trans (if_neg h)

end Items

section Rest
variable {s : State}

theorem State.withdrawClaim_absent {who : Claimant} (h : ∀ x ∈ s.display.claims, x.claimant ≠ who) : s.withdrawClaim who = s := by
  rw [State.withdrawClaim, dropClaimant_absent h]

theorem State.takeWalr_good {origin : Nat} {x : List Byte} {items : List AlertItem} (h : parseWalr x = some items) :
    s.takeWalr origin x = items.foldl (fun (t : State) a => t.alertItem origin a) s := by
  simp only [State.takeWalr, h]

theorem State.takeWalr_bad {origin : Nat} {x : List Byte} (h : ∀ items, parseWalr x ≠ some items) : s.takeWalr origin x = s := by
  simp only [State.takeWalr, Option.eq_none_iff_forall_ne_some.2 h]

/-- The claim that a CLAIM asks for. -/
def State.centreClaim (s : State) (origin : Nat) (page : Fin 4) (priority lifetime : Nat) (at' : Option LTime) : Claim :=
  { claimant := .centre, page := page, priority := priority, expiry := s.claimExpiry lifetime (at'.map s.clampShowAt),
    showAt := at'.map s.clampShowAt, placedBy := some origin }

variable {origin : Nat} {port : Option PortId} {page : Fin 4} {priority lifetime : Nat} {at' : Option LTime}

theorem State.takeClaim_refused
    (h : (requestClaim (s.centreClaim origin page priority lifetime at') s.display.claims).2 = .refused) :
    s.takeClaim origin port page priority lifetime at' =
      (s.claimRequest (s.centreClaim origin page priority lifetime at')).claimReport 1 2 page priority 0 origin port :=
  congrArg (fun n => (s.claimRequest (s.centreClaim origin page priority lifetime at')).claimReport 1 n page priority 0 origin port)
    (if_pos h)

theorem State.takeClaim_taken
    (h : (requestClaim (s.centreClaim origin page priority lifetime at') s.display.claims).2 ≠ .refused) :
    s.takeClaim origin port page priority lifetime at' =
      (s.claimRequest (s.centreClaim origin page priority lifetime at')).claimReport 1 1 page priority 0 origin port :=
  congrArg (fun n => (s.claimRequest (s.centreClaim origin page priority lifetime at')).claimReport 1 n page priority 0 origin port)
    (if_neg h)

end Rest

/-! ### SEND-SIGN (R193) -/

theorem State.offerSign_eq (s : State) (p : PortId) (f : Frame) : s.offerSign p f =
    if (s.port p).offerAnswer f = .taken then s.offer p f else (s.offer p f).countSignLost := by
  unfold State.offerSign
  cases (s.port p).offerAnswer f <;> rfl

section SendSign
variable {s : State} {kind target zone : Byte} {payload : List Byte}

theorem State.sendSignFrame_all (h : target = 0) : s.sendSignFrame kind target zone payload =
    ((s.offerSign .east (s.ownFrame (signKind kind) zone.toNat target.toNat payload)).offerSign .west
      (s.ownFrame (signKind kind) zone.toNat target.toNat payload)).handSign kind payload := if_pos h

theorem State.sendSignFrame_own (h : target ≠ 0) (ho : target.toNat = s.cfg.number) :
    s.sendSignFrame kind target zone payload = s.handSign kind payload := (if_neg h).trans (if_pos ho)

variable (h : target ≠ 0) (ho : target.toNat ≠ s.cfg.number)
include h ho

theorem State.sendSignFrame_port {p : PortId} (hp : s.nodePort target.toNat = some p) :
    s.sendSignFrame kind target zone payload =
      s.offerSign p (s.ownFrame (signKind kind) zone.toNat target.toNat payload) := by
  simp only [State.sendSignFrame, hp]
  exact (if_neg h).trans (if_neg ho)

theorem State.sendSignFrame_none (hp : s.nodePort target.toNat = none) :
    s.sendSignFrame kind target zone payload = s.countSignLost := by
  simp only [State.sendSignFrame, hp]
  exact (if_neg h).trans (if_neg ho)

end SendSign

/-- A SEND-SIGN by its target, its form and the node's state (R191 to R193). -/
theorem sendSign_goes (s : State) (kind target zone : Byte) (payload : List Byte) :
    let run := exec (.sendSign kind target zone payload) s
    (s.node = .running → s.cfg.role = .terminus → SignFrameGood kind target zone payload →
      run = .next (s.sendSignFrame kind target zone payload)) ∧
    (s.node = .running → s.cfg.role = .roadside → SignFrameGood kind target zone payload → run = .next s.countMisdirected) ∧
    (s.node = .scanning → SignFrameGood kind target zone payload → run = .next s.countNotReady) ∧
    (s.node = .running ∨ s.node = .scanning → ¬ SignFrameGood kind target zone payload → run = .next s.countBad) ∧
    (s.node ≠ .running → s.node ≠ .scanning → run = .next s) := by
  intro run
  have hgood (hg : SignFrameGood kind target zone payload) : sendSignOk kind target zone payload = true :=
    (sendSignOk_iff ..).2 hg
  have hrun {t : State} {ok : Bool} (hok : sendSignOk kind target zone payload = ok)
      (ht : s.dispatch ok s.isTerminus (fun t => t.sendSignFrame kind target zone payload) id = t) : run = .next t := by
    subst hok
    exact congrArg Host.Outcome.next ht
  refine ⟨fun hr ht hg => hrun (hgood hg) (State.dispatch_running hr (s.isTerminus_iff.2 ⟨.inr hr, ht⟩)),
    fun hr ht hg => hrun (hgood hg) (State.dispatch_misdirected hr ?_), fun hs hg => hrun (hgood hg) (State.dispatch_scanning hs),
    fun hs hg => hrun (Bool.eq_false_iff.2 (mt (sendSignOk_iff ..).1 hg)) (State.dispatch_bad hs.symm),
    fun hr hs => hrun rfl (State.dispatch_unreceived hs hr)⟩
  rw [Bool.eq_false_iff, ne_eq, s.isTerminus_iff, ht]
  simp

/-- Settles O52: SEND-SIGN by its target, and requests, SCMDs, alert items and rule claims at the claim list. -/
theorem signFramesGoByTheirTarget : Obligations.SignFramesGoByTheirTarget := by
  unfold Obligations.SignFramesGoByTheirTarget
  refine ⟨fun s kind target zone payload => ?_, fun s origin port => ?_⟩
  · intro run good f lost offered handed counted
    obtain ⟨hterm, hroad, hscan, hbad, hnone⟩ := sendSign_goes s kind target zone payload
    have hoffer (t : State) (p : PortId) : t.offerSign p (s.ownFrame (signKind kind) zone.toNat target.toNat payload) = offered t p :=
      State.offerSign_eq t p _
    have hhand {t : State} (ht : t.cfg = s.cfg) : t.handSign kind payload = handed t := by
      rw [State.handSign, ht]
    refine ⟨fun hr ht hg => ⟨fun h => ?_, fun h ho => ?_, fun h ho => ⟨fun p hp => ?_, fun hp => ?_⟩⟩, hroad, hscan, hbad, hnone⟩
    · have hcfg := ((s.offerSign .east (s.ownFrame (signKind kind) zone.toNat target.toNat payload)).offerSign_item .west
        (s.ownFrame (signKind kind) zone.toNat target.toNat payload) (part := .cfg) (by decide)).trans
        (s.offerSign_item .east (s.ownFrame (signKind kind) zone.toNat target.toNat payload) (by decide))
      have hall := State.sendSignFrame_all (s := s) (kind := kind) (zone := zone) (payload := payload) h
      rw [hhand hcfg, hoffer, hoffer] at hall
      exact (hterm hr ht hg).trans (congrArg Host.Outcome.next hall)
    · exact (hterm hr ht hg).trans (congrArg Host.Outcome.next (State.sendSignFrame_own h ho))
    · exact (hterm hr ht hg).trans (congrArg Host.Outcome.next ((State.sendSignFrame_port h ho hp).trans (hoffer s p)))
    · exact (hterm hr ht hg).trans (congrArg Host.Outcome.next (State.sendSignFrame_none h ho hp))
  · intro acts l shown listed gone expires reported
    have hacts : s.signActs = true ↔ acts := s.signActs_iff
    have hreport (t : State) (command outcome page priority removed dest : Nat) (back : Option PortId) :
        t.claimReport command outcome page priority removed dest back =
          reported t command outcome page priority removed dest back := State.signReport_eq ..
    refine ⟨fun c => ?_, ?_, fun a => ?_, ?_, fun n page priority lifetime => ?_⟩
    · intro asked other fits
      refine ⟨fun a old b hl ho h => ?_, fun u v h hlen hl ⟨hu, hv⟩ => ?_, fun front last h hlen hl => ⟨fun hp => ?_, fun u v hp hf hfit => ?_⟩⟩
      · intro same
        refine ⟨fun hs => ?_, fun u v hs huv ⟨hu, hv⟩ => ?_⟩
        · refine State.claimRequest_refreshed ?_
          rw [show s.display.claims = a ++ old :: b from hl]
          exact requestClaim_refreshed ho h hs
        · refine State.claimRequest_placed ?_
          rw [show s.display.claims = a ++ old :: b from hl, requestClaim_replaced ho h hs, huv, placeClaim_eq hu hv]
      · refine State.claimRequest_placed ?_
        refine (requestClaim_room h hlen).trans ?_
        rw [hl, placeClaim_eq hu hv]
      · have hlast : s.display.claims.getLast? = some last := by rw [show s.display.claims = front ++ [last] from hl]; simp
        exact State.claimRequest_refused (requestClaim_refused h hlen hlast hp)
      · intro t
        obtain ⟨hu, hv⟩ := hfit
        have hlast : s.display.claims.getLast? = some last := by rw [show s.display.claims = front ++ [last] from hl]; simp
        have hrequest : requestClaim c s.display.claims = (u ++ c :: v, .evicting last) := by
          refine (requestClaim_evicts h hlen hlast hp).trans ?_
          rw [hl, List.dropLast_concat, hf, placeClaim_eq hu hv]
        exact ⟨fun hother => State.claimRequest_evicts_other hrequest hother,
          fun n hc hn => (State.claimRequest_evicts_centre hrequest hc hn).trans (hreport ..)⟩
    · intro claims good known
      have hspelled (x : List Byte) (page : Fin 4) (priority lifetime : Nat) (at' : Option LTime)
          (hc : claims x page priority lifetime at') : parseScmd x = some (.claim page priority lifetime at') := by
        obtain ⟨hp, hl, flag, y, rfl, rfl⟩ := hc
        exact parseScmd_claim page flag y hp hl
      have hgood (x : List Byte) : good x ↔ ∃ c, parseScmd x = some c := by
        constructor
        · rintro (rfl | rfl | ⟨page, priority, lifetime, at', hc⟩)
          · exact ⟨_, parseScmd_withdraw⟩
          · exact ⟨_, parseScmd_purge⟩
          · exact ⟨_, hspelled x page priority lifetime at' hc⟩
        · rintro ⟨c, hc⟩
          obtain h | h | ⟨page, priority, lifetime, flag, y, hp, hl, hx⟩ := parseScmd_some hc
          · exact .inl h
          · exact .inr (.inl h)
          · exact .inr (.inr ⟨page, priority, lifetime, _, hp, hl, flag, y, rfl, hx⟩)
      refine ⟨fun x ha => State.takeScmd_inert (mt hacts.1 ha), fun x ha hx => ?_, fun x ha hx hk => ?_, fun ha hk =>
        ⟨fun x page priority lifetime at' hc => ?_, fun hc => ?_, fun hc => ?_, ?_⟩⟩
      · refine State.takeScmd_bad (hacts.2 ha) ?_
        rcases hp : parseScmd x with _ | c
        · rfl
        · exact absurd ((hgood x).2 ⟨c, hp⟩) hx
      · obtain ⟨c, hc⟩ := (hgood x).1 hx
        exact State.takeScmd_stray (hacts.2 ha) hc hk
      · intro due t full
        have htake := State.takeScmd_claim (port := port) (hacts.2 ha) hk (hspelled x page priority lifetime at' hc)
        have hfull : (requestClaim (s.centreClaim origin page priority lifetime at') s.display.claims).2 = .refused ↔ full :=
          requestClaim_refused_iff
        refine ⟨fun hf => ?_, fun hf => ?_⟩
        · exact (htake.trans (State.takeClaim_refused (hfull.2 hf))).trans (hreport ..)
        · exact (htake.trans (State.takeClaim_taken (mt hfull.1 hf))).trans (hreport ..)
      · have hsome : (claimOf .centre s.display.claims).isSome = true := by
          obtain ⟨c, hm, hcc⟩ := hc
          exact List.find?_isSome.2 ⟨c, hm, by simpa using hcc⟩
        have htake := State.takeScmd_withdraw (port := port) (hacts.2 ha) hk
        rw [if_pos hsome] at htake
        exact htake.trans (hreport ..)
      · have hnone : ¬ (claimOf .centre s.display.claims).isSome = true := by
          rw [claimOf_absent hc]
          simp
        have htake := State.takeScmd_withdraw (port := port) (hacts.2 ha) hk
        rw [if_neg hnone, State.withdrawClaim_absent hc] at htake
        exact htake.trans (hreport ..)
      · exact (State.takeScmd_purge (hacts.2 ha) hk).trans (hreport ..)
    · refine ⟨fun ha => State.alertItem_inert (mt hacts.1 ha), fun ha hw => State.alertItem_withdraws (hacts.2 ha) hw, ?_⟩
      intro entry ha hw hl
      have hclaims : ¬ (a.withdraw = true ∨ a.lifetime = 0) := by simp [hw, hl]
      exact ⟨fun hr => State.alertItem_none (hacts.2 ha) hclaims (State.signRule_none hr),
        fun l₁ r l₂ hl h₁ hr => State.alertItem_some (hacts.2 ha) hclaims (State.signRule_some hl h₁ hr)⟩
    · intro spells
      exact ⟨fun x items h => State.takeWalr_good ((parseWalr_iff x items).2 h), fun x h => State.takeWalr_bad
        fun items hp => h items ((parseWalr_iff x items).1 hp)⟩
    · exact ⟨fun ha => ⟨if_neg (mt hacts.1 ha), if_neg (mt hacts.1 ha)⟩, fun ha => ⟨if_pos (hacts.2 ha), if_pos (hacts.2 ha)⟩⟩

end Sys2Proof.Machine
end

section
/-! SUPPORT. The node status report: how items fill a part, and its five parts (R197, R198, 12.3). -/

namespace Sys2Proof.Machine

/-! ### Items of a part (R197) -/

/-- Plain values after some bytes, numbered in order. -/
def plainItems (p : List Byte) (n : Nat) (vs : List (List Byte)) : List Byte :=
  p ++ (vs.zipIdx n).flatMap fun v => itemBytes v.2 v.1

/-- A list item after some bytes, cut to the elements that fit. -/
def cutItem (p : List Byte) (number size : Nat) (l : List (List Byte)) : List Byte :=
  p ++ listItem number ((256 - p.length - 4) / size) l

theorem plainItems_nil (p : List Byte) (n : Nat) : plainItems p n [] = p := List.append_nil p

theorem plainItems_cons (p : List Byte) (n : Nat) (v : List Byte) (vs : List (List Byte)) :
    plainItems p n (v :: vs) = plainItems (p ++ itemBytes n v) (n + 1) vs := by
  simp [plainItems, List.zipIdx_cons]

theorem plainItems_length (p : List Byte) (n : Nat) (vs : List (List Byte)) :
    (plainItems p n vs).length = p.length + (vs.map fun v => v.length + 2).sum := by
  induction vs generalizing p n with
  | nil => simp [plainItems_nil]
  | cons v vs ih =>
    rw [plainItems_cons, ih]
    simp [itemBytes]
    omega

/-- Plain values that fit are all added. -/
theorem addItems_plain (p : List Byte) (n : Nat) (vs : List (List Byte)) (rest : List NstaItem)
    (h : (plainItems p n vs).length ≤ 256) :
    addItems p n (vs.map .plain ++ rest) = addItems (plainItems p n vs) (n + vs.length) rest := by
  induction vs generalizing p n with
  | nil => rw [plainItems_nil]; rfl
  | cons v vs ih =>
    rw [plainItems_cons] at h ⊢
    have hfit : p.length + 2 + v.length ≤ 256 := by
      rw [plainItems_length] at h
      simp [itemBytes] at h
      omega
    have hadd : addItems p n ((v :: vs).map .plain ++ rest) = addItems (p ++ itemBytes n v) (n + 1) (vs.map .plain ++ rest) := by
      rw [List.map_cons, List.cons_append, addItems, if_pos hfit, itemBytes, List.append_assoc]
    rw [hadd, ih _ _ h, List.length_cons]
    congr 1
    omega

section Cut
variable {p : List Byte} {number size : Nat} {l : List (List Byte)}

/-- A list that fits is added whole, and is the list cut to what fits. -/
theorem addItems_listing_fits (hs : 0 < size) (h : p.length + 4 + size * l.length ≤ 256) (rest : List NstaItem) :
    addItems p number (.listing size l :: rest) = addItems (cutItem p number size l) (number + 1) rest := by
  have hroom : l.length ≤ (256 - p.length - 4) / size := by
    rw [Nat.le_div_iff_mul_le hs, Nat.mul_comm]
    omega
  have htake : listItem number ((256 - p.length - 4) / size) l = listItem number l.length l := by
    simp only [listItem, List.take_of_length_le hroom, List.take_length]
  rw [addItems, if_pos h, cutItem, htake]

/-- A list at the end of a part is cut to the elements that fit. -/
theorem addItems_listing_last (hs : 0 < size) (h : p.length + 4 ≤ 256) :
    addItems p number [.listing size l] = cutItem p number size l := by
  by_cases hfit : p.length + 4 + size * l.length ≤ 256
  · exact (addItems_listing_fits hs hfit []).trans (by rw [addItems])
  · rw [addItems, if_neg hfit, if_pos h, cutItem]

variable (hl : ∀ e ∈ l, e.length = size)
include hl

theorem flatten_take_length (k : Nat) : ((l.take k).flatten).length = size * (l.take k).length := by
  rw [List.length_flatten, List.map_congr_left fun e he => hl e (List.mem_of_mem_take he)]
  simp [Nat.mul_comm]

theorem cutItem_length : (cutItem p number size l).length = p.length + 4 + size * (l.take ((256 - p.length - 4) / size)).length := by
  rw [cutItem, List.length_append, listItem]
  simp only [List.length_append, flatten_take_length hl, List.length_cons, List.length_nil]
  omega

theorem cutItem_le (h : p.length + 4 ≤ 256) : (cutItem p number size l).length ≤ 256 := by
  rw [cutItem_length hl]
  have hk : (l.take ((256 - p.length - 4) / size)).length ≤ (256 - p.length - 4) / size := List.length_take_le _ _
  have := (Nat.mul_le_mul_left size hk).trans (Nat.mul_div_le _ _)
  omega

/-- The bytes of a list item (12.3). -/
theorem cutItem_eq : cutItem p number size l =
    p ++ [BitVec.ofNat 8 number, BitVec.ofNat 8 (2 + size * (l.take ((256 - p.length - 4) / size)).length),
      BitVec.ofNat 8 l.length, BitVec.ofNat 8 (l.take ((256 - p.length - 4) / size)).length] ++
      (l.take ((256 - p.length - 4) / size)).flatten := by
  rw [cutItem, listItem, List.append_assoc, flatten_take_length hl, Nat.add_comm 2]

end Cut

/-! ### The values of the items (12.3) -/

section Values
variable (s : State)

theorem LineCounters.bytes_length (c : LineCounters) : c.bytes.length = 14 := by
  simp [LineCounters.bytes, bytesCounter]

theorem TermChoice.bytes_length (c : TermChoice) : c.bytes.length = 4 := by cases c <;> rfl

theorem Route.bytes_length (r : Route) : r.bytes.length = 3 := by cases r <;> rfl

theorem reachEntryBytes_length (p : PortId) (e : ReachEntry) : (reachEntryBytes p e).length = 6 := by simp [reachEntryBytes]

theorem lineWord_length (f : LevelLine → Bool) : (lineWord f).length = 2 := bytesBE_length _ _

theorem State.nstaPulse_length (ch : PulseId) : (s.nstaPulse ch).length = 4 := by simp [State.nstaPulse]

theorem State.nstaRules_length : (allRules.flatMap s.ruleBytes).length = 16 :=
  flatMap_length_const (fun _ => ruleStateBytes_length _ _) allRules

theorem Spool.batchBytes_length (p : Spool) : p.batchBytes.length = 2 := by
  unfold Spool.batchBytes
  split <;> rfl

theorem State.eraseBytes_length : s.eraseBytes.length = 3 := by
  unfold State.eraseBytes
  split
  · rfl
  · simp

theorem State.firstEntryBytes_length : s.firstEntryBytes.length ≤ 14 := by
  unfold State.firstEntryBytes
  split
  · simp
  · split <;> simp [bytesPos, bytesLT]

theorem oldest_length (o : Option Position) : ((o.map bytesPos).getD []).length ≤ 6 := by
  cases o <;> simp [bytesPos]

theorem State.callBytes_length (e : Fin 8) (c : CallEntry) : (s.callBytes e c).length = 11 := by
  simp [State.callBytes, bytesRef, bytesCounter]

theorem optLTBytes_length (x : Option LTime) : (optLTBytes x).length = 7 := by
  cases x <;> simp [optLTBytes, bytesLT]

theorem PageRecord.bytes_length (r : PageRecord) : r.bytes.length = 19 := by
  simp [PageRecord.bytes, optLTBytes_length]

theorem claimantBytes_length (c : Option Claimant) : (claimantBytes c).length = 3 := by
  unfold claimantBytes
  split <;> rfl

theorem Claim.bytes_length (c : Claim) : c.bytes.length = 19 := by
  simp [Claim.bytes, claimantBytes_length, optLTBytes_length]

theorem State.nstaHead_length (k : Nat) : (s.nstaHead k).length = 12 := by simp [State.nstaHead, bytesLT]

/-- The plain values of part 1. -/
def State.lineValues : List (List Byte) :=
  [[s.east.state.code, s.west.state.code], s.east.counters.bytes, s.west.counters.bytes, [flagByte s.clash],
    [BitVec.ofNat 8 ((s.neighbourSilent .east).toNat + 2 * (s.neighbourSilent .west).toNat)],
    [BitVec.ofNat 8 s.reach.east.length, BitVec.ofNat 8 s.reach.west.length], s.terminusChoice.bytes,
    bytesCounter s.reach.badBeat]

/-- The Reach View's entries in part 1. -/
def State.lineEntries : List (List Byte) :=
  s.reach.east.map (reachEntryBytes .east) ++ s.reach.west.map (reachEntryBytes .west)

/-- The values of part 2. -/
def State.timeValues : List (List Byte) :=
  [bytesLT s.time.lt, [BitVec.ofNat 8 s.time.grade], [flagByte s.time.settled], bytesBE 4 s.time.holdback,
    bytesCounter s.time.disputes, [flagByte s.time.lock.isSome],
    lineWord (fun l => (s.inputs.line l).filtered) ++ lineWord s.watched ++ lineWord s.watchDeparted,
    s.nstaPulse .wind ++ s.nstaPulse .rain, allRules.flatMap s.ruleBytes, [BitVec.ofNat 8 s.weather.gathering.length],
    bytesCounter s.weather.badReading ++ bytesCounter s.weather.walrs ++ bytesCounter s.weather.alertLost ++
      bytesCounter s.weather.reportLost, [flagByte s.cfg.services.weather]]

/-- The value of an item that a terminus alone gives. -/
def State.terminusValue (v : List Byte) : List Byte := if s.isTerminus then v else []

/-- The values of part 3. -/
def State.tollValues : List (List Byte) :=
  [bytesBE 2 s.spool.generation, bytesBE 4 s.spool.nextSeq, [flagByte s.spool.markFault], bytesBE 2 s.spool.backlog,
    bytesBE 2 (s.spool.slots.filter fun e => e.2.markPending).length, [BitVec.ofNat 8 s.spool.emptyInFilling],
    [SectorState.empty, .filling, .full, .reclaim, .erasing, .bad].map fun st => BitVec.ofNat 8 (s.sectorCount st),
    [BitVec.ofNat 8 (s.spool.sectors.filter fun e => e.2.weak).length], [flagByte s.spoolFull], s.spool.batchBytes,
    s.eraseBytes,
    bytesCounter s.spool.programFaults ++ bytesCounter s.spool.markFaults ++ bytesCounter s.spool.eraseFaults ++
      bytesCounter s.spool.unanswered, s.sending.steer.bytes,
    [BitVec.ofNat 8 s.sending.window.length, BitVec.ofNat 8 (s.sending.window.filter (·.due)).length], s.firstEntryBytes,
    (s.spool.oldestFilled.map bytesPos).getD [],
    [s.sending.trecs, s.sending.refusedOffers, s.sending.goBacks, s.sending.resteers, s.sending.strayTacks,
      s.sending.badTacks].flatMap bytesCounter,
    s.terminusValue ([s.receipt.accepted, s.receipt.duplicate, s.receipt.outOfOrder, s.receipt.queueFull, s.receipt.badTrecs,
      s.receipt.tacks].flatMap bytesCounter),
    s.terminusValue [BitVec.ofNat 8 s.receipt.table.length]]

/-- The plain values of part 4. -/
def State.callValues : List (List Byte) :=
  [[s.calls.voiceLate, s.calls.voiceOverflow, s.calls.consoleDrop, s.calls.signallingDrop].flatMap bytesCounter,
    s.terminusValue [BitVec.ofNat 8 s.cfg.consoleChannels]]

/-- The call entries of part 4. -/
def State.callEntries : List (List Byte) := allCalls.filterMap fun e => (s.call e).map (s.callBytes e)

/-- The wait order's references in part 4. -/
def State.waitEntries : List (List Byte) := s.calls.waitOrder.filterMap fun e => (s.call e).map fun c => bytesRef c.ref

/-- The plain values of part 5. -/
def State.signValues : List (List Byte) :=
  [[flagByte s.signPresent] ++ bytesBE 2 s.cfg.signWidth ++ [BitVec.ofNat 8 s.cfg.signHeight],
    s.pages.records.toList.flatMap PageRecord.bytes,
    [s.pages.badSdat, s.pages.refusedSdat, s.pages.duplicate, s.pages.superseded, s.pages.aborted,
      s.pages.loaded].flatMap bytesCounter,
    s.display.pageByte :: claimantBytes s.display.claimant,
    [BitVec.ofNat 8 s.display.requested, BitVec.ofNat 8 s.display.applied, brightnessCode s.cfg.brightnessMode],
    [flagByte s.display.overload],
    [s.display.badScmd, s.display.strayScmd, s.display.refused, s.display.evicted, s.display.changes,
      s.display.overloads].flatMap bytesCounter, s.equip.fiveCounters ++ bytesCounter s.equip.statusLost]

/-- The claims of part 5. -/
def State.signEntries : List (List Byte) := s.display.claims.map Claim.bytes

theorem State.terminusItem_plain (v : List Byte) : s.terminusItem (.plain v) = .plain (s.terminusValue v) := by
  unfold State.terminusItem State.terminusValue
  split <;> rfl

theorem State.terminusValue_length (v : List Byte) : (s.terminusValue v).length ≤ v.length := by
  unfold State.terminusValue
  split <;> simp

/-! ### The lengths of the parts -/

theorem State.linePart_length : (plainItems (s.nstaHead 1) 1 s.lineValues).length = 68 := by
  simp [plainItems_length, State.nstaHead_length, State.lineValues, LineCounters.bytes_length, TermChoice.bytes_length, bytesCounter]

theorem State.timePart_length : (plainItems (s.nstaHead 2) 1 s.timeValues).length = 91 := by
  simp [plainItems_length, State.nstaHead_length, State.timeValues, lineWord_length, State.nstaPulse_length,
    s.nstaRules_length, bytesCounter, bytesLT, -List.length_flatMap]

theorem State.tollPart_length : (plainItems (s.nstaHead 3) 1 s.tollValues).length ≤ 256 := by
  have hfirst := s.firstEntryBytes_length
  have holdest := oldest_length s.spool.oldestFilled
  have hcounts : (s.terminusValue ([s.receipt.accepted, s.receipt.duplicate, s.receipt.outOfOrder, s.receipt.queueFull,
      s.receipt.badTrecs, s.receipt.tacks].flatMap bytesCounter)).length ≤ 12 :=
    (s.terminusValue_length _).trans (by simp [bytesCounter])
  have htable : (s.terminusValue [BitVec.ofNat 8 s.receipt.table.length]).length ≤ 1 := s.terminusValue_length _
  rw [plainItems_length, State.nstaHead_length, State.tollValues]
  generalize s.firstEntryBytes = first at hfirst ⊢
  generalize (s.spool.oldestFilled.map bytesPos).getD [] = oldest at holdest ⊢
  generalize s.terminusValue (List.flatMap _ _) = counts at hcounts ⊢
  generalize s.terminusValue _ = table at htable ⊢
  simp [Spool.batchBytes_length, s.eraseBytes_length, Route.bytes_length, bytesCounter]
  linarith

theorem State.callPart_length : (plainItems (s.nstaHead 4) 1 s.callValues).length ≤ 25 := by
  have hchannels := s.terminusValue_length [BitVec.ofNat 8 s.cfg.consoleChannels]
  simp [plainItems_length, State.nstaHead_length, State.callValues, bytesCounter] at hchannels ⊢
  omega

theorem State.signPart_length : (plainItems (s.nstaHead 5) 1 s.signValues).length ≤ 252 := by
  have hpages : (s.pages.records.toList.flatMap PageRecord.bytes).length = 76 := by
    rw [flatMap_length_const PageRecord.bytes_length, Vector.length_toList]
  simp [plainItems_length, State.nstaHead_length, State.signValues, claimantBytes_length, Equip.fiveCounters, bytesCounter,
    hpages, -List.length_flatMap]

/-! ### The five parts -/

theorem State.lineEntries_size : ∀ e ∈ s.lineEntries, e.length = 6 := by
  intro e he
  obtain he | he := List.mem_append.1 he <;> obtain ⟨x, -, rfl⟩ := List.mem_map.1 he <;> exact reachEntryBytes_length _ _

theorem State.callEntries_size : ∀ e ∈ s.callEntries, e.length = 11 := by
  intro e he
  obtain ⟨n, -, hn⟩ := List.mem_filterMap.1 he
  obtain ⟨c, -, rfl⟩ := Option.map_eq_some_iff.1 hn
  exact s.callBytes_length n c

theorem State.waitEntries_size : ∀ e ∈ s.waitEntries, e.length = 2 := by
  intro e he
  obtain ⟨n, -, hn⟩ := List.mem_filterMap.1 he
  obtain ⟨c, -, rfl⟩ := Option.map_eq_some_iff.1 hn
  rfl

theorem State.signEntries_size : ∀ e ∈ s.signEntries, e.length = 19 := by
  intro e he
  obtain ⟨c, -, rfl⟩ := List.mem_map.1 he
  exact c.bytes_length

theorem State.callEntries_length : s.callEntries.length ≤ 8 := List.length_filterMap_le _ allCalls

theorem State.linePart_eq : addItems (s.nstaHead 1) 1 s.nstaLine =
    cutItem (plainItems (s.nstaHead 1) 1 s.lineValues) 9 6 s.lineEntries := by
  have hlen := s.linePart_length
  have hadd := addItems_plain (s.nstaHead 1) 1 s.lineValues [.listing 6 s.lineEntries] (by omega)
  exact hadd.trans (addItems_listing_last (by omega) (by omega))

theorem State.timePart_eq : addItems (s.nstaHead 2) 1 s.nstaTime = plainItems (s.nstaHead 2) 1 s.timeValues := by
  have hlen := s.timePart_length
  have hadd := addItems_plain (s.nstaHead 2) 1 s.timeValues [] (by omega)
  rw [addItems] at hadd
  exact hadd

theorem State.tollPart_eq : addItems (s.nstaHead 3) 1 s.nstaToll = plainItems (s.nstaHead 3) 1 s.tollValues := by
  have hadd := addItems_plain (s.nstaHead 3) 1 s.tollValues [] s.tollPart_length
  rw [addItems] at hadd
  rw [State.nstaToll, State.terminusItem_plain, State.terminusItem_plain]
  exact hadd

/-- Part 4 up to the call entries. -/
def State.callPart : List Byte := cutItem (plainItems (s.nstaHead 4) 1 s.callValues) 3 11 s.callEntries

theorem State.callPart_fits : s.callPart.length ≤ 117 := by
  have hlen := s.callPart_length
  have hcalls := s.callEntries_length
  have htake := List.length_take_le' ((256 - (plainItems (s.nstaHead 4) 1 s.callValues).length - 4) / 11) s.callEntries
  rw [State.callPart, cutItem_length s.callEntries_size]
  omega

theorem State.callPart_eq : addItems (s.nstaHead 4) 1 s.nstaCalls =
    if s.isTerminus then cutItem s.callPart 4 2 s.waitEntries else s.callPart ++ [4, 0] := by
  have hlen := s.callPart_length
  have hcalls := s.callEntries_length
  have hfits := s.callPart_fits
  have hadd := addItems_plain (s.nstaHead 4) 1 s.callValues
    [.listing 11 s.callEntries, s.terminusItem (.listing 2 s.waitEntries)] (by omega)
  have hlist := addItems_listing_fits (p := plainItems (s.nstaHead 4) 1 s.callValues) (number := 3) (l := s.callEntries)
    (show 0 < 11 by omega) (by omega) [s.terminusItem (.listing 2 s.waitEntries)]
  have hparts : addItems (s.nstaHead 4) 1 s.nstaCalls = addItems s.callPart 4 [s.terminusItem (.listing 2 s.waitEntries)] := by
    rw [State.nstaCalls, State.terminusItem_plain]
    exact hadd.trans hlist
  rw [hparts, State.terminusItem]
  split
  · exact addItems_listing_last (by omega) (by omega)
  · rw [addItems, if_pos (by simp; omega), addItems]
    simp

theorem State.signPart_eq : addItems (s.nstaHead 5) 1 s.nstaSign =
    cutItem (plainItems (s.nstaHead 5) 1 s.signValues) 9 19 s.signEntries := by
  have hlen := s.signPart_length
  have hadd := addItems_plain (s.nstaHead 5) 1 s.signValues [.listing 19 s.signEntries] (by omega)
  exact hadd.trans (addItems_listing_last (by omega) (by omega))

/-- The five parts, by their values. -/
theorem State.nstaParts_eq : s.nstaParts =
    [cutItem (plainItems (s.nstaHead 1) 1 s.lineValues) 9 6 s.lineEntries, plainItems (s.nstaHead 2) 1 s.timeValues,
      plainItems (s.nstaHead 3) 1 s.tollValues,
      if s.isTerminus then cutItem s.callPart 4 2 s.waitEntries else s.callPart ++ [4, 0],
      cutItem (plainItems (s.nstaHead 5) 1 s.signValues) 9 19 s.signEntries] := by
  rw [State.nstaParts, s.linePart_eq, s.timePart_eq, s.tollPart_eq, s.callPart_eq, s.signPart_eq]

/-- Every part is within 256 payload bytes. -/
theorem State.nstaParts_length : ∀ part ∈ s.nstaParts, part.length ≤ 256 := by
  have hline := s.linePart_length
  have htime := s.timePart_length
  have hcalls := s.callPart_fits
  have hsign := s.signPart_length
  rw [s.nstaParts_eq]
  intro part hp
  simp only [List.mem_cons, List.not_mem_nil, or_false] at hp
  obtain rfl | rfl | rfl | rfl | rfl := hp
  · exact cutItem_le s.lineEntries_size (by omega)
  · omega
  · exact s.tollPart_length
  · split
    · exact cutItem_le s.waitEntries_size (by omega)
    · simp
      omega
  · exact cutItem_le s.signEntries_size (by omega)

end Values

end Sys2Proof.Machine
end

section
/-! SUPPORT. The node status report: its values and the way it is sent (R197, R198, 12.3). -/

namespace Sys2Proof.Machine

/-! ### Sending by the terminus choice (R198) -/

section Send
variable (s : State)

/-- A part offered on a port, lost unless it is taken. -/
theorem State.offerPart_eq (p : PortId) (u : State) (x : List Byte) : State.offerPart p u x =
    if (u.port p).offerAnswer (u.ownFrame .nsta 255 241 x) = .taken then u.offer p (u.ownFrame .nsta 255 241 x)
    else (u.offer p (u.ownFrame .nsta 255 241 x)).countStatusLost 1 := by
  unfold State.offerPart
  dsimp only
  cases (u.port p).offerAnswer (u.ownFrame .nsta 255 241 x) <;> rfl

variable (parts : List (List Byte))

theorem State.sendParts_none (h : s.terminusChoice = .none) : s.sendParts parts = s.countStatusLost 5 := by
  simp only [State.sendParts, h]

theorem State.sendParts_self (h : s.terminusChoice = .self) : s.sendParts parts =
    parts.foldl (fun (u : State) x => u.placeOrDrop ⟨0x88, BitVec.ofNat 8 s.cfg.number :: x⟩) s := by
  simp only [State.sendParts, h]
  refine foldl_eq_of_inv (P := fun u => u.cfg = s.cfg) (fun u x hu => ⟨?_, ?_⟩) parts s rfl
  · rw [hu]
    rfl
  · exact (u.placeOrDrop_item _ (part := .cfg) (by decide)).trans hu

theorem State.sendParts_terminus {n h : Nat} {p : PortId} (hc : s.terminusChoice = .terminus n p h) : s.sendParts parts =
    parts.foldl (fun (u : State) x =>
      if (u.port p).offerAnswer (s.ownFrame .nsta 255 241 x) = .taken then u.offer p (s.ownFrame .nsta 255 241 x)
      else (u.offer p (s.ownFrame .nsta 255 241 x)).countStatusLost 1) s := by
  simp only [State.sendParts, hc]
  refine foldl_eq_of_inv (P := fun u => u.cfg = s.cfg) (fun u x hu => ?_) parts s rfl
  have hframe : u.ownFrame .nsta 255 241 x = s.ownFrame .nsta 255 241 x := by rw [State.ownFrame, hu]; rfl
  have heq := State.offerPart_eq p u x
  rw [hframe] at heq
  have hcfg : (State.offerPart p u x).cfg = u.cfg := State.offerPart_item p u x (part := .cfg) (by decide)
  rw [heq] at hcfg
  exact ⟨heq, hcfg.trans hu⟩

/-- The status timer's expiry, where it runs. -/
theorem exec_statusTimerExpiry (h : s.equip.statusTimer ≠ none) : exec .statusTimerExpiry s = .next
    { s.sendNsta with equip := { s.sendNsta.equip with statusTimer := some ⟨s.refTime, s.cfg.nodeInterval * 1000000⟩ } } := by
  have hcfg : s.sendNsta.cfg = s.cfg := s.sendNsta_item (part := .cfg) (by decide)
  have href : s.sendNsta.refTime = s.refTime := s.sendNsta_item (part := .refTime) (by decide)
  have htimer : s.sendNsta.statusTimerAnew = some ⟨s.refTime, s.cfg.nodeInterval * 1000000⟩ := by
    rw [State.statusTimerAnew, State.startTimer, hcfg, href]
  rw [← htimer]
  exact congrArg Host.Outcome.next (if_pos (Option.isSome_iff_ne_none.2 h))

end Send

/-! ### Values in the form of the report (12.3) -/

theorem cons_congr {α : Type} {a b : α} {l m : List α} (h : a = b) (h' : l = m) : a :: l = b :: m := by rw [h, h']

section Values
variable (s : State)

theorem State.neighbourSilent_eq (p : PortId) : s.neighbourSilent p =
    decide ((s.port p).state = .lit ∧ ∀ e ∈ s.reach.part p, e.hops ≠ 1) := by
  rw [Bool.eq_iff_iff]
  simp [State.neighbourSilent]

theorem State.sectorCount_byte (st : SectorState) : BitVec.ofNat 8 (s.sectorCount st) =
    if s.cfg.services.toll then BitVec.ofNat 8 ((List.range 63).filter fun n => (s.spool.sector n).state == st).length else 0 := by
  unfold State.sectorCount
  split <;> rfl

theorem State.activeEraseMs_eq (e : EraseRun) : s.activeEraseMs e =
    (e.gathered + if e.phase = .active then s.refTime - e.since else 0) * 1000 /
      (if s.cfg.reference = .mhz25 then 25000000 else 19440000) := by
  rw [State.activeEraseMs, State.activeErasePeriods]
  cases s.cfg.reference <;> rfl

end Values

/-- Settles O53: the five parts by their values, their lengths, and the report's way by the terminus choice. -/
theorem nodeReportsGoInFiveParts : Obligations.NodeReportsGoInFiveParts := by
  unfold Obligations.NodeReportsGoInFiveParts
  intro s t f lost anew
  have hchoice : t.terminusChoice = s.terminusChoice := rfl
  refine ⟨fun h => congrArg Host.Outcome.next (if_neg (by simp [h])), fun h => ?_, s.nstaParts_length, ?_⟩
  · have hrun {u : State} (hu : s.sendNsta = u) : exec .statusTimerExpiry s = .next (anew u) := by
      subst hu
      exact exec_statusTimerExpiry s h
    exact ⟨fun hc => hrun (t.sendParts_none s.nstaParts (hchoice.trans hc)),
      fun hc => hrun (t.sendParts_self s.nstaParts (hchoice.trans hc)),
      fun n p h hc => hrun (t.sendParts_terminus s.nstaParts (hchoice.trans hc))⟩
  · intro byte flag two counts time maybe pos side who head part listed terminus port line silent seen lines word pulse rule sectors
      near call page
    have hpart (k : Nat) (vs : List (List Byte)) : plainItems (s.nstaHead k) 1 vs = part k vs := rfl
    have hlisted {p : List Byte} {number size : Nat} {l : List (List Byte)} (hl : ∀ e ∈ l, e.length = size) :
        cutItem p number size l = listed p number size l := cutItem_eq hl
    have hside (q : Option PortId) : BitVec.ofNat 8 (portCode q) = side q := by
      cases q with
      | none => rfl
      | some p => cases p <;> rfl
    have hmaybe (x : Option LTime) : optLTBytes x = maybe x := by cases x <;> rfl
    have hwho (c : Option Claimant) : claimantBytes c = who c := claimantBytes_eq c
    have hterm (v : List Byte) : s.terminusValue v = if terminus then v else [] := rfl
    have hrole (r : Role) : BitVec.ofNat 8 (roleCode r) = byte (match r with
        | .roadside => 1
        | .terminus => 2) := by cases r <;> rfl
    have hcounts1 (c : Counter) : bytesCounter c = counts [c] := (List.append_nil _).symm
    rw [s.nstaParts_eq, hpart, hpart, hpart, hpart, hlisted s.lineEntries_size, hlisted s.signEntries_size]
    refine cons_congr ?_ (cons_congr ?_ (cons_congr ?_ (cons_congr ?_ (cons_congr ?_ rfl))))
    · have hchoose (c : TermChoice) : c.bytes = match c with
          | .none => [0, 0, 0, 0]
          | .terminus n p h => [1, byte n, side (some p), byte h]
          | .self => [2, 0, 0, 0] := by
        cases c with
        | terminus n p h => rw [TermChoice.bytes, hside]
        | none | self => rfl
      have hseen (p : PortId) (e : ReachEntry) : reachEntryBytes p e = seen p e := by
        rw [reachEntryBytes, hside]
        cases h : e.role <;> simp only [seen, h] <;> rfl
      refine congrArg₂ (fun v l => listed (part 1 v) 9 6 l) ?_ ?_
      · rw [State.lineValues, s.neighbourSilent_eq, s.neighbourSilent_eq]
        exact cons_congr rfl (cons_congr rfl (cons_congr rfl (cons_congr rfl (cons_congr rfl (cons_congr rfl
          (cons_congr (hchoose _) (cons_congr (hcounts1 _) rfl)))))))
      · rw [State.lineEntries, funext (hseen .east), funext (hseen .west)]
    · have hrule (n : Fin 8) : s.ruleBytes n = rule n := by
        have hstate (x : RuleState) : ruleStateBytes (s.rule n) x = if (s.rule n).kind = 0 then [0, 0] else match x with
            | .clear => [1, 0]
            | .pending k => [2, byte k]
            | .raised => [3, 0]
            | .clearing k => [4, byte k] := by
          cases x <;> rfl
        exact hstate _
      have hfour (a b c d : Counter) : bytesCounter a ++ bytesCounter b ++ bytesCounter c ++ bytesCounter d = counts [a, b, c, d] := by
        simp [counts, bytesCounter, two]
      refine congrArg (part 2) ?_
      rw [State.timeValues, funext hrule]
      exact cons_congr rfl (cons_congr rfl (cons_congr rfl (cons_congr rfl (cons_congr (hcounts1 _) (cons_congr rfl
        (cons_congr rfl (cons_congr rfl (cons_congr rfl (cons_congr rfl (cons_congr (hfour ..) rfl))))))))))
    · have hempty : BitVec.ofNat 8 s.spool.emptyInFilling = match s.spool.filling with
          | none => 0
          | some n => byte (32 - (s.spool.slots.filter fun x => x.1 / 32 == n).length) := by
        unfold Spool.emptyInFilling
        cases s.spool.filling <;> rfl
      have hbatch : s.spool.batchBytes = match s.spool.batch with
          | none => [0, 0]
          | some b => [if b.closed then 2 else 1, byte b.sectors.length] := by
        unfold Spool.batchBytes
        cases s.spool.batch <;> rfl
      have herase : s.eraseBytes = match s.spool.erase with
          | none => [0, 0, 0]
          | some e => (match e.phase with
            | .active => 1
            | .suspending => 2
            | .suspended => 3) :: two (min 65535
              ((e.gathered + if e.phase = .active then s.refTime - e.since else 0) * 1000 /
                (if s.cfg.reference = .mhz25 then 25000000 else 19440000))) := by
        unfold State.eraseBytes
        cases s.spool.erase with
        | none => rfl
        | some e => exact cons_congr (by cases e.phase <;> rfl) (congrArg (fun n => bytesBE 2 (min 65535 n)) (s.activeEraseMs_eq e))
      have hsteer (r : Route) : r.bytes = match r with
          | .none => [0, 0, 0]
          | .via n p => [1, byte n, side (some p)]
          | .self => [2, 0, 0] := by
        cases r with
        | via n p => rw [Route.bytes, hside]
        | none | self => rfl
      have hfirst : s.firstEntryBytes = match s.sending.window with
          | [] => []
          | e :: _ => pos e.pos ++
            if e.sent then time e.sendLT ++ two (min 65535 (s.elapsedUs e.sentAt / 1000)) else List.replicate 8 0 := by
        unfold State.firstEntryBytes
        cases s.sending.window <;> rfl
      have holdest : (s.spool.oldestFilled.map bytesPos).getD [] = match s.spool.oldestFilled with
          | none => []
          | some b => pos b := by
        cases s.spool.oldestFilled <;> rfl
      have hsectors : ([SectorState.empty, .filling, .full, .reclaim, .erasing, .bad].map fun st => BitVec.ofNat 8 (s.sectorCount st)) =
          [sectors .empty, sectors .filling, sectors .full, sectors .reclaim, sectors .erasing, sectors .bad] := by
        rw [funext s.sectorCount_byte]
        rfl
      have hfour (a b c d : Counter) : bytesCounter a ++ bytesCounter b ++ bytesCounter c ++ bytesCounter d = counts [a, b, c, d] := by
        simp [counts, bytesCounter, two]
      refine congrArg (part 3) ?_
      exact cons_congr rfl (cons_congr rfl (cons_congr rfl (cons_congr rfl (cons_congr rfl (cons_congr (congrArg (fun b => [b]) hempty)
        (cons_congr hsectors (cons_congr rfl (cons_congr rfl (cons_congr hbatch (cons_congr herase (cons_congr (hfour ..)
        (cons_congr (hsteer _) (cons_congr rfl (cons_congr hfirst (cons_congr holdest (cons_congr rfl (cons_congr (hterm _)
        (cons_congr (hterm _) rfl))))))))))))))))))
    · have hcallPart : s.callPart = listed (part 4 s.callValues) 3 11 s.callEntries := hlisted s.callEntries_size
      have hnear (c : CallEntry) : BitVec.ofNat 8 (phoneCode c.phonePort) = near c := by
        have hend (x : NearEnd) : BitVec.ofNat 8 (phoneCode (match x with
            | .phone ph => some ph
            | .console => none)) = match x with
            | .console => 0
            | .phone .phoneA => 1
            | .phone .phoneB => 2 := by
          cases x with
          | console => rfl
          | phone ph => cases ph <;> rfl
        exact hend c.near
      have hcall (e : Fin 8) (c : CallEntry) : s.callBytes e c = call e c := by
        rw [State.callBytes, hnear, hside, hcounts1]
        rfl
      have hchannels : s.callValues = [counts [s.calls.voiceLate, s.calls.voiceOverflow, s.calls.consoleDrop,
          s.calls.signallingDrop], if terminus then [byte s.cfg.consoleChannels] else []] := rfl
      have hcalls : s.callPart = listed (part 4 [counts [s.calls.voiceLate, s.calls.voiceOverflow, s.calls.consoleDrop,
          s.calls.signallingDrop], if terminus then [byte s.cfg.consoleChannels] else []]) 3 11
          (([0, 1, 2, 3, 4, 5, 6, 7] : List (Fin 8)).filterMap fun e => (s.call e).map (call e)) := by
        have hentries : s.callEntries = ([0, 1, 2, 3, 4, 5, 6, 7] : List (Fin 8)).filterMap fun e => (s.call e).map (call e) := by
          rw [State.callEntries, funext fun e => congrArg (fun g => (s.call e).map g) (funext (hcall e))]
          rfl
        rw [hcallPart, hchannels, hentries]
      rw [hlisted s.waitEntries_size, hcalls]
      rfl
    · have hpage (r : PageRecord) : r.bytes = page r := by
        rw [PageRecord.bytes, hmaybe]
        rfl
      have hclaim (c : Claim) : c.bytes = who (some c.claimant) ++ [byte c.page, byte c.priority] ++ maybe c.expiry ++
          maybe c.showAt := by
        rw [Claim.bytes, hmaybe, hmaybe, hwho]
      have hsix : s.equip.fiveCounters ++ bytesCounter s.equip.statusLost = counts [s.equip.badMessage, s.equip.notReady,
          s.equip.misdirected, s.equip.outboundDrop, s.equip.sendSignLost, s.equip.statusLost] := by
        simp [Equip.fiveCounters, counts, bytesCounter, two]
      have hbright (m : BrightnessMode) : brightnessCode m = match m with
          | .fixed => 1
          | .mapped => 2 := by cases m <;> rfl
      refine congrArg₂ (fun v l => listed (part 5 v) 9 19 l) ?_ ?_
      · rw [State.signValues, funext hpage, hwho]
        exact cons_congr rfl (cons_congr rfl (cons_congr rfl (cons_congr (cons_congr s.display.pageByte_eq rfl)
          (cons_congr (congrArg (fun b => [byte s.display.requested, byte s.display.applied, b]) (hbright _))
          (cons_congr rfl (cons_congr rfl (cons_congr hsix rfl)))))))
      · rw [State.signEntries, funext hclaim]

end Sys2Proof.Machine
end

section
/-! SUPPORT. The configuration image: accepted or rejected, and the state that goes on to SCANNING (R44, R61, R199, R201). -/

namespace Sys2Proof.Machine

/-! ### The checks of an image (R199) -/

/-- An image that is accepted. -/
def ImageSound (img : List Byte) : Prop :=
  3 ≤ field img 0 2 ∧ field img 0 2 + 4 ≤ 4096 ∧ field img 0 2 + 4 ≤ img.length ∧
    (img.drop (field img 0 2 + 2)).take 2 = bytesBE 2 (crc16 (img.take (field img 0 2 + 2))).toNat ∧
    1 ≤ field img 2 1 ∧ field img 2 1 ≤ 240 ∧ (field img 3 1 = 1 ∨ field img 3 1 = 2)

theorem roleOf_eq_none {n : Nat} (h : ¬ (n = 1 ∨ n = 2)) : roleOf n = none := by
  unfold roleOf
  split <;> simp_all

/-- The role that an accepted image names. -/
def imageRole (img : List Byte) : Role := if field img 3 1 = 1 then .roadside else .terminus

theorem parseImage_sound {img : List Byte} (h : ImageSound img) :
    parseImage img = some (configOf img (field img 0 2) (field img 2 1) (imageRole img)) := by
  obtain ⟨hmin, hmax, hlen, hcrc, hnum, hnum', hrole⟩ := h
  have hof : roleOf (field img 3 1) = some (imageRole img) := by
    unfold imageRole
    obtain hr | hr := hrole <;> simp [hr, roleOf]
  have h1 : ¬ (field img 0 2 < 3 ∨ 4092 < field img 0 2 ∨ img.length < field img 0 2 + 4) := by omega
  have h2 : ¬ bytesBE 2 (crc16 (img.take (field img 0 2 + 2))).toNat ≠ (img.drop (field img 0 2 + 2)).take 2 := not_not.2 hcrc.symm
  have h3 : ¬ (field img 2 1 = 0 ∨ 240 < field img 2 1) := by omega
  refine ((if_neg h1).trans ((if_neg h2).trans (if_neg h3))).trans ?_
  rw [hof]
  rfl

theorem parseImage_unsound {img : List Byte} (h : ¬ ImageSound img) : parseImage img = none := by
  by_cases h1 : field img 0 2 < 3 ∨ 4092 < field img 0 2 ∨ img.length < field img 0 2 + 4
  · exact if_pos h1
  by_cases h2 : bytesBE 2 (crc16 (img.take (field img 0 2 + 2))).toNat ≠ (img.drop (field img 0 2 + 2)).take 2
  · exact (if_neg h1).trans (if_pos h2)
  by_cases h3 : field img 2 1 = 0 ∨ 240 < field img 2 1
  · exact (if_neg h1).trans ((if_neg h2).trans (if_pos h3))
  refine ((if_neg h1).trans ((if_neg h2).trans (if_neg h3))).trans ?_
  rw [roleOf_eq_none, Option.map_none]
  intro hrole
  exact h ⟨by omega, by omega, by omega, (not_not.1 h2).symm, by omega, by omega, hrole⟩

/-- An accepted image is sound, and its values are the image's. -/
theorem parseImage_some {img : List Byte} {c : Config} (h : parseImage img = some c) :
    ImageSound img ∧ c = configOf img (field img 0 2) (field img 2 1) (imageRole img) := by
  have hs : ImageSound img := by
    by_contra hn
    rw [parseImage_unsound hn] at h
    cases h
  exact ⟨hs, Option.some.inj (h.symm.trans (parseImage_sound hs))⟩

/-! ### K (R44) -/

theorem rateOf_nearest {hz : Nat} {trim : Int} (hz' : hz = 25000000 ∨ hz = 19440000) (h : -200 ≤ trim) (h' : trim ≤ 200) :
    let d : Int := hz * (1000000 + trim)
    let n : Int := 2 ^ 32 * 10 ^ 12
    2 * n < 2 * d * (rateOf hz trim).toNat + d ∧ 2 * d * (rateOf hz trim).toNat ≤ 2 * n + d := by
  intro d n
  obtain ⟨m, hm⟩ : ∃ m : Nat, 1000000 + trim = m := ⟨(1000000 + trim).toNat, by omega⟩
  let e : Nat := hz * m
  let N : Nat := 2 ^ 32 * 1000000000000
  have hd : d = e := by simp only [d, e, hm]; push_cast; rfl
  have hn : n = N := by norm_num [n, N]
  have he : 19000000000000 ≤ e := by
    obtain rfl | rfl := hz' <;> simp only [e] <;> omega
  have hlt : (2 * N + e) / (2 * e) < 2 ^ 32 := by
    rw [Nat.div_lt_iff_lt_mul (by omega)]
    simp only [N]
    omega
  have hK : (rateOf hz trim).toNat = (2 * N + e) / (2 * e) := by
    rw [rateOf, hm, Int.toNat_natCast, BitVec.toNat_ofNat]
    exact Nat.mod_eq_of_lt hlt
  have hlow := Nat.mul_div_le (2 * N + e) (2 * e)
  have hhigh := Nat.lt_mul_div_succ (2 * N + e) (show 0 < 2 * e by omega)
  rw [Nat.mul_add] at hhigh
  rw [hd, hn, hK]
  constructor
  · have : 2 * N < 2 * e * ((2 * N + e) / (2 * e)) + e := by omega
    exact_mod_cast this
  · exact_mod_cast hlow

/-! ### Levels sampled (R61) -/

theorem Inputs.pulses_setLine (i : Inputs) (l : LevelLine) (v : LevelState) : (i.setLine l v).pulses = i.pulses := by
  cases l <;> rfl

/-- A level line sampled: its filtered level its pin's, no wait. -/
def Inputs.sampleLine (i : Inputs) (l : LevelLine) : Inputs :=
  i.setLine l { i.line l with filtered := (i.line l).pin, wait := none }

/-- All level lines sampled. -/
def Inputs.sample (i : Inputs) : Inputs := allLines.foldl Inputs.sampleLine i

theorem Inputs.sampleLine_line (i : Inputs) (l m : LevelLine) : (i.sampleLine l).line m =
    if m = l then ⟨(i.line m).pin, (i.line m).pin, none⟩ else i.line m := by
  by_cases hm : m = l
  · subst hm
    rw [if_pos rfl, Inputs.sampleLine, Inputs.line_setLine]
  · rw [if_neg hm, Inputs.sampleLine, Inputs.line_setLine_ne _ _ hm]

theorem Inputs.sample_foldl (l : List LevelLine) (i : Inputs) :
    (∀ m, (l.foldl Inputs.sampleLine i).line m = if m ∈ l then ⟨(i.line m).pin, (i.line m).pin, none⟩ else i.line m) ∧
    (l.foldl Inputs.sampleLine i).pulses = i.pulses := by
  induction l generalizing i with
  | nil => simp
  | cons a l ih =>
    obtain ⟨hline, hpulses⟩ := ih (i.sampleLine a)
    refine ⟨fun m => ?_, hpulses.trans (i.pulses_setLine a _)⟩
    rw [List.foldl_cons, hline, Inputs.sampleLine_line]
    by_cases hm : m = a
    · simp [hm]
    · simp [hm]

theorem mem_allLines (l : LevelLine) : l ∈ allLines := by
  cases l with
  | contact c => fin_cases c <;> decide
  | hookA | hookB | powerWarn => decide

theorem Inputs.sample_line (i : Inputs) (l : LevelLine) : i.sample.line l = ⟨(i.line l).pin, (i.line l).pin, none⟩ :=
  ((Inputs.sample_foldl allLines i).1 l).trans (if_pos (mem_allLines l))

theorem Inputs.sample_pulses (i : Inputs) : i.sample.pulses = i.pulses := (Inputs.sample_foldl allLines i).2

theorem State.sampleLines_eq (s : State) : s.sampleLines = { s with inputs := s.inputs.sample } := by
  have h (l : List LevelLine) (s : State) : l.foldl (fun (t : State) (l : LevelLine) =>
      t.setLine l { t.inputs.line l with filtered := (t.inputs.line l).pin, wait := none }) s =
      { s with inputs := l.foldl Inputs.sampleLine s.inputs } := by
    induction l generalizing s with
    | nil => rfl
    | cons a l ih => exact ih _
  exact h allLines s

/-! ### The node goes on (R199, R201) -/

/-- The state that an accepted image begins the scan in; without TOLL the node goes on from it to RUNNING. -/
def State.accepted (s : State) (c : Config) : State :=
  { s with
    node := .scanning, cfg := c, loadTimer := none
    time := { s.time with k := some (rateOf (referenceHz c.reference) c.trim) }
    inputs := s.inputs.sample
    reach := { s.reach with east := removeNode c.number s.reach.east, west := removeNode c.number s.reach.west }
    spool := { s.spool with scanReading := c.services.toll || s.spool.scanReading } }

section Accepted
variable {s : State} {c : Config}

theorem State.enterScanning_eq : s.enterScanning c = if c.services.toll then s.accepted c else (s.accepted c).enterRunning := by
  rw [State.enterScanning, State.sampleLines_eq]
  by_cases ht : c.services.toll = true
  · rw [if_pos ht, if_pos ht, State.accepted, ht, Bool.true_or]
    rfl
  · rw [if_neg ht, if_neg ht, State.accepted, Bool.eq_false_iff.2 ht, Bool.false_or]
    rfl

theorem State.accepted_sameBut (s : State) (c : Config) :
    SameBut [.node, .cfg, .loadTimer, .time, .inputs, .reach, .spool] s (s.accepted c) := by
  intro part hp
  cases part with
  | node | cfg | loadTimer | time | inputs | reach | spool => simp at hp
  | _ => rfl

theorem State.imageRead_other (h : s.node ≠ .loading) (image : Option (List Byte)) : s.imageRead image = s := if_neg h

variable (h : s.node = .loading)
include h

theorem State.imageRead_none {image : Option (List Byte)} (hi : image.bind parseImage = none) :
    s.imageRead image = s.enterRepeaterOnly := by
  simp only [State.imageRead, hi]
  exact if_pos h

theorem State.imageRead_some {image : Option (List Byte)} (hi : image.bind parseImage = some c) :
    s.imageRead image = s.enterScanning c := by
  simp only [State.imageRead, hi]
  exact if_pos h

end Accepted

end Sys2Proof.Machine
end

section
/-! SUPPORT. The values of an accepted image (R200, 12.5). -/

namespace Sys2Proof.Machine

/-! ### Fields with their treatment and default (R200) -/

theorem imageHas_iff (len off n : Nat) : imageHas len off n = true ↔ off + n ≤ len + 2 := by
  simp [imageHas, Nat.add_comm 2]

theorem imageNat_present {img : List Byte} {len off n dflt : Nat} {f : Nat → Nat} (h : off + n ≤ len + 2) :
    imageNat img len off n dflt f = f (field img off n) := by
  rw [imageNat, imageField, if_pos (by omega)]
  rfl

theorem imageNat_absent {img : List Byte} {len off n dflt : Nat} {f : Nat → Nat} (h : ¬ off + n ≤ len + 2) :
    imageNat img len off n dflt f = dflt := by
  rw [imageNat, imageField, if_neg (by omega)]
  rfl

/-- A field of a group of bytes is the image's field there. -/
theorem field_group (img : List Byte) {a n o m : Nat} (h : o + m ≤ n) :
    field ((img.drop a).take n) o m = field img (a + o) m := by
  rw [field, field, List.drop_take, List.take_take, List.drop_drop, min_eq_left (by omega)]

theorem byteAt_group (img : List Byte) {a n o : Nat} (h : o < n) : byteAt ((img.drop a).take n) o = byteAt img (a + o) := by
  simp [byteAt, h]

/-- A 16-bit field as two's complement. -/
theorem signed16_field (img : List Byte) (o : Nat) : signed16 (field img o 2) =
    if field img o 2 < 32768 then (field img o 2 : Int) else (field img o 2 : Int) - 65536 := by
  have hlt := field_lt img o 2
  rw [signed16, BitVec.toInt_eq_toNat_cond, BitVec.toNat_ofNat, Nat.mod_eq_of_lt (by omega)]
  split <;> split <;> omega

theorem signed16_ge (n : Nat) : -32768 ≤ signed16 n := by
  have := BitVec.le_toInt (BitVec.ofNat 16 n)
  simpa [signed16] using this

/-- A field of the image, raised or lowered to its range, or its default when absent. -/
theorem imageNat_range (img : List Byte) {len off n dflt lo hi v : Nat} {f : Nat → Nat}
    (hv : v = imageNat img len off n dflt f) (hf : f (field img off n) = max lo (min hi (field img off n))) :
    (off + n ≤ len + 2 → v = max lo (min hi (field img off n))) ∧ (¬ off + n ≤ len + 2 → v = dflt) :=
  ⟨fun h => hv.trans ((imageNat_present h).trans hf), fun h => hv.trans (imageNat_absent h)⟩

/-! ### The rows of the tables (R143, R167, R178, R180) -/

/-- A row's place in a table of an image. -/
theorem getElem?_rows {α : Type} {f : Nat → α} {n i : Nat} {r : α} (h : ((List.range n).map f)[i]? = some r) : i < n ∧ r = f i := by
  rw [List.getElem?_map, Option.map_eq_some_iff] at h
  obtain ⟨j, hj, rfl⟩ := h
  obtain ⟨hi, rfl⟩ := List.getElem?_eq_some_iff.1 hj
  simp only [List.length_range] at hi
  simp [hi]

section Rule
variable (r : List Byte)

/-- The source of a weather rule's bytes. -/
theorem ruleOf_source : (ruleOf r).source = if field r 1 1 = 2 then .rain
    else if field r 1 1 = 3 then .channel (Fin.ofNat 8 (min 7 (field r 2 1)))
    else if field r 1 1 = 4 then .contacts ((byteAt r 2).setWidth 6) else .wind := by
  have hfin : (⟨min 7 (field r 2 1), by omega⟩ : Fin 8) = Fin.ofNat 8 (min 7 (field r 2 1)) := by
    apply Fin.ext
    simp [Fin.ofNat]
    omega
  unfold ruleOf
  dsimp only
  split
  next h => simp [h]
  next h => rw [h, hfin]; simp
  next h => simp [h]
  next h2 h3 h4 => rw [if_neg h2, if_neg h3, if_neg h4]

/-- The thresholds of a rule of a pulse channel are numbers of the manual's unit; those of another source are signed. -/
theorem ruleOf_thresholds :
    ((ruleOf r).source = .wind ∨ (ruleOf r).source = .rain →
      (ruleOf r).raiseAt = (field r 4 2 : Int) ∧ (ruleOf r).clearAt = (field r 6 2 : Int)) ∧
    (∀ c, (ruleOf r).source = .channel c →
      (ruleOf r).raiseAt = signed16 (field r 4 2) ∧ (ruleOf r).clearAt = signed16 (field r 6 2)) := by
  have hat (n : Nat) (src : RuleSource) : (src = .wind ∨ src = .rain → (match src with
      | .wind | .rain => (n : Int)
      | _ => signed16 n) = (n : Int)) ∧ (∀ c, src = .channel c → (match src with
      | .wind | .rain => (n : Int)
      | _ => signed16 n) = signed16 n) := by
    cases src <;> simp
  exact ⟨fun h => ⟨(hat _ _).1 h, (hat _ _).1 h⟩, fun c h => ⟨(hat _ _).2 c h, (hat _ _).2 c h⟩⟩

theorem ruleOf_pulse (h3 : field r 1 1 ≠ 3) (h4 : field r 1 1 ≠ 4) :
    (ruleOf r).raiseAt = (field r 4 2 : Int) ∧ (ruleOf r).clearAt = (field r 6 2 : Int) := by
  refine (ruleOf_thresholds r).1 ?_
  rw [ruleOf_source, if_neg h3, if_neg h4]
  split
  · exact .inr rfl
  · exact .inl rfl

theorem ruleOf_channel (h3 : field r 1 1 = 3) :
    (ruleOf r).raiseAt = signed16 (field r 4 2) ∧ (ruleOf r).clearAt = signed16 (field r 6 2) := by
  refine (ruleOf_thresholds r).2 (Fin.ofNat 8 (min 7 (field r 2 1))) ?_
  rw [ruleOf_source, if_neg (by omega), if_pos h3]

theorem ruleOf_persistence : (ruleOf r).persistence = if field r 1 1 = 4 then 1 else clamp 1 15 (field r 8 1) := by
  have hof (n : Nat) (src : RuleSource) : ((∃ m, src = .contacts m) → (match src with
      | .contacts _ => 1
      | _ => n) = 1) ∧ ((∀ m, src ≠ .contacts m) → (match src with
      | .contacts _ => 1
      | _ => n) = n) := by
    cases src <;> simp
  by_cases h4 : field r 1 1 = 4
  · rw [if_pos h4]
    refine (hof (clamp 1 15 (field r 8 1)) (ruleOf r).source).1 ⟨(byteAt r 2).setWidth 6, ?_⟩
    rw [ruleOf_source, if_neg (by omega), if_neg (by omega), if_pos h4]
  · rw [if_neg h4]
    refine (hof (clamp 1 15 (field r 8 1)) (ruleOf r).source).2 fun m => ?_
    rw [ruleOf_source, if_neg h4]
    split
    · simp
    · split <;> simp

theorem ruleOf_claim : (ruleOf r).claim = if field r 13 1 = 0 then none
    else some (Fin.ofNat 4 (min 3 (field r 14 1)), min 15 (field r 15 1)) := by
  have hfin : (⟨min 3 (field r 14 1), by omega⟩ : Fin 4) = Fin.ofNat 4 (min 3 (field r 14 1)) := by
    apply Fin.ext
    simp [Fin.ofNat]
    omega
  rw [← hfin]
  rfl

end Rule

/-- The taken run length. -/
theorem runLengthOf_eq (n : Nat) : runLengthOf n = if n ≤ 1 then 1 else if n ≤ 3 then 2 else 4 := by
  unfold runLengthOf
  split
  · rfl
  · rfl
  · rfl
  · rfl
  · rename_i h0 h1 h2 h3
    rw [if_neg, if_neg]
    · have : n ≠ 2 := h2
      have : n ≠ 3 := h3
      have : n ≠ 0 := h0
      have : n ≠ 1 := h1
      omega
    · have : n ≠ 0 := h0
      have : n ≠ 1 := h1
      omega

/-! ### The tables, row by row -/

section Tables
variable (img : List Byte) (len number : Nat) (role : Role)

theorem configOf_ranges (i : Nat) (hi : i < 8) : (configOf img len number role).ranges[i]? =
    some (if 41 + 32 ≤ len + 2 then
      (signed16 (field img (41 + 4 * i) 2), max (signed16 (field img (41 + 4 * i) 2)) (signed16 (field img (43 + 4 * i) 2)))
    else (-32768, 32767)) := by
  have hranges : (configOf img len number role).ranges = if imageHas len 41 32 then
      (List.range 8).map fun c => rangeOf ((img.drop (41 + 4 * c)).take 4) else Config.initial.ranges := rfl
  by_cases h : 41 + 32 ≤ len + 2
  · rw [hranges, if_pos ((imageHas_iff ..).2 h), if_pos h, List.getElem?_map, List.getElem?_range hi, Option.map_some, rangeOf,
      field_group img (by omega), field_group img (by omega), show 41 + 4 * i + 2 = 43 + 4 * i by omega]
    rfl
  · rw [hranges, if_neg (mt (imageHas_iff ..).1 h), if_neg h]
    exact List.getElem?_replicate_of_lt hi

theorem configOf_ranges_length : (configOf img len number role).ranges.length = 8 := by
  show (if imageHas len 41 32 then _ else Config.initial.ranges).length = 8
  split
  · simp
  · rfl

/-- A weather rule of the image, or an unused one where the table is absent. -/
theorem configOf_rules {i : Nat} {r : RuleConfig} (h : (configOf img len number role).rules[i]? = some r) :
    (¬ 73 + 128 ≤ len + 2 → r.kind = 0) ∧ (73 + 128 ≤ len + 2 → r = ruleOf ((img.drop (73 + 16 * i)).take 16)) := by
  have hrules : (configOf img len number role).rules = if imageHas len 73 128 then
      (List.range 8).map fun r => ruleOf ((img.drop (73 + 16 * r)).take 16) else Config.initial.rules := rfl
  rw [hrules] at h
  refine ⟨fun hn => ?_, fun hp => ?_⟩
  · rw [if_neg (mt (imageHas_iff ..).1 hn)] at h
    rw [(List.mem_replicate.1 (List.mem_of_getElem? h)).2]
    rfl
  · rw [if_pos ((imageHas_iff ..).2 hp)] at h
    exact (getElem?_rows h).2

theorem configOf_rules_length : (configOf img len number role).rules.length = 8 := by
  show (if imageHas len 73 128 then _ else Config.initial.rules).length = 8
  split
  · simp
  · rfl

theorem configOf_signRules {i : Nat} {r : SignRule} (h : (configOf img len number role).signRules[i]? = some r) :
    (¬ 225 + 64 ≤ len + 2 → r.kind = 0) ∧ (225 + 64 ≤ len + 2 → r = signRuleOf ((img.drop (225 + 4 * i)).take 4)) := by
  have hrules : (configOf img len number role).signRules = if imageHas len 225 64 then
      (List.range 16).map fun i => signRuleOf ((img.drop (225 + 4 * i)).take 4) else Config.initial.signRules := rfl
  rw [hrules] at h
  refine ⟨fun hn => ?_, fun hp => ?_⟩
  · rw [if_neg (mt (imageHas_iff ..).1 hn)] at h
    rw [(List.mem_replicate.1 (List.mem_of_getElem? h)).2]
    rfl
  · rw [if_pos ((imageHas_iff ..).2 hp)] at h
    exact (getElem?_rows h).2

theorem configOf_signRules_length : (configOf img len number role).signRules.length = 16 := by
  show (if imageHas len 225 64 then _ else Config.initial.signRules).length = 16
  split
  · simp
  · rfl

theorem configOf_colours {i : Nat} {r : ColourEntry} (h : (configOf img len number role).colours[i]? = some r) :
    r = if i = 0 then ⟨0, 0⟩ else if 289 + 32 ≤ len + 2 then
      ⟨min 4 (field img (289 + 2 * i) 1), (byteAt img (290 + 2 * i)).setWidth 4⟩ else ⟨1, 1⟩ := by
  have hcolours : (configOf img len number role).colours = if imageHas len 289 32 then
      coloursOf ((img.drop 289).take 32) else absentColourMap := rfl
  rw [hcolours] at h
  by_cases hp : 289 + 32 ≤ len + 2
  · rw [if_pos ((imageHas_iff ..).2 hp)] at h
    obtain ⟨hi, rfl⟩ := getElem?_rows h
    rw [if_pos hp, field_group img (by omega), byteAt_group img (by omega), show 289 + (2 * i + 1) = 290 + 2 * i by omega]
  · rw [if_neg (mt (imageHas_iff ..).1 hp)] at h
    rw [if_neg hp]
    cases i with
    | zero => exact (Option.some.inj h).symm
    | succ i =>
      have hrow : (List.replicate 15 ({ weight := 1, strings := 1 } : ColourEntry))[i]? = some r := h
      exact (List.mem_replicate.1 (List.mem_of_getElem? hrow)).2

theorem configOf_colours_length : (configOf img len number role).colours.length = 16 := by
  show (if imageHas len 289 32 then _ else absentColourMap).length = 16
  split
  · simp [coloursOf]
  · rfl

theorem configOf_clockMode : (configOf img len number role).clockMode =
    if 34 + 1 ≤ len + 2 ∧ field img 34 1 = 1 then .master1 else if 34 + 1 ≤ len + 2 ∧ field img 34 1 = 3 then .master4
    else if 34 + 1 ≤ len + 2 ∧ field img 34 1 = 4 then .slave else .master2 := by
  have hmode : (configOf img len number role).clockMode = match imageField img len 34 1 with
      | some 1 => .master1
      | some 3 => .master4
      | some 4 => .slave
      | _ => .master2 := rfl
  rw [hmode, imageField]
  by_cases hp : 34 + 1 ≤ len + 2
  · rw [if_pos (by omega)]
    simp only [hp, true_and]
    split
    next h => simp [Option.some.inj h]
    next h => simp [Option.some.inj h]
    next h => simp [Option.some.inj h]
    next h1 h3 h4 =>
      rw [if_neg fun h => h1 (congrArg some h), if_neg fun h => h3 (congrArg some h), if_neg fun h => h4 (congrArg some h)]
  · rw [if_neg (by omega)]
    simp [hp]

theorem configOf_breakpoints (h : 209 + 8 ≤ len + 2) : (configOf img len number role).breakpoints =
    let g (o : Nat) := signed16 (field img o 2)
    [g 209, max (g 209) (g 211), max (max (g 209) (g 211)) (g 213), max (max (max (g 209) (g 211)) (g 213)) (g 215)] := by
  refine (if_pos ((imageHas_iff ..).2 h)).trans ?_
  have hlow : max (-32768) (signed16 (field img 209 2)) = signed16 (field img 209 2) := max_eq_right (signed16_ge _)
  show risingFrom (-32768) [signed16 (field img 209 2), signed16 (field img 211 2), signed16 (field img 213 2),
    signed16 (field img 215 2)] = _
  simp only [risingFrom, hlow]

theorem configOf_resting (i : Nat) (hi : i < 9) : (configOf img len number role).resting.getLsbD i = true ↔
    16 + 2 ≤ len + 2 ∧ (field img 16 2).testBit i = true := by
  show (if imageHas len 16 2 then BitVec.ofNat 9 (field img 16 2) else 0).getLsbD i = true ↔ _
  by_cases h : 16 + 2 ≤ len + 2
  · rw [if_pos ((imageHas_iff ..).2 h), BitVec.getLsbD_ofNat, decide_eq_true hi, Bool.true_and]
    exact (and_iff_right h).symm
  · rw [if_neg (mt (imageHas_iff ..).1 h)]
    simp [h]

theorem configOf_watch (i : Nat) (hi : i < 9) : (configOf img len number role).watch.getLsbD i = true ↔
    (18 + 2 ≤ len + 2 → (field img 18 2).testBit i = true) := by
  show (if imageHas len 18 2 then BitVec.ofNat 9 (field img 18 2) else BitVec.allOnes 9).getLsbD i = true ↔ _
  by_cases h : 18 + 2 ≤ len + 2
  · rw [if_pos ((imageHas_iff ..).2 h), BitVec.getLsbD_ofNat, decide_eq_true hi, Bool.true_and]
    exact ⟨fun hbit _ => hbit, fun hbit => hbit h⟩
  · rw [if_neg (mt (imageHas_iff ..).1 h), BitVec.getLsbD_allOnes, decide_eq_true hi]
    exact iff_of_true rfl fun hp => absurd hp h

theorem configOf_signWidth : (configOf img len number role).signWidth =
    if 201 + 2 ≤ len + 2 ∧ field img 201 2 ≠ 0 then clamp 32 256 (field img 201 2) / 8 * 8 else 0 := by
  show imageNat img len 201 2 0 signWidthOf = _
  by_cases h : 201 + 2 ≤ len + 2
  · rw [imageNat_present h, signWidthOf]
    by_cases h0 : field img 201 2 = 0
    · simp [h0]
    · rw [if_neg h0, if_pos ⟨h, h0⟩]
  · rw [imageNat_absent h, if_neg fun hc => h hc.1]

end Tables

end Sys2Proof.Machine
end

section
/-! SUPPORT. Entry to RUNNING: each block's first act (R201). -/

namespace Sys2Proof.Machine

/-! ### The first report does not depend on the status timer (R197) -/

/-- The state with the status timer set. -/
def State.withStatusTimer (s : State) (t : Timer) : State := { s with equip := { s.equip with statusTimer := t } }

section StatusTimer
variable (s : State) (t : Timer)

theorem State.port_withStatusTimer (p : PortId) : (s.withStatusTimer t).port p = s.port p := by cases p <;> rfl

theorem State.setPort_withStatusTimer (p : PortId) (q : LinePort) :
    (s.withStatusTimer t).setPort p q = (s.setPort p q).withStatusTimer t := by cases p <;> rfl

theorem State.arbitrate_withStatusTimer (p : PortId) :
    (s.withStatusTimer t).arbitrate p = (s.arbitrate p).withStatusTimer t := by
  unfold State.arbitrate
  rw [State.port_withStatusTimer]
  split
  · cases (s.port p).choose with
    | none => rfl
    | some x => exact s.setPort_withStatusTimer t p _
  · rfl

theorem State.offer_withStatusTimer (p : PortId) (f : Frame) :
    (s.withStatusTimer t).offer p f = (s.offer p f).withStatusTimer t := by
  unfold State.offer
  rw [State.port_withStatusTimer]
  cases (s.port p).offerAnswer f with
  | taken =>
    dsimp only
    rw [State.setPort_withStatusTimer, State.arbitrate_withStatusTimer]
  | refused | discarded => exact s.setPort_withStatusTimer t p _

theorem State.offerPart_withStatusTimer (p : PortId) (x : List Byte) :
    State.offerPart p (s.withStatusTimer t) x = (State.offerPart p s x).withStatusTimer t := by
  have hframe : (s.withStatusTimer t).ownFrame .nsta 255 241 x = s.ownFrame .nsta 255 241 x := rfl
  rw [State.offerPart_eq, State.offerPart_eq, State.port_withStatusTimer, hframe, State.offer_withStatusTimer]
  split
  · rfl
  · rfl

theorem State.placeOrDrop_withStatusTimer (m : CabMsg) :
    (s.withStatusTimer t).placeOrDrop m = (s.placeOrDrop m).withStatusTimer t := by
  have hroom : (s.withStatusTimer t).queueRoom = s.queueRoom := rfl
  rw [State.placeOrDrop, State.placeOrDrop, hroom]
  split
  · rfl
  · rfl

theorem State.sendParts_withStatusTimer (parts : List (List Byte)) :
    (s.withStatusTimer t).sendParts parts = (s.sendParts parts).withStatusTimer t := by
  have hchoice : (s.withStatusTimer t).terminusChoice = s.terminusChoice := rfl
  unfold State.sendParts
  rw [hchoice]
  cases s.terminusChoice with
  | none => rfl
  | self =>
    exact List.foldl_hom (State.withStatusTimer · t) fun u x => u.placeOrDrop_withStatusTimer t (centreCopy 0x88 u.cfg.number x)
  | terminus n p h => exact List.foldl_hom (State.withStatusTimer · t) fun u x => u.offerPart_withStatusTimer t p x

theorem State.sendNsta_withStatusTimer : (s.withStatusTimer t).sendNsta = s.sendNsta.withStatusTimer t :=
  State.sendParts_withStatusTimer { s with equip := { s.equip with reportNumber := s.equip.reportNumber + 1 } } t s.nstaParts

/-- The first report is as that of the status timer's expiry. -/
theorem State.startStatus_of_expiry {s u : State} {t : Timer} (ht : t ≠ none)
    (h : exec .statusTimerExpiry (s.withStatusTimer t) = .next u) : s.startStatus = u := by
  rw [exec_statusTimerExpiry _ ht] at h
  have href : s.sendNsta.refTime = s.refTime := s.sendNsta_item (part := .refTime) (by decide)
  have hcfg : s.sendNsta.cfg = s.cfg := s.sendNsta_item (part := .cfg) (by decide)
  have htimer : s.sendNsta.statusTimerAnew = some ⟨s.refTime, s.cfg.nodeInterval * 1000000⟩ := by
    rw [State.statusTimerAnew, State.startTimer, href, hcfg]
  rw [← Host.Outcome.next.inj h, State.sendNsta_withStatusTimer, State.startStatus]
  dsimp only
  rw [htimer]
  rfl

end StatusTimer

/-! ### The steps of the entry (R27, R38, R53, R63, R68, R159, R176) -/

section Entry
variable (s : State)

/-- The BEATs and their timer. -/
theorem State.startBeats_eq : s.startBeats = { (s.offerBeat .east).offerBeat .west with
    reach := { s.reach with beatTimer := some ⟨s.refTime, s.cfg.beatInterval * 1000⟩ } } := by
  rw [State.startBeats, State.startTimer]
  simp only [State.offerBeat_reach, State.offerBeat_refTime, State.offerBeat_cfg]

theorem State.watchDeparted_iff (l : LevelLine) : s.watchDeparted l = true ↔
    s.cfg.watch.getLsbD (lineBit l) = true ∧ (s.inputs.line l).filtered ≠ s.cfg.resting.getLsbD (lineBit l) := by
  simp [State.watchDeparted, State.watched, State.departed]

theorem State.entryReport_eq : s.entryReport =
    ([(.hookA, 0), (.hookB, 1), (.contact 0, 2), (.contact 1, 3), (.contact 2, 4), (.contact 3, 5), (.contact 4, 6),
      (.contact 5, 7)] : List (LevelLine × Nat)).foldl (fun (x : State) l =>
        if x.cfg.watch.getLsbD l.2 = true ∧ (x.inputs.line l.1).filtered ≠ x.cfg.resting.getLsbD l.2 then x.lineEvent l.1 else x) s := by
  have hline : (fun (t : State) (l : LevelLine) => if t.watchDeparted l then t.lineEvent l else t) = fun t l =>
      if t.cfg.watch.getLsbD (lineBit l) = true ∧ (t.inputs.line l).filtered ≠ t.cfg.resting.getLsbD (lineBit l) then t.lineEvent l
      else t :=
    funext fun t => funext fun l => if_congr (t.watchDeparted_iff l) rfl rfl
  rw [State.entryReport, hline]
  exact (List.foldl_map (f := fun l : LevelLine => (l, lineBit l)) (l := entryLines) (g := fun (x : State) (l : LevelLine × Nat) =>
    if x.cfg.watch.getLsbD l.2 = true ∧ (x.inputs.line l.1).filtered ≠ x.cfg.resting.getLsbD l.2 then x.lineEvent l.1
    else x)).symm

/-- The timers that the entry starts after its reports. -/
def State.timersStarted (s : State) : State :=
  let timer (us : Nat) : Timer := some ⟨s.refTime, us⟩
  let window (p : PulseState) (w : Nat) : PulseState := { p with count := 0, window := timer (w * 1000000) }
  { s with
    time := { s.time with gradeTimer := if s.time.lock.isSome then none else timer (8 * s.cfg.beatInterval * 1000) }
    inputs := { s.inputs with pulses :=
      ⟨window s.inputs.pulses.wind s.cfg.pulseWindow.wind, window s.inputs.pulses.rain s.cfg.pulseWindow.rain⟩ }
    display := if s.cfg.services.sign = true ∧ s.cfg.signWidth ≠ 0 then
      { s.display with frameTimer := some ⟨s.refTime, s.cfg.frameRate⟩, owed := true } else s.display
    weather := if s.cfg.services.weather then
      { s.weather with reportTimer := timer (s.cfg.reportInterval * 1000000) } else s.weather }

theorem State.startFrames_eq : s.startFrames = { s with display := if s.cfg.services.sign = true ∧ s.cfg.signWidth ≠ 0 then
    { s.display with frameTimer := some ⟨s.refTime, s.cfg.frameRate⟩, owed := true } else s.display } := by
  have hsign : s.signPresent = true ↔ s.cfg.services.sign = true ∧ s.cfg.signWidth ≠ 0 := by simp [State.signPresent]
  by_cases h : s.cfg.services.sign = true ∧ s.cfg.signWidth ≠ 0
  · rw [State.startFrames, if_pos (hsign.2 h), if_pos h]
    rfl
  · rw [State.startFrames, if_neg (mt hsign.1 h), if_neg h]

theorem State.startReports_eq : s.startReports = { s with weather := if s.cfg.services.weather then
    { s.weather with reportTimer := some ⟨s.refTime, s.cfg.reportInterval * 1000000⟩ } else s.weather } := by
  by_cases h : s.cfg.services.weather = true
  · rw [State.startReports, if_pos h, if_pos h]
    rfl
  · rw [State.startReports, if_neg h, if_neg h]

theorem State.timersStarted_eq :
    ((s.startGrade.startPulse .wind).startPulse .rain).startFrames.startReports = s.timersStarted := by
  rw [State.startReports_eq, State.startFrames_eq]
  rfl

end Entry

end Sys2Proof.Machine
end

section
/-! SUPPORT. O55: an image read, its values, and the node's entry to RUNNING. -/

namespace Sys2Proof.Machine

section
variable (s : State)

/-- The BEATs and their timer, as entry to RUNNING starts them. -/
def State.beatsBegun (s : State) : State :=
  { (State.offerBeat { s with node := .running } .east).offerBeat .west with
    reach := { s.reach with beatTimer := some ⟨s.refTime, s.cfg.beatInterval * 1000⟩ } }

/-- Entry to RUNNING, in the order of its steps. -/
theorem State.enterRunning_eq {u : State}
    (h : exec .statusTimerExpiry (s.beatsBegun.reportChoice.entryReport.timersStarted.withStatusTimer (some ⟨0, 0⟩)) = .next u) :
    s.enterRunning = u.runToll := by
  have hbeats : State.startBeats { s with node := .running } = s.beatsBegun := State.startBeats_eq { s with node := .running }
  have hnode : s.beatsBegun.node = .running := by
    rw [← hbeats]
    exact State.startBeats_item { s with node := .running } (part := .node) (by decide)
  have hreport : s.beatsBegun.reportChange [] = s.beatsBegun.reportChoice := State.reportChange_running hnode []
  unfold State.enterRunning
  rw [hbeats]
  dsimp only
  rw [hreport, State.timersStarted_eq, State.startStatus_of_expiry (by simp) h]

end

/-- An accepted configuration's frequency trim is within its range. -/
theorem configOf_trim (img : List Byte) (len number : Nat) (role : Role) :
    -200 ≤ (configOf img len number role).trim ∧ (configOf img len number role).trim ≤ 200 := by
  show -200 ≤ (if imageHas len 8 2 then clampInt (-200) 200 (signed16 (field img 8 2)) else 0) ∧
    (if imageHas len 8 2 then clampInt (-200) 200 (signed16 (field img 8 2)) else 0) ≤ (200 : Int)
  split
  · unfold clampInt
    omega
  · omega

/-- K is the whole number nearest to its quotient, at either reference frequency (R44). -/
theorem rateOf_reference {r : Reference} {trim : Int} (h : -200 ≤ trim) (h' : trim ≤ 200) :
    let d : Int := (if r = .mhz25 then 25000000 else 19440000) * (1000000 + trim)
    let n : Int := 2 ^ 32 * 10 ^ 12
    2 * n < 2 * d * (rateOf (referenceHz r) trim).toNat + d ∧ 2 * d * (rateOf (referenceHz r) trim).toNat ≤ 2 * n + d := by
  cases r with
  | mhz25 => exact rateOf_nearest (.inl rfl) h h'
  | mhz1944 => exact rateOf_nearest (.inr rfl) h h'

section Flags
variable (img : List Byte) (len off n : Nat)

theorem imageHas_and (b : Bool) : (imageHas len off n && b) = true ↔ off + n ≤ len + 2 ∧ b = true := by
  rw [Bool.and_eq_true, imageHas_iff]

theorem imageHas_field_eq (v : Nat) : (imageHas len off n && field img off n == v) = true ↔
    off + n ≤ len + 2 ∧ field img off n = v := by
  rw [imageHas_and, beq_iff_eq]

theorem imageHas_field_ne (v : Nat) : (imageHas len off n && field img off n != v) = true ↔
    off + n ≤ len + 2 ∧ field img off n ≠ v := by
  rw [imageHas_and, bne_iff_ne]

variable {α : Type} {a b : α} {len off n}

/-- A group within the length. -/
theorem imageHas_pos (h : off + n ≤ len + 2) : (if imageHas len off n then a else b) = a := if_pos ((imageHas_iff ..).2 h)

/-- A group in part beyond the length. -/
theorem imageHas_neg (h : ¬ off + n ≤ len + 2) : (if imageHas len off n then a else b) = b := if_neg (mt (imageHas_iff ..).1 h)

theorem byte_range (img : List Byte) (off : Nat) : id (field img off 1) = max 0 (min 255 (field img off 1)) := by
  have := field_one_lt img off
  show field img off 1 = _
  omega

end Flags

/-- Settles O55: the image by its checks, its values field by field, and the entry to RUNNING by its steps. -/
theorem imagesAreAcceptedOrRejected : Obligations.ImagesAreAcceptedOrRejected := by
  refine ⟨?_, ?_, ?_⟩
  · intro s img num len sound rejected
    refine ⟨fun h => ?_, fun h => ?_⟩
    · exact ⟨congrArg Host.Outcome.next (State.imageRead_other h (some img)), congrArg Host.Outcome.next (State.imageRead_other h none),
        congrArg Host.Outcome.next (State.imageRead_other h none)⟩
    · refine ⟨congrArg Host.Outcome.next (State.imageRead_none h rfl), congrArg Host.Outcome.next (State.imageRead_none h rfl),
        fun hs => congrArg Host.Outcome.next (State.imageRead_none h (parseImage_unsound hs)), fun hs => ?_⟩
      have hparse := parseImage_sound hs
      refine ⟨_, s.accepted _, hparse, rfl, rfl, rfl, ⟨_, rfl, ?_⟩, s.inputs.sample_line, s.inputs.sample_pulses, rfl, rfl,
        s.accepted_sameBut _, congrArg Host.Outcome.next ((State.imageRead_some (image := some img) h hparse).trans State.enterScanning_eq)⟩
      obtain ⟨htrim, htrim'⟩ := configOf_trim img (field img 0 2) (field img 2 1) (imageRole img)
      exact rateOf_reference htrim htrim'
  · intro img c hparse num sgn bit has put nat
    obtain ⟨⟨hmin, -⟩, rfl⟩ := parseImage_some hparse
    have hsgn (o : Nat) : signed16 (field img o 2) = sgn o := signed16_field img o
    have hgroup {a n o m : Nat} (h : o + m ≤ n) : field ((img.drop a).take n) o m = num (a + o) m := field_group img h
    refine ⟨rfl, rfl, (if_pos (show has 4 1 from Nat.add_le_add_right hmin 2)).symm, imageNat_range img rfl rfl,
      if_congr (imageHas_field_eq ..) rfl rfl, if_congr (imageHas_iff ..) (congrArg (clampInt (-200) 200) (hsgn 8)) rfl,
      imageNat_range img rfl (byte_range ..), imageNat_range img rfl rfl, imageNat_range img rfl (Nat.zero_max _).symm,
      imageHas_field_ne .., fun i hi => ⟨configOf_resting _ _ _ _ i hi, configOf_watch _ _ _ _ i hi⟩,
      imageHas_pos, imageHas_neg, imageHas_pos, imageHas_neg, imageHas_pos, imageHas_neg,
      imageNat_range img rfl rfl, imageNat_range img rfl (byte_range ..), imageNat_range img rfl rfl,
      imageHas_and .., imageHas_and .., ?_, configOf_clockMode .., fun h => ⟨imageHas_pos h, imageHas_pos h⟩,
      fun h => ⟨imageHas_neg h, imageHas_neg h⟩, imageNat_range img rfl rfl, imageNat_range img rfl rfl,
      configOf_ranges_length .., ?_, configOf_rules_length .., ?_, configOf_signWidth .., imageNat_range img rfl rfl,
      imageNat_range img rfl rfl, if_congr (imageHas_field_eq ..) rfl rfl, imageNat_range img rfl rfl, ?_,
      ?_, imageHas_neg, imageHas_pos, imageHas_neg, imageNat_range img rfl rfl,
      configOf_signRules_length .., ?_, configOf_colours_length .., fun i r hr => configOf_colours _ _ _ _ hr⟩
    · by_cases h : has 33 1
      · exact ((imageNat_present h).trans (runLengthOf_eq _)).trans (if_pos h).symm
      · exact (imageNat_absent h).trans (if_neg h).symm
    · intro i hi
      refine (configOf_ranges _ _ _ _ i hi).trans ?_
      rw [hsgn, hsgn]
      rfl
    · intro i r hr o pulse
      obtain ⟨habsent, hpresent⟩ := configOf_rules _ _ _ _ hr
      refine ⟨habsent, fun h => ?_⟩
      let g : List Byte := (img.drop o).take 16
      obtain rfl : r = ruleOf g := hpresent h
      have hg (k m : Nat) (hkm : k + m ≤ 16) : field g k m = num (o + k) m := hgroup hkm
      have hbyte : byteAt g 2 = img.getD (o + 2) 0 := byteAt_group img (by omega)
      have hsource : field g 1 1 = num (o + 1) 1 := hg 1 1 (by omega)
      have hraise : signed16 (field g 4 2) = sgn (o + 4) := (congrArg signed16 (hg 4 2 (by omega))).trans (hsgn _)
      have hclear : signed16 (field g 6 2) = sgn (o + 6) := (congrArg signed16 (hg 6 2 (by omega))).trans (hsgn _)
      refine ⟨congrArg (min 14) (hg 0 1 (by omega)), ?_, ?_, fun hp => ?_, fun hc => ?_, ?_,
        congrArg (clamp 1 3) (hg 9 1 (by omega)), congrArg (clamp 10 86400) (hg 10 3 (by omega)), ?_⟩
      · rw [ruleOf_source, hsource, hg 2 1 (by omega), hbyte]
      · rw [← hg 3 1 (by omega)]
        rfl
      · obtain ⟨hr, hc⟩ := ruleOf_pulse g (hsource ▸ hp.1) (hsource ▸ hp.2)
        rw [hr, hc, hg 4 2 (by omega), hg 6 2 (by omega)]
        exact ⟨rfl, rfl⟩
      · obtain ⟨hr, hc⟩ := ruleOf_channel g (hsource.trans hc)
        exact ⟨hr.trans hraise, hc.trans hclear⟩
      · rw [ruleOf_persistence, hsource, hg 8 1 (by omega)]
        rfl
      · rw [ruleOf_claim, hg 13 1 (by omega), hg 14 1 (by omega), hg 15 1 (by omega)]
    · exact ⟨fun h => (congrArg Fin.val (imageHas_pos h)).trans (Nat.zero_max _).symm, fun h => congrArg Fin.val (imageHas_neg h)⟩
    · intro h
      refine (configOf_breakpoints _ _ _ _ h).trans ?_
      dsimp only
      rw [hsgn, hsgn, hsgn, hsgn]
    · intro i r hr o
      obtain ⟨habsent, hpresent⟩ := configOf_signRules _ _ _ _ hr
      refine ⟨habsent, fun h => ?_⟩
      let g : List Byte := (img.drop o).take 4
      obtain rfl : r = signRuleOf g := hpresent h
      have hg (k m : Nat) (hkm : k + m ≤ 4) : field g k m = num (o + k) m := hgroup hkm
      exact ⟨congrArg (min 15) (hg 0 1 (by omega)), congrArg (clamp 1 3) (hg 1 1 (by omega)),
        congrArg (min 3) (hg 2 1 (by omega)), congrArg (min 15) (hg 3 1 (by omega))⟩
  · intro s u a o t r b lines e timer window f h
    have hb : b = s.beatsBegun.reportChoice := rfl
    have he : e = s.beatsBegun.reportChoice.entryReport := (State.entryReport_eq b).symm
    have hf : f = s.beatsBegun.reportChoice.entryReport.timersStarted := congrArg State.timersStarted he
    refine s.enterRunning_eq ?_
    rw [← hf]
    exact h
end Sys2Proof.Machine
end
